-- ==== Sys2Proof/Word.lean ====
section
/-! DEFINITION. The two word types of the part: bytes of a frame and board coordinates (R5). -/

namespace Sys2Proof

/-- One byte of a request, response or report frame. -/
abbrev Byte := BitVec 8

/-- The odometer and every board coordinate: a 32-bit count taken modulo 2^32 (R5). -/
abbrev Coord := BitVec 32

end Sys2Proof
end

