-- ==== Sys2Proof/Config.lean ====
section
/-! DEFINITION. What is fixed for the part: the rows of the configuration store (R193), the sizes of its
tables, and the FREE VALUES, uninterpreted constants without a body that stand for what the manual leaves open. -/

namespace Sys2Proof.Config

/-- One row of R193's table: the range a value is clamped to, and the default after device reset. -/
structure ItemRow where
  lo : Int
  hi : Int
  dflt : Int
  deriving DecidableEq, Repr

/-- The lowest signed 32-bit value: item 21 has no fixed lower bound, its minimum follows the other items (R193). R194 does
not say against which minimum its step 4 clamps a named F, that of the values held or of the values merged: the model
gives step 4 no lower bound for F, and only the raise to the minimum of the merged values acts (DESIGN CHOICE, log entry
46). -/
def noFloor : Int := -2147483648

/-- Items 1 to 20 of R193: paths, take-ups and station offsets. -/
def offsetRows : List ItemRow :=
  [⟨5000, 300000, 150000⟩, ⟨5000, 300000, 140000⟩, ⟨5000, 300000, 110000⟩, ⟨5000, 300000, 100000⟩,
   ⟨5000, 300000, 30000⟩,
   ⟨4096, 8192, 4096⟩, ⟨4096, 8192, 5857⟩, ⟨4096, 8192, 4096⟩, ⟨4096, 8192, 5407⟩, ⟨4096, 8192, 4096⟩,
   ⟨-300000, 0, -135000⟩, ⟨-300000, 0, -130000⟩, ⟨-300000, 0, -95000⟩, ⟨-300000, 0, -90000⟩,
   ⟨-300000, 0, -12000⟩,
   ⟨-300000, 0, -105000⟩, ⟨-300000, 0, -70000⟩, ⟨-300000, 0, -6000⟩,
   ⟨1, 300000, 62000⟩, ⟨1, 300000, 78000⟩]

/-- Items 21 to 40 of R193: the freeze distance (its default is its minimum with the other defaults), reserves,
limits and tolerances. -/
def limitRows : List ItemRow :=
  [⟨noFloor, 1000000, 170000⟩,
   ⟨20000, 2000000, 150000⟩, ⟨20000, 2000000, 150000⟩, ⟨20000, 2000000, 150000⟩, ⟨20000, 2000000, 150000⟩,
   ⟨20000, 2000000, 150000⟩,
   ⟨0, 5000, 0⟩, ⟨0, 5000, 600⟩, ⟨0, 5000, 1800⟩, ⟨500, 10000, 2000⟩, ⟨5000, 60000, 30000⟩,
   ⟨500, 20000, 5000⟩, ⟨1, 50, 5⟩, ⟨1, 20, 3⟩, ⟨300, 4000, 2500⟩, ⟨2000, 60000, 12000⟩,
   ⟨10000, 120000, 45000⟩, ⟨5000, 120000, 30000⟩, ⟨0, 5000, 1500⟩, ⟨1, 100, 10⟩]

/-- The forty rows of R193, item n at place n − 1. -/
def itemRows : List ItemRow := offsetRows ++ limitRows

/-- Slots of the mark table (R9), the order table (R24), the grade table (R47). -/
def markSlots : Nat := 48
def orderSlots : Nat := 64
def gradeSlots : Nat := 32

/-- Free slots PLACE CULL needs (R12, R20). -/
def hostReserve : Nat := 8

/-- Entries of the suspension stack (R33), commands of one class (R180), entries of the lag list (R141), stack
changes outstanding (R141). -/
def stackDepth : Nat := 3
def classDepth : Nat := 8
def lagDepth : Nat := 4
def maxOutstanding : Nat := 2

/-- The knife clearance of section 1.7 in mm. -/
def knifeClearance : Nat := 9000

/-- The longest body of a frame on the station link (R174). -/
def maxLinkBody : Nat := 48

/-- The longest gap a GAP mark covers, in mm (R114). -/
def maxGap : Nat := 1000000

/-- The enumerations whose codes in a response body the manual does not number (log entry 4). -/
inductive CodeTable
  | sequencerState | spliceKind | jointOrigin | stationState | decisionStatus | knifeOwner | gridPosition
  | postponedKind | commandKind | commandUnit | lineChange | reportKind
  deriving DecidableEq, Repr

/-- FREE VALUE: the code a response carries for the i-th name of an enumeration the manual does not number. -/
opaque enumCode : CodeTable → Nat → Byte

/-- FREE VALUE: the start delimiter of the frames on the station link, which R174 does not number (log entry 38). That it is
one byte wide is the model's choice (DESIGN CHOICE, log entry 51). -/
opaque startDelimiter : Byte

/-- FREE VALUE: the 16-bit check of a frame on the station link over its address, kind, body length and body; R174 gives
no polynomial and no byte order (log entry 38). -/
opaque frameCheck : List Byte → BitVec 16

/-- FREE VALUE: the level of a start bit on the pairs of the station link; a stop bit, and a pair at rest, have the other
level. R174 names the bits and not their levels (log entry 53). -/
opaque linkStartLevel : Bool

/-- FREE VALUE: whether the eight data bits of a byte on the station link go out with the most significant first, else with
the least significant first; R174 does not say (log entry 53). -/
opaque linkMsbFirst : Bool

/-- FREE VALUE: what the receiver takes the eight data bits for where the stop bit behind them does not come, none where it
passes them over; R174 does not say (log entry 53). -/
opaque unstoppedByte : Byte → Option Byte

/-- FREE VALUE: the two bytes by which READ STAND reports a required grade of "any" (R121). -/
opaque anyGradeCode : BitVec 16

/-- FREE VALUE: the n-th choice among separate events of one step whose order the manual leaves open (R1, R3, R198).
The model uses it modulo the number of events still to be taken. -/
opaque freeChoice : Nat → Nat

/-- FREE VALUE: the n-th yes or no the manual leaves open (LIMITED at a repeated verification, log entry 13; the stacks
closed of a DONE order, log entry 40; the levels of the inputs when a reset ends, log entry 37). -/
opaque freeBit : Nat → Bool

end Sys2Proof.Config
end

