-- ==== Sys2Proof/Syntax.lean ====
section
/-! DEFINITION. The commands of the part: one constructor of Instr for each row of the opcode table. A host request
carries the body bytes of its frame (R190), a station report its decoded fields (R176), an event on a pin or of the
reference clock the unit it names, an exchange that may carry no good frame the bits sampled on SDI (R189), and a report
that may be malformed the levels at LNK_RX, one for each bit time (R174). -/

namespace Sys2Proof

/-- The five roll stands, in the stand order used throughout the manual. -/
inductive Stand
  | l1 | m1 | l2 | m2 | l3
  deriving DecidableEq, Repr

/-- The two reel positions of a stand. -/
inductive Pos
  | a | b
  deriving DecidableEq, Repr

/-- The two slitter-scorer stations. -/
inductive Station
  | a | b
  deriving DecidableEq, Repr

/-- The three glue units. -/
inductive GlueUnit
  | g1 | g2 | g3
  deriving DecidableEq, Repr

/-- The commands of the part, in the order of the opcode table. -/
inductive Instr
  | null (body : List Byte)
  | readLine (body : List Byte)
  | configure (body : List Byte)
  | readConfig (body : List Byte)
  | lineReset (body : List Byte)
  | readErrors (body : List Byte)
  | setErrorPolicy (body : List Byte)
  | clearErrors (body : List Byte)
  | releaseHold (body : List Byte)
  | collect (body : List Byte)
  | enterOrder (body : List Byte)
  | amendOrder (body : List Byte)
  | scheduleOrder (body : List Byte)
  | unscheduleOrder (body : List Byte)
  | rushOrder (body : List Byte)
  | cancelOrder (body : List Byte)
  | retireOrder (body : List Byte)
  | readOrder (body : List Byte)
  | readSequence (body : List Byte)
  | enterGrade (body : List Byte)
  | amendGrade (body : List Byte)
  | retireGrade (body : List Byte)
  | readGrade (body : List Byte)
  | placeCull (body : List Byte)
  | readMarks (body : List Byte)
  | announceReel (body : List Byte)
  | withdrawReel (body : List Byte)
  | threadReel (body : List Byte)
  | unthreadReel (body : List Byte)
  | readReel (body : List Byte)
  | requestSplice (body : List Byte)
  | clearStand (body : List Byte)
  | readStand (body : List Byte)
  | clearStation (body : List Byte)
  | readSlitter (body : List Byte)
  | readKnife (body : List Byte)
  | refreshBond (body : List Byte)
  | readBond (body : List Byte)
  | readStationQueues (body : List Byte)
  | forwardCount
  | reverseCount
  | speedWindowClose
  | lineStopped
  | cutPulse
  | jointPulse (stand : Stand)
  | deviceReset
  | reelLoaded (stand : Stand) (pos : Pos) (readId : Nat)
  | reelRemoved (stand : Stand) (pos : Pos)
  | diameter (stand : Stand) (pos : Pos) (d : Nat)
  | setPositions (station : Station) (measured : List Nat)
  | stackTaken
  | malformedReport (levels : List Bool)
  | reportFrameTimeout
  | spliceTimeout (stand : Stand)
  | setTimeout (station : Station)
  | diameterStale (stand : Stand)
  | runOut (stand : Stand)
  | bumpEnd (unit : GlueUnit)
  | arbiterTake
  | spliceGo
  | speedCap
  | knifeSchedule
  | slitterSet
  | slitterExchange
  | stackChange
  | bondSetpoint
  | requestFrameRefused (bits : List Bool)
  deriving DecidableEq, Repr

namespace Stand

/-- The stands in order. -/
def all : List Stand := [.l1, .m1, .l2, .m2, .l3]

/-- Place in the stand order, 0..4. -/
def idx : Stand → Nat
  | .l1 => 0 | .m1 => 1 | .l2 => 2 | .m2 => 3 | .l3 => 4

end Stand

namespace Pos

/-- The other position of the same stand. -/
def other : Pos → Pos
  | .a => .b | .b => .a

/-- Position A before position B (R82). -/
def idx : Pos → Nat
  | .a => 0 | .b => 1

end Pos

namespace Station

def other : Station → Station
  | .a => .b | .b => .a

end Station

namespace GlueUnit

def all : List GlueUnit := [.g1, .g2, .g3]

def idx : GlueUnit → Nat
  | .g1 => 0 | .g2 => 1 | .g3 => 2

end GlueUnit

end Sys2Proof
end

