-- ==== Sys2Proof/Decode.lean ====
section
/-! DEFINITION. The commands that a word of the opcode table's bits spells. No row of this part's table gives bits (a
request reaches the part as a frame, which Machine/Port.lean reads), so no word spells a command. -/

namespace Sys2Proof

/-- The command that the nbits bits w spell by the opcode table: none, since no row of the table gives bits. -/
def decodeTableWord (_nbits _w : Nat) : Option Instr := none

end Sys2Proof
end

