-- ==== Sys2Proof/Machine/Coord.lean ====
section
/-! DEFINITION. Modular comparison of board coordinates (R5) and the rounding used by the formulas of the chapters. -/

namespace Sys2Proof.Machine

/-- R5: the signed distance from a to b, (b − a) mod 2^32 read in −2^31..2^31 − 1. -/
def sdist (a b : Coord) : Int := (b - a).toInt

/-- R5: b is at or after a. -/
def atOrAfter (b a : Coord) : Bool := (b - a).toNat < 2147483648

/-- R5: b is before a. -/
def before (b a : Coord) : Bool := !atOrAfter b a

/-- R5: the odometer has reached x. -/
def reached (odo x : Coord) : Bool := atOrAfter odo x

/-- R5: b lies within w of a. -/
def within (b a : Coord) (w : Nat) : Bool := decide (-(w : Int) ≤ sdist a b) && decide (sdist a b ≤ w)

/-- A coordinate moved forward by a length in mm, modulo 2^32. -/
def plusMm (c : Coord) (n : Nat) : Coord := c + BitVec.ofNat 32 n

/-- A coordinate moved by a signed offset, modulo 2^32 (R5). -/
def shiftBy (c : Coord) (o : Int) : Coord := c + BitVec.ofInt 32 o

/-- The later of two coordinates. -/
def laterOf (a b : Coord) : Coord := if atOrAfter b a then b else a

/-- x lies in the half-open stretch [a, b). -/
def inStretch (x a b : Coord) : Bool := atOrAfter x a && before x b

/-- The half-open stretches [a, b) and [c, d) overlap; an empty stretch overlaps nothing (R60, R148). -/
def overlaps (a b c d : Coord) : Bool := a != b && c != d && before c b && before a d

/-- Division rounded toward plus infinity. -/
def ceilDiv (n d : Nat) : Nat := (n + d - 1) / d

/-- The least k with base + k × step at or after target, measured by the signed distance. -/
def stepsTo (base target : Coord) (step : Nat) : Nat := ceilDiv (sdist base target).toNat step

/-- A count that stays at its upper limit (R28). -/
def satAdd (limit a b : Nat) : Nat := min limit (a + b)

end Sys2Proof.Machine
end

