-- ==== Sys2Proof/Machine/State.lean ====
section
/-! DEFINITION. Every piece of state the manual gives the part, as plain data, and the state after device reset.
References to a mark are by a serial number the model gives it at placement (log entry 2); what the manual defines as
computed from other state (head, tail and next of the run sequence, setpoint queued, the two output pins) is
computed, not held twice (log entry 3). -/

namespace Sys2Proof.Machine

open Sys2Proof

/-- One value for each roll stand. -/
structure PerStand (α : Type) where
  l1 : α
  m1 : α
  l2 : α
  m2 : α
  l3 : α
  deriving DecidableEq, Repr

/-- One value for each glue unit. -/
structure PerGlue (α : Type) where
  g1 : α
  g2 : α
  g3 : α
  deriving DecidableEq, Repr

/-- One value for each of two things named A and B: reel positions, slitter stations. -/
structure Pair (α : Type) where
  a : α
  b : α
  deriving DecidableEq, Repr

/-! ### The mark table (R9 to R11) -/

/-- The stations at which a mark's points cross (R14). -/
inductive Cross
  | freeze | ph (k : Stand) | glue (g : GlueUnit) | decision | knife
  deriving DecidableEq, Repr

/-- Where a crossing stands: pending at the point R14 gives, pending again at the incoming start after a closing (R16),
done, or done without a call (R15). -/
inductive CrossStatus
  | pending | rearmed | done | silent
  deriving DecidableEq, Repr

structure CrossEntry where
  name : Cross
  status : CrossStatus
  deriving DecidableEq, Repr

inductive MarkState
  | provisional | frozen | runOut
  deriving DecidableEq, Repr

/-- The outgoing order of a CHANGE mark, its segment start S and its cut length (R10). -/
structure Outgoing where
  order : Nat
  start : Coord
  cutLength : Nat
  deriving DecidableEq, Repr

/-- A CHANGE mark (R10). `length` is G, none while the zone is open. -/
structure ChangeMark where
  uid : Nat
  p : Coord
  length : Option Nat
  outgoing : Option Outgoing
  incoming : Option Nat
  state : MarkState
  pinned : Bool
  xEx : Coord
  extensions : Nat
  waste : Nat
  crossings : List CrossEntry
  deriving DecidableEq, Repr

/-- A JOINT mark (R11). -/
structure JointMark where
  uid : Nat
  joint : Coord
  stand : Stand
  cullBefore : Nat
  cullAfter : Nat
  crossings : List CrossEntry
  deriving DecidableEq, Repr

/-- A GAP mark (R11). -/
structure GapMark where
  uid : Nat
  start : Coord
  length : Nat
  stand : Stand
  deriving DecidableEq, Repr

/-- A HOST mark (R11). -/
structure HostMark where
  uid : Nat
  start : Coord
  length : Nat
  deriving DecidableEq, Repr

inductive Mark
  | change (m : ChangeMark)
  | joint (m : JointMark)
  | gap (m : GapMark)
  | host (m : HostMark)
  deriving DecidableEq, Repr

/-! ### The order book (R24 to R33) -/

inductive OrderState
  | entered | queued | running | suspended | done
  deriving DecidableEq, Repr

inductive OrderOutcome
  | complete | short | cancelled | aborted
  deriving DecidableEq, Repr

/-- The reasons a cull is charged to (R28), in the order of the order record. -/
inductive CullReason
  | change | gap | joint | host | deviation
  deriving DecidableEq, Repr

/-- A slit list and a score list (R26). -/
structure Pattern where
  slits : List Nat
  scores : List Nat
  deriving DecidableEq, Repr

/-- The defining fields of an order (R25). -/
structure OrderDef where
  number : Nat
  grade : Nat
  cutLength : Nat
  pattern : Pattern
  quantity : Nat
  allowance : Nat
  stackSize : Nat
  deriving DecidableEq, Repr

/-- Cull cuts by reason (R28). -/
structure CullCounts where
  change : Nat
  gap : Nat
  joint : Nat
  host : Nat
  deviation : Nat
  deriving DecidableEq, Repr

/-- An order record in its slot (R24): its defining fields and its running fields (R28). -/
structure Order where
  slot : Nat
  fields : OrderDef
  state : OrderState
  outcome : Option OrderOutcome
  rush : Bool
  cancel : Bool
  goodCuts : Nat
  cullCuts : Nat
  byReason : CullCounts
  segments : Nat
  stacked : Bool
  stacksClosed : Nat
  stackFill : Nat
  attention : Bool
  deriving DecidableEq, Repr

/-! ### The grade table (R47 to R49) -/

structure Breakpoint where
  speed : Nat
  wrap : Nat
  deriving DecidableEq, Repr

/-- A wrap curve of four breakpoints (R48). -/
structure Curve where
  b0 : Breakpoint
  b1 : Breakpoint
  b2 : Breakpoint
  b3 : Breakpoint
  deriving DecidableEq, Repr

structure GlueValues where
  base : Nat
  bump : Nat
  deriving DecidableEq, Repr

structure GradeDef where
  number : Nat
  codes : PerStand Nat
  curves : PerStand Curve
  glue : PerGlue GlueValues
  deriving DecidableEq, Repr

/-- A grade entry in its slot, with its reference and active counts (R49). -/
structure Grade where
  slot : Nat
  fields : GradeDef
  refs : Nat
  active : Nat
  deriving DecidableEq, Repr

/-! ### The span planner (R59) -/

/-- The provisional mark, the count base B and the planned count M (R59). -/
structure Provisional where
  mark : Nat
  base : Coord
  count : Nat
  deriving DecidableEq, Repr

/-! ### The reel monitor (R82, R83) -/

/-- The host's announcement of a reel, with its force flag (R82). -/
structure Announcement where
  id : Nat
  code : Nat
  caliper : Nat
  core : Nat
  force : Bool
  deriving DecidableEq, Repr

/-- The reel last spliced out of a position (R82). -/
structure SpentReel where
  id : Nat
  length : Nat
  deriving DecidableEq, Repr

/-- The data of a reel whose identity is trusted (R83). -/
structure Paper where
  readId : Nat
  ann : Announcement
  diameter : Nat
  remaining : Nat
  residue : Nat
  limited : Bool
  deriving DecidableEq, Repr

/-- A slot's state with exactly the fields R82 says are present in it. -/
inductive Reel
  | empty (spent : Option SpentReel)
  | loaded (readId diameter : Nat)
  | announced (ann : Announcement)
  | verified (paper : Paper)
  | mismatch (readId : Nat) (ann : Announcement) (diameter : Nat)
  | running (paper : Paper) (stale : Bool) (timer : Nat)
  | unidentified (readId diameter : Nat)
  | exhausted (paper : Paper)
  deriving DecidableEq, Repr

structure ReelSlot where
  reel : Reel
  attention : Bool
  deriving DecidableEq, Repr

/-! ### The splice controller (R101, R110) -/

inductive SeqState
  | idle | armed | waitReel | waitGo | splicing | fault
  deriving DecidableEq, Repr

inductive SpliceKind
  | grade | lowReel | manual
  deriving DecidableEq, Repr

/-- The splice in hand and its due odometer (R101). -/
structure Splice where
  kind : SpliceKind
  due : Coord
  deriving DecidableEq, Repr

/-- The paper code a reel check looked for (R101). -/
inductive Required
  | any
  | code (n : Nat)
  deriving DecidableEq, Repr

/-- A grade plan: new code, due odometer, change mark and its P (R101, R103). -/
structure Plan where
  code : Nat
  due : Coord
  mark : Nat
  p : Coord
  deriving DecidableEq, Repr

/-- A running timer and the limit read when it started (R111, R129), in ms. -/
structure Timer where
  ms : Nat
  limit : Nat
  deriving DecidableEq, Repr

structure RunningJoint where
  joint : Coord
  planned : Bool
  deriving DecidableEq, Repr

/-- A stand's sequencer (R101). `goTag` names the SPLICE_GO queued for the splice in hand (log entry 2). -/
structure Sequencer where
  state : SeqState
  splice : Option Splice
  required : Option Required
  plan : Option Plan
  deferred : Option Plan
  timer : Option Timer
  runningJoint : Option RunningJoint
  goTag : Option Nat
  deriving DecidableEq, Repr

/-! ### The slitter exchange (R124, R127) -/

inductive StationState
  | idle | setting | ready | engaged | fault
  deriving DecidableEq, Repr

/-- A slitter-scorer station (R124). `setTag` names the SLITTER_SET in hand, `exchangeTag` of an ENGAGED station the
SLITTER_EXCHANGE that its exchange sent waits for (log entry 2). -/
structure SlitterStation where
  state : StationState
  order : Option Nat
  served : Option Nat
  pattern : Option Pattern
  retry : Nat
  timer : Option Timer
  exchangeSent : Option Bool
  setTag : Option Nat
  exchangeTag : Option Nat
  deriving DecidableEq, Repr

inductive DecisionStatus
  | unassigned | skip | servedBy (st : Station)
  deriving DecidableEq, Repr

/-- An entry of the decision list (R127). -/
structure Decision where
  mark : Nat
  status : DecisionStatus
  deriving DecidableEq, Repr

/-! ### The knife counter (R141) -/

inductive Owner
  | unassigned
  | zone (mark : Nat)
  | segment (mark : Nat)
  deriving DecidableEq, Repr

inductive GridPos
  | lead (mark : Nat)
  | zone (mark : Nat)
  | segment (mark : Nat)
  deriving DecidableEq, Repr

/-- The nominal cut grid while it runs: grid position, n, L and spoiled (R141). -/
structure Grid where
  pos : GridPos
  n : Coord
  sheet : Nat
  spoiled : Bool
  deriving DecidableEq, Repr

/-- A closing start the grid has not passed (R141). -/
structure SplitEntry where
  mark : Nat
  start : Coord
  deriving DecidableEq, Repr

/-- A stretch slit under the old pattern (R141, R150). -/
structure LagEntry where
  start : Coord
  stop : Coord
  deriving DecidableEq, Repr

/-- The postponed change (R141): open, or closed with its fixed count. `retired` is the model's own: the record of its
order has been retired, so the order number may name another record by now (R41, R154; log entry 40). -/
structure Postponed where
  order : Nat
  stack : Nat
  closed : Option Nat
  retired : Bool
  deriving DecidableEq, Repr

structure Knife where
  owner : Owner
  grid : Option Grid
  split : List SplitEntry
  lag : List LagEntry
  outstanding : Nat
  postponed : Option Postponed
  deriving DecidableEq, Repr

/-! ### The bond controller (R160, R161) -/

/-- The active grade of a preheater with its copied curve (R160). -/
structure WrapGrade where
  grade : Nat
  curve : Curve
  deriving DecidableEq, Repr

structure Preheater where
  active : Option WrapGrade
  target : Option Nat
  output : Nat
  lastSent : Option Nat
  deriving DecidableEq, Repr

/-- The active grade of a glue unit with its copied values (R161). -/
structure GlueGrade where
  grade : Nat
  values : GlueValues
  deriving DecidableEq, Repr

structure GlueChannel where
  active : Option GlueGrade
  bumpEnd : Option Coord
  gap : Nat
  lastSent : Option Nat
  deriving DecidableEq, Repr

/-! ### The station link (R179 to R182) -/

/-- The units a BOND_SETPOINT names. -/
inductive BondUnit
  | ph (k : Stand)
  | glue (g : GlueUnit)
  deriving DecidableEq, Repr

/-- The seven commands with what they carry (R179). -/
inductive Command
  | spliceGo (stand : Stand) (pos : Pos) (tag : Nat)
  | speedCap (limit : Option Nat)
  | knifeSchedule (change : Coord) (cutLength : Nat) (incoming : Option Nat)
  | slitterSet (station : Station) (pattern : Pattern) (tag : Nat)
  | slitterExchange (engage : Station) (lift : Option Station) (xEx : Option Coord) (tag : Nat)
  | stackChange (order stack cuts : Nat) (final : Bool)
  | bondSetpoint (unit : BondUnit) (value : Nat)
  deriving DecidableEq, Repr

/-- The five command classes in their priority (R179). -/
inductive LinkClass
  | splice | knife | slitter | stacker | bond
  deriving DecidableEq, Repr

/-- The place for sending and the five class queues (R180, R182). -/
structure Link where
  place : Option Command
  splice : List Command
  knife : List Command
  slitter : List Command
  stacker : List Command
  bond : List Command
  deriving DecidableEq, Repr

/-! ### The error and attention unit (R197 to R203) -/

inductive ErrorKind
  | runOut | spliceTimeout | reelMismatch | gradeGap | diameterRange | diameterStale | queueDry | lateChange
  | changeAbandoned | setTimeout | verifyFail | cutDeviation | cutUnexpected | markOverflow | stackerLate
  | reverseMotion | linkOverrun | reportInvalid
  deriving DecidableEq, Repr

/-- The object of a raise (R192, R197). -/
inductive ErrorObject
  | none
  | order (n : Nat)
  | stand (k : Stand)
  | station (st : Station)
  | address (a : Nat)
  deriving DecidableEq, Repr

/-- A held first-error record (R199). -/
structure FirstError where
  kind : ErrorKind
  object : ErrorObject
  odometer : Coord
  unreported : Bool
  overflow : Bool
  deriving DecidableEq, Repr

/-- Statuses, masks and severities (bit n − 1 for kind n), the first-error record and the line state (R198, R203). -/
structure Errors where
  status : BitVec 18
  mask : BitVec 18
  severity : BitVec 18
  first : Option FirstError
  hold : Bool
  deriving DecidableEq, Repr

/-! ### The request port (R191) -/

inductive Status
  | ok | clamped | format | range | noSuch | exists | full | state | inUse | tooLate
  deriving DecidableEq, Repr

/-- The pending response: kind, status and body (R191). -/
structure Response where
  kind : Byte
  status : Status
  body : List Byte
  deriving DecidableEq, Repr

/-! ### The whole machine -/

/-- The levels of the eight filtered inputs, true for high (R184, R185): ENC_CNT, ENC_DIR, CUT and JNT1 to JNT5. -/
structure InputLevels where
  encCnt : Bool
  encDir : Bool
  cut : Bool
  jnt1 : Bool
  jnt2 : Bool
  jnt3 : Bool
  jnt4 : Bool
  jnt5 : Bool
  deriving DecidableEq, Repr

/-- A report frame in reception (R174): the bytes taken in since its start delimiter, and for how many bit times of 1 µs no
byte has come since the last of them. -/
structure Reception where
  bytes : List Byte
  rest : Nat
  deriving DecidableEq, Repr

/-- The state of the part. `receiver` is the report receiver: none while it waits for a start delimiter, otherwise the
frame in reception (R174, R187). -/
structure State where
  odometer : Coord
  reverseRun : Bool
  delta : Nat
  windowMs : Nat
  speed : Nat
  zeroWindows : Nat
  stopped : Bool
  marks : List Mark
  orders : List Order
  runSeq : List Nat
  suspended : List Nat
  grades : List Grade
  planner : Option Provisional
  reels : PerStand (Pair ReelSlot)
  seqs : PerStand Sequencer
  capFlag : Bool
  stations : Pair SlitterStation
  decisions : List Decision
  knife : Knife
  preheaters : PerStand Preheater
  glue : PerGlue GlueChannel
  link : Link
  errors : Errors
  receiver : Option Reception
  inputs : InputLevels
  config : List Int
  port : Response
  serial : Nat
  draws : Nat
  pending : List Instr
  deriving DecidableEq, Repr

/-- No rule of the manual stops the part: every command is taken in every state, and a command the part turns away is
answered by a status or by REPORT_INVALID, which is its meaning. No meaning faults, so there is no reason to name;
nothing raises one, and that is safe. -/
inductive Fault
  deriving DecidableEq, Repr

/-- Why a command has no meaning in this model. -/
inductive Refusal
  /-- Raised by exec's arm of a command not modelled yet; safe, since nothing is claimed of it. No arm raises it. -/
  | notModelled (mnemonic : String)
  deriving DecidableEq, Repr

/-! ### Reset values, by block -/

/-- An EMPTY slot without spent reel (R100). -/
def ReelSlot.reset : ReelSlot := ⟨.empty none, false⟩

/-- An IDLE sequencer (R122). -/
def Sequencer.reset : Sequencer := ⟨.idle, none, none, none, none, none, none, none⟩

/-- An IDLE station (R139). -/
def SlitterStation.reset : SlitterStation := ⟨.idle, none, none, none, 0, none, none, none, none⟩

/-- The knife counter with no owner and no grid (R158). -/
def Knife.reset : Knife := ⟨.unassigned, none, [], [], 0, none⟩

/-- A preheater without active grade (R171). -/
def Preheater.reset : Preheater := ⟨none, none, 0, none⟩

/-- A glue unit without active grade (R171). -/
def GlueChannel.reset : GlueChannel := ⟨none, none, 0, none⟩

/-- The empty link (R187). -/
def Link.reset : Link := ⟨none, [], [], [], [], []⟩

/-- All statuses clear, all kinds unmasked, FATAL for kinds 1, 2, 9, 14 and 17, line state RUN (R197, R208). -/
def Errors.reset : Errors := ⟨0#18, 0#18, 0x12103#18, none, false⟩

/-- The NULL response with status OK (R209). -/
def Response.reset : Response := ⟨0x00#8, .ok, []⟩

/-- The levels of inputs at rest: ENC_CNT low, the pulse inputs high; a DESIGN CHOICE (log entry 37), since R187 lets each
filter take the level its input holds. -/
def idleInputs : InputLevels := ⟨false, false, true, true, true, true, true, true⟩

/-- The machine right after device reset (R22, R45, R57, R81, R100, R122, R139, R158, R171, R187, R193, R208, R209). The
last three fields are the model's own: the next serial number, the count of free values drawn, and the command queue. -/
def State.reset : State where
  odometer := 0#32
  reverseRun := false
  delta := 0
  windowMs := 0
  speed := 0
  zeroWindows := 20
  stopped := true
  marks := []
  orders := []
  runSeq := []
  suspended := []
  grades := []
  planner := none
  reels := ⟨⟨.reset, .reset⟩, ⟨.reset, .reset⟩, ⟨.reset, .reset⟩, ⟨.reset, .reset⟩, ⟨.reset, .reset⟩⟩
  seqs := ⟨.reset, .reset, .reset, .reset, .reset⟩
  capFlag := false
  stations := ⟨.reset, .reset⟩
  decisions := []
  knife := .reset
  preheaters := ⟨.reset, .reset, .reset, .reset, .reset⟩
  glue := ⟨.reset, .reset, .reset⟩
  link := .reset
  receiver := none
  inputs := idleInputs
  errors := .reset
  config := Config.itemRows.map (·.dflt)
  port := .reset
  serial := 0
  draws := 0
  pending := []

end Sys2Proof.Machine
end

