-- ==== Sys2Proof/Machine/Settings.lean ====
section
/-! DEFINITION. The configuration store read by item (R193) and the distances formed from it (R7, R8). -/

namespace Sys2Proof.Machine

open Sys2Proof

/-- The value of configuration item n, 1..40 (R193). -/
def item (c : List Int) (n : Nat) : Int := c.getD (n - 1) 0

/-- A non-negative configuration item as a natural number. -/
def itemNat (c : List Int) (n : Nat) : Nat := (item c n).toNat

def pathOf (c : List Int) (k : Stand) : Nat := itemNat c (1 + k.idx)
def takeUpOf (c : List Int) (k : Stand) : Nat := itemNat c (6 + k.idx)
def phOffset (c : List Int) (k : Stand) : Int := item c (11 + k.idx)
def glueOffset (c : List Int) (g : GlueUnit) : Int := item c (16 + g.idx)
def ssOffset (c : List Int) : Int := item c 19
def knOffset (c : List Int) : Int := item c 20
def freezeDistance (c : List Int) : Nat := itemNat c 21
def reserveOf (c : List Int) (k : Stand) : Nat := itemNat c (22 + k.idx)
def jointAim (c : List Int) : Nat := itemNat c 27
def jointCullBefore (c : List Int) : Nat := itemNat c 28
def jointCullAfter (c : List Int) : Nat := itemNat c 29
def gMin (c : List Int) : Nat := itemNat c 30
def gMax (c : List Int) : Nat := itemNat c 31
def plungeLead (c : List Int) : Nat := itemNat c 32
def slitterTolerance (c : List Int) : Nat := itemNat c 33
def cutTolerance (c : List Int) : Nat := itemNat c 34
def spliceSpeedLimit (c : List Int) : Nat := itemNat c 35
def spliceTimeLimit (c : List Int) : Nat := itemNat c 36
def setTimeLimit (c : List Int) : Nat := itemNat c 37
def staleLimit (c : List Int) : Nat := itemNat c 38
def bumpLength (c : List Int) : Nat := itemNat c 39
def wrapSlew (c : List Int) : Nat := itemNat c 40

/-- R8, R193: the least freeze distance, the greater of max(path_k) + 20,000 and o_KN + 20,000. -/
def minFreeze (c : List Int) : Int :=
  max (([1, 2, 3, 4, 5].map (item c)).foldl max 0 + 20000) (knOffset c + 20000)

/-- R8: the ordering of the station offset table. -/
def offsetsOrdered (c : List Int) : Bool :=
  Stand.all.all (fun k => decide (-(pathOf c k : Int) ≤ phOffset c k))
    && decide (phOffset c .l1 < glueOffset c .g1) && decide (phOffset c .m1 < glueOffset c .g1)
    && decide (phOffset c .l2 < glueOffset c .g2) && decide (phOffset c .m2 < glueOffset c .g2)
    && decide (phOffset c .l3 < glueOffset c .g3) && decide (glueOffset c .g1 < glueOffset c .g3)
    && decide (glueOffset c .g2 < glueOffset c .g3)
    && decide (ssOffset c < knOffset c)

/-- Every item holds its range of R193, and F is at or above its minimum. -/
def configInRange (c : List Int) : Bool :=
  decide (c.length = 40)
    && (c.zip Config.itemRows).all (fun p => decide (p.2.lo ≤ p.1) && decide (p.1 ≤ p.2.hi))
    && decide (minFreeze c ≤ item c 21)

/-- A value brought into the range of a row: below it the lowest value, above it the highest. -/
def clampTo (r : Config.ItemRow) (v : Int) : Int := max r.lo (min r.hi v)

/-- R7: the point of the board under the knife. -/
def knifeCoord (s : State) : Coord := shiftBy s.odometer (-(knOffset s.config))

/-- R150: the point of the board at the slitter-scorer. -/
def slitterCoord (s : State) : Coord := shiftBy s.odometer (-(ssOffset s.config))

end Sys2Proof.Machine
end

