-- ==== Sys2Proof/Machine/Ops.lean ====
section
/-! DEFINITION. The named operations over the records of State: access by stand, unit and position, raising an error
(R198), queuing a command (R180), drawing a free value, the mark table (R9 to R13), the order and grade tables. -/

namespace Sys2Proof.Machine

open Sys2Proof

/-! ### Access by stand, unit, position -/

def PerStand.get {α : Type} (t : PerStand α) : Stand → α
  | .l1 => t.l1 | .m1 => t.m1 | .l2 => t.l2 | .m2 => t.m2 | .l3 => t.l3

def PerStand.set {α : Type} (t : PerStand α) (k : Stand) (x : α) : PerStand α :=
  match k with
  | .l1 => { t with l1 := x } | .m1 => { t with m1 := x } | .l2 => { t with l2 := x }
  | .m2 => { t with m2 := x } | .l3 => { t with l3 := x }

def PerGlue.get {α : Type} (t : PerGlue α) : GlueUnit → α
  | .g1 => t.g1 | .g2 => t.g2 | .g3 => t.g3

def PerGlue.set {α : Type} (t : PerGlue α) (g : GlueUnit) (x : α) : PerGlue α :=
  match g with
  | .g1 => { t with g1 := x } | .g2 => { t with g2 := x } | .g3 => { t with g3 := x }

def Pair.at {α : Type} (t : Pair α) : Pos → α
  | .a => t.a | .b => t.b

def Pair.put {α : Type} (t : Pair α) (p : Pos) (x : α) : Pair α :=
  match p with
  | .a => { t with a := x } | .b => { t with b := x }

def Pair.get {α : Type} (t : Pair α) : Station → α
  | .a => t.a | .b => t.b

def Pair.set {α : Type} (t : Pair α) (st : Station) (x : α) : Pair α :=
  match st with
  | .a => { t with a := x } | .b => { t with b := x }

def State.seq (s : State) (k : Stand) : Sequencer := s.seqs.get k
def State.setSeq (s : State) (k : Stand) (q : Sequencer) : State := { s with seqs := s.seqs.set k q }

def State.slot (s : State) (k : Stand) (p : Pos) : ReelSlot := (s.reels.get k).at p
def State.setSlot (s : State) (k : Stand) (p : Pos) (x : ReelSlot) : State :=
  { s with reels := s.reels.set k ((s.reels.get k).put p x) }

def State.station (s : State) (st : Station) : SlitterStation := s.stations.get st
def State.setStation (s : State) (st : Station) (x : SlitterStation) : State :=
  { s with stations := s.stations.set st x }

def State.setPreheater (s : State) (k : Stand) (x : Preheater) : State :=
  { s with preheaters := s.preheaters.set k x }

def State.setGlue (s : State) (g : GlueUnit) (x : GlueChannel) : State := { s with glue := s.glue.set g x }

/-- The next serial number of the model, for a mark or a queued command (log entry 2). -/
def State.bumpSerial (s : State) : State := { s with serial := s.serial + 1 }

/-! ### Free values -/

/-- Count one free value drawn. -/
def State.drawn (s : State) : State := { s with draws := s.draws + 1 }

/-- The place, among n events still to be taken, of the one taken next: a free value (log entry 5). -/
def State.choice (s : State) (n : Nat) : Nat := Config.freeChoice s.draws % n

/-- Take each of the events in an order that the manual leaves open: while more than one remains, a free value names the
next (R1, R3, R14, R198). The fuel is the number of events. -/
def runEvents {ε : Type} (act : ε → State → State) : Nat → List ε → State → State
  | 0, _, s => s
  | _ + 1, [], s => s
  | _ + 1, [e], s => act e s
  | n + 1, e :: f :: rest, s =>
    let i := s.choice (rest.length + 2)
    let es := e :: f :: rest
    runEvents act n (es.eraseIdx i) (act (es.getD i e) s.drawn)

/-- All of a list of separate events, in a free order. -/
def takeEvents {ε : Type} (act : ε → State → State) (es : List ε) (s : State) : State :=
  runEvents act es.length es s

/-! ### Errors (R197, R198) -/

/-- The number of an error kind, 1..18 (R197). -/
def ErrorKind.number : ErrorKind → Nat
  | .runOut => 1 | .spliceTimeout => 2 | .reelMismatch => 3 | .gradeGap => 4 | .diameterRange => 5
  | .diameterStale => 6 | .queueDry => 7 | .lateChange => 8 | .changeAbandoned => 9 | .setTimeout => 10
  | .verifyFail => 11 | .cutDeviation => 12 | .cutUnexpected => 13 | .markOverflow => 14 | .stackerLate => 15
  | .reverseMotion => 16 | .linkOverrun => 17 | .reportInvalid => 18

/-- The bit of a kind in a status set: bit n − 1 for kind n (R192). -/
def ErrorKind.bit (k : ErrorKind) : BitVec 18 := 1#18 <<< (k.number - 1)

/-- Whether a set holds a kind. -/
def ErrorKind.isIn (k : ErrorKind) (set : BitVec 18) : Bool := set.getLsbD (k.number - 1)

/-- R199: the first-error record takes the raise of an unmasked kind. -/
def FirstError.take (f : Option FirstError) (k : ErrorKind) (o : ErrorObject) (odo : Coord) : FirstError :=
  match f with
  | none => ⟨k, o, odo, true, false⟩
  | some r => { r with overflow := true }

/-- R198: what a raise does in the error and attention unit. -/
def Errors.raised (e : Errors) (k : ErrorKind) (o : ErrorObject) (odo : Coord) : Errors :=
  if k.isIn e.mask then { e with status := e.status ||| k.bit }
  else
    { e with
      status := e.status ||| k.bit
      first := some (FirstError.take e.first k o odo)
      hold := e.hold || k.isIn e.severity }

/-- A block raises an error, with the odometer at that moment (R198). -/
def State.raise (s : State) (k : ErrorKind) (o : ErrorObject) : State :=
  { s with errors := s.errors.raised k o s.odometer }

/-! ### The class queues (R179 to R181) -/

/-- The class of a command (R179). -/
def Command.linkClass : Command → LinkClass
  | .spliceGo _ _ _ | .speedCap _ => .splice
  | .knifeSchedule _ _ _ => .knife
  | .slitterSet _ _ _ | .slitterExchange _ _ _ _ => .slitter
  | .stackChange _ _ _ _ => .stacker
  | .bondSetpoint _ _ => .bond

/-- The link address a command goes to (R175, R179). -/
def Command.address : Command → Nat
  | .spliceGo k _ _ => 1 + k.idx
  | .speedCap _ => 10
  | .knifeSchedule _ _ _ => 8
  | .slitterSet .a _ _ => 6
  | .slitterSet .b _ _ => 7
  | .slitterExchange _ _ _ _ => 12
  | .stackChange _ _ _ _ => 9
  | .bondSetpoint _ _ => 11

/-- R180: the new command replaces the queued one. -/
def Command.replaces : Command → Command → Bool
  | .bondSetpoint u _, .bondSetpoint v _ => u == v
  | .speedCap _, .speedCap _ => true
  | _, _ => false

def Link.queue (l : Link) : LinkClass → List Command
  | .splice => l.splice | .knife => l.knife | .slitter => l.slitter | .stacker => l.stacker | .bond => l.bond

def Link.setQueue (l : Link) (c : LinkClass) (q : List Command) : Link :=
  match c with
  | .splice => { l with splice := q } | .knife => { l with knife := q } | .slitter => { l with slitter := q }
  | .stacker => { l with stacker := q } | .bond => { l with bond := q }

def State.setQueue (s : State) (c : LinkClass) (q : List Command) : State :=
  { s with link := s.link.setQueue c q }

/-- R180: a producer queues a command. It takes the place of one it replaces; otherwise it joins the tail of its class,
or is dropped with LINK_OVERRUN where the class already holds 8. -/
def State.enqueue (s : State) (c : Command) : State :=
  let q := s.link.queue c.linkClass
  if q.any c.replaces then s.setQueue c.linkClass (q.map fun d => if c.replaces d then c else d)
  else if q.length < Config.classDepth then s.setQueue c.linkClass (q ++ [c])
  else s.raise .linkOverrun (.address c.address)

/-- R181: the splice controller withdraws the queued SPLICE_GO of stand k. R181 speaks of one; where two are queued, one
left by a run-out (R117) and one of a new splice, the model withdraws both (DESIGN CHOICE, log entry 47). -/
def State.withdrawGo (s : State) (k : Stand) : State :=
  s.setQueue .splice (s.link.splice.filter fun c =>
    match c with
    | .spliceGo j _ _ => j != k
    | _ => true)

/-- R181: the slitter exchange withdraws a queued SLITTER_SET of a station. -/
def State.withdrawSet (s : State) (st : Station) : State :=
  s.setQueue .slitter (s.link.slitter.filter fun c =>
    match c with
    | .slitterSet t _ _ => t != st
    | _ => true)

/-- R160, R161: a BOND_SETPOINT of the unit waits in the BOND class queue. -/
def State.setpointQueued (s : State) (u : BondUnit) : Bool :=
  s.link.bond.any fun c =>
    match c with
    | .bondSetpoint v _ => v == u
    | _ => false

/-! ### The mark table (R9, R12, R13) -/

def Mark.uid : Mark → Nat
  | .change m => m.uid | .joint m => m.uid | .gap m => m.uid | .host m => m.uid

/-- R9: the start of a mark. -/
def Mark.start : Mark → Coord
  | .change m => m.p
  | .joint m => shiftBy m.joint (-(m.cullBefore : Int))
  | .gap m => m.start
  | .host m => m.start

/-- The end of a change zone, none while it is open. -/
def ChangeMark.stop (m : ChangeMark) : Option Coord := m.length.map (plusMm m.p)

/-- R9: the end of a mark; none for an open zone. -/
def Mark.stop : Mark → Option Coord
  | .change m => m.stop
  | .joint m => some (plusMm m.joint m.cullAfter)
  | .gap m => some (plusMm m.start m.length)
  | .host m => some (plusMm m.start m.length)

/-- R9: marks with equal starts stand in the order CHANGE, GAP, JOINT, HOST. -/
def Mark.rank : Mark → Nat
  | .change _ => 0 | .gap _ => 1 | .joint _ => 2 | .host _ => 3

/-- R9: mark m stands strictly before mark x in the table, by the signed distance of its start from the odometer. -/
def Mark.precedes (odo : Coord) (m x : Mark) : Bool :=
  let dm := sdist odo m.start
  let dx := sdist odo x.start
  decide (dm < dx) || (decide (dm = dx) && decide (m.rank < x.rank))

/-- R9, R12: insert a mark at its place; after the marks of its kind with an equal start. -/
def insertMark (odo : Coord) (m : Mark) : List Mark → List Mark
  | [] => [m]
  | x :: xs => if m.precedes odo x then m :: x :: xs else x :: insertMark odo m xs

/-- R9: the free slots of the mark table. -/
def State.freeMarks (s : State) : Nat := Config.markSlots - s.marks.length

/-- R12: a granted mark takes its place in the table. -/
def State.placeMark (s : State) (m : Mark) : State := { s with marks := insertMark s.odometer m s.marks }

/-- A mark leaves the table. -/
def State.dropMark (s : State) (uid : Nat) : State := { s with marks := s.marks.filter fun m => m.uid != uid }

def Mark.asChange : Mark → Option ChangeMark
  | .change m => some m
  | _ => none

/-- The CHANGE marks in table order. -/
def State.changes (s : State) : List ChangeMark := s.marks.filterMap Mark.asChange

def State.findChange (s : State) (uid : Nat) : Option ChangeMark := s.changes.find? fun m => m.uid == uid

/-- The CHANGE mark after the one named, in table order. -/
def nextIn (uid : Nat) : List ChangeMark → Option ChangeMark
  | m :: n :: rest => if m.uid == uid then some n else nextIn uid (n :: rest)
  | _ => none

def State.nextChange (s : State) (uid : Nat) : Option ChangeMark := nextIn uid s.changes

/-- A field of a CHANGE mark other than its start changes; the mark keeps its place (R13). -/
def State.updateChange (s : State) (uid : Nat) (f : ChangeMark → ChangeMark) : State :=
  { s with marks := s.marks.map fun m =>
      match m with
      | .change c => if c.uid == uid then .change (f c) else m
      | m => m }

/-- The mark is the CHANGE mark named. -/
def Mark.isChangeOf (uid : Nat) : Mark → Bool
  | .change c => c.uid == uid
  | _ => false

/-- A CHANGE mark whose start has changed takes the place its new P gives it, after its equals (R13). -/
def State.replaceChange (s : State) (c : ChangeMark) : State :=
  ({ s with marks := s.marks.eraseP (Mark.isChangeOf c.uid) } : State).placeMark (.change c)

/-- The cull zone of a mark; a CHANGE mark is none (R11, R60). -/
def Mark.cullZone : Mark → Option (Coord × Coord)
  | .change _ => none
  | m => m.stop.map fun e => (m.start, e)

/-- The cull zones of the live JOINT, GAP and HOST marks. -/
def State.cullZones (s : State) : List (Coord × Coord) := s.marks.filterMap Mark.cullZone

/-- R66, R70: the CHANGE mark of the open run-out zone. -/
def State.openRunOut (s : State) : Option ChangeMark := s.changes.find? fun m => m.state == .runOut

/-! ### Orders and grades -/

def State.findOrder (s : State) (n : Nat) : Option Order := s.orders.find? fun o => o.fields.number == n

def State.updateOrder (s : State) (n : Nat) (f : Order → Order) : State :=
  { s with orders := s.orders.map fun o => if o.fields.number == n then f o else o }

def State.findGrade (s : State) (n : Nat) : Option Grade := s.grades.find? fun g => g.fields.number == n

def State.updateGrade (s : State) (n : Nat) (f : Grade → Grade) : State :=
  { s with grades := s.grades.map fun g => if g.fields.number == n then f g else g }

/-- R49: the reference count of an entry rises by 1. -/
def State.gradeRefUp (s : State) (n : Nat) : State := s.updateGrade n fun g => { g with refs := g.refs + 1 }

/-- R49: the reference count of an entry falls by 1. -/
def State.gradeRefDown (s : State) (n : Nat) : State := s.updateGrade n fun g => { g with refs := g.refs - 1 }

/-- R49: the active count of an entry rises by 1. -/
def State.gradeActiveUp (s : State) (n : Nat) : State := s.updateGrade n fun g => { g with active := g.active + 1 }

/-- R49: the active count of an entry falls by 1. -/
def State.gradeActiveDown (s : State) (n : Nat) : State := s.updateGrade n fun g => { g with active := g.active - 1 }

/-- The lowest slot number below n that no entry of the list holds; n where none is free. -/
def lowestFree (used : List Nat) (n : Nat) : Nat := ((List.range n).find? fun k => !used.contains k).getD n

/-- R26: the outs of a pattern, the slit count less one. -/
def Pattern.outs (p : Pattern) : Nat := p.slits.length - 1

/-- R28: good sheets, computed whenever they are read. -/
def Order.goodSheets (o : Order) : Nat := o.goodCuts * o.fields.pattern.outs

/-- R30: an order on the machine or elsewhere enters DONE, with attention; its grade's active count falls where it was
RUNNING or SUSPENDED (R49). -/
def State.finishOrder (s : State) (n : Nat) (out : OrderOutcome) : State :=
  match s.findOrder n with
  | none => s
  | some o =>
    let t := s.updateOrder n fun r => { r with state := .done, outcome := some out, attention := true, stacked := false }
    if o.state = .running ∨ o.state = .suspended then t.gradeActiveDown o.fields.grade else t

/-- R32: link an order at the head of the run sequence; it becomes QUEUED. -/
def State.linkHead (s : State) (n : Nat) : State :=
  ({ s with runSeq := n :: s.runSeq }).updateOrder n fun o => { o with state := .queued }

/-- R32: link an order at the tail. -/
def State.linkTail (s : State) (n : Nat) : State :=
  ({ s with runSeq := s.runSeq ++ [n] }).updateOrder n fun o => { o with state := .queued }

/-- Put n behind the entry a of a list. -/
def insertAfter (a n : Nat) : List Nat → List Nat
  | [] => []
  | x :: xs => if x == a then x :: n :: xs else x :: insertAfter a n xs

/-- R32: link an order after a QUEUED order. -/
def State.linkAfter (s : State) (a n : Nat) : State :=
  ({ s with runSeq := insertAfter a n s.runSeq }).updateOrder n fun o => { o with state := .queued }

/-- R32: take an order out of the run sequence; the event that unlinks it gives its next state. -/
def State.unlink (s : State) (n : Nat) : State := { s with runSeq := s.runSeq.filter fun m => m != n }

/-- R33: push an order onto the suspension stack, which holds at most 3 entries. -/
def State.push (s : State) (n : Nat) : State :=
  if s.suspended.length < Config.stackDepth then
    ({ s with suspended := n :: s.suspended }).updateOrder n fun o => { o with stacked := true }
  else s

/-- R33: remove an order's entry from its depth, clearing its stacked field. -/
def State.unstack (s : State) (n : Nat) : State :=
  ({ s with suspended := s.suspended.filter fun m => m != n }).updateOrder n fun o => { o with stacked := false }

/-- The next field of a QUEUED order (R28, R31): the order after it in the run sequence. -/
def followerIn (n : Nat) : List Nat → Option Nat
  | x :: y :: rest => if x == n then some y else followerIn n (y :: rest)
  | _ => none

/-! ### The port -/

/-- R189, R191: a response becomes the pending response. -/
def State.respond (s : State) (kind : Byte) (st : Status) (body : List Byte) : State :=
  { s with port := ⟨kind, st, body⟩ }

end Sys2Proof.Machine
end

