-- ==== Sys2Proof/Machine/SpliceOps.lean ====
section
/-! DEFINITION. Shared operations of the reel monitor and the splice controller: roles (R83), the required grade (R54),
the reel check (R108), the go (R109), the speed cap (R110), arming (R105, R107) and the next state of a stand (R115). -/

namespace Sys2Proof.Machine

open Sys2Proof

/-! ### Roles and paper of a stand's slots -/

/-- R83: RUNNING, UNIDENTIFIED and EXHAUSTED make up the running role. -/
def Reel.inRole : Reel → Bool
  | .running _ _ _ | .unidentified _ _ | .exhausted _ => true
  | _ => false

/-- R83: the position in the running role of a stand. -/
def State.runningPos (s : State) (k : Stand) : Option Pos :=
  if (s.slot k .a).reel.inRole then some .a else if (s.slot k .b).reel.inRole then some .b else none

/-- R83: the ready slot, the other one of a stand that has a running role. -/
def State.readyPos (s : State) (k : Stand) : Option Pos := (s.runningPos k).map Pos.other

/-- The paper grade code of the running web: of a RUNNING or EXHAUSTED slot (R55, R97). -/
def State.runningCode (s : State) (k : Stand) : Option Nat :=
  match s.runningPos k with
  | none => none
  | some p =>
    match (s.slot k p).reel with
    | .running r _ _ => some r.ann.code
    | .exhausted r => some r.ann.code
    | _ => none

/-- R96: the running reel is low: RUNNING and at or below the splice reserve. -/
def State.low (s : State) (k : Stand) : Bool :=
  match s.runningPos k with
  | none => false
  | some p =>
    match (s.slot k p).reel with
    | .running r _ _ => r.remaining ≤ reserveOf s.config k
    | _ => false

/-! ### The grade the board needs (R54) -/

/-- R54: the owner that one CHANGE mark gives the coordinate x: none where the mark says nothing of it, some none where
it says that x has no owner. -/
def ChangeMark.ownerOf (m : ChangeMark) (x : Coord) : Option (Option Nat) :=
  match m.outgoing with
  | some o => if inStretch x o.start m.p && o.start != m.p then some (some o.order) else zonePart
  | none => zonePart
where
  zonePart : Option (Option Nat) :=
    match m.length with
    | some g =>
      if inStretch x m.p (plusMm m.p g) && g != 0 then m.incoming.map some else none
    | none =>
      if atOrAfter x m.p then
        if m.state = .runOut then some (m.outgoing.map (·.order)) else some none
      else none

/-- R54: the order that owns the board coordinate x. -/
def State.ownerAt (s : State) (x : Coord) : Option Nat :=
  ((s.changes.filterMap fun m => m.ownerOf x).head?).join

/-- R54: the required grade on web k at x: the owner's paper code, none where any code is accepted. The owner's number is
looked up in the order table as it stands: where an order was retired and its number entered again while a run-out mark
still names it, the new record's grade is required (DESIGN CHOICE, log entry 52). -/
def State.requiredGrade (s : State) (k : Stand) (x : Coord) : Option Nat :=
  match s.ownerAt x with
  | none => none
  | some n =>
    match s.findOrder n with
    | none => none
    | some o => (s.findGrade o.fields.grade).map fun g => g.fields.codes.get k

/-- The grade the board of stand k needs now, at odometer + path_k (R54, R108). -/
def State.boardGrade (s : State) (k : Stand) : Option Nat :=
  s.requiredGrade k (plusMm s.odometer (pathOf s.config k))

/-! ### The speed cap (R110) -/

def SeqState.waitsOrSplices : SeqState → Bool
  | .waitGo | .splicing => true
  | _ => false

/-- Some stand is in one of the states that the predicate names. -/
def State.someStand (s : State) (f : SeqState → Bool) : Bool := Stand.all.any fun k => f (s.seq k).state

/-- R110: a stand has left WAIT_GO or SPLICING; where no stand remains in either and the flag is set, the cap is
released. -/
def State.capRelease (s : State) : State :=
  if s.capFlag && !s.someStand SeqState.waitsOrSplices then
    ({ s with capFlag := false }).enqueue (.speedCap none)
  else s

/-- R110: a stand waits for the go above the splice speed limit; where the flag is clear, a cap is asked for. -/
def State.capRequest (s : State) : State :=
  if !s.capFlag && decide (spliceSpeedLimit s.config < s.speed) then
    ({ s with capFlag := true }).enqueue (.speedCap (some (spliceSpeedLimit s.config)))
  else s

/-- A stand that stood in state q has left it: the cap release where q was WAIT_GO or SPLICING (R110). -/
def State.released (s : State) (q : SeqState) : State := if q.waitsOrSplices then s.capRelease else s

/-! ### The go and the reel check (R108, R109, R111) -/

/-- R109: speed and line state allow the go. -/
def State.goAllowed (s : State) : Bool := decide (s.speed ≤ spliceSpeedLimit s.config) && !s.errors.hold

/-- R111: the stand enters SPLICING and its SPLICE_GO is queued for the ready position. -/
def State.enterSplicing (s : State) (k : Stand) (p : Pos) : State :=
  let t := s.setSeq k { s.seq k with
    state := .splicing, required := none, timer := none, goTag := some s.serial }
  t.bumpSerial.enqueue (.spliceGo k p s.serial)

/-- R108, R110: the stand enters WAIT_GO. -/
def State.enterWaitGo (s : State) (k : Stand) (r : Required) : State :=
  (s.setSeq k { s.seq k with state := .waitGo, required := some r }).capRequest

/-- R108: the codes acceptable for the splice in hand. -/
def State.acceptable (s : State) (k : Stand) (kind : SpliceKind) (code : Nat) : Bool :=
  let planned := match (s.seq k).plan with
    | some p => p.code == code
    | none => false
  match kind with
  | .grade => planned
  | .lowReel | .manual =>
    planned || (match s.boardGrade k with
      | none => true
      | some g => g == code)

/-- R108: the reel check passes, giving the position of the ready slot. -/
def State.checkPasses (s : State) (k : Stand) (kind : SpliceKind) : Option Pos :=
  match s.readyPos k with
  | none => none
  | some p =>
    match (s.slot k p).reel with
    | .verified r => if s.acceptable k kind r.ann.code then some p else none
    | _ => none

/-- R108: the code the board needs, written by every check. -/
def State.neededGrade (s : State) (k : Stand) (kind : SpliceKind) : Required :=
  match kind, (s.seq k).plan with
  | .grade, some p => .code p.code
  | _, _ =>
    match s.boardGrade k with
    | none => .any
    | some g => .code g

/-- R108: the reel check of a stand in ARMED (due), WAIT_REEL or WAIT_GO, and the state it leads to. A check that passes
in WAIT_GO leaves the stand there: the go itself is tested at window closes and line changes (R109, log entry 15). -/
def State.checkReel (s : State) (k : Stand) : State :=
  let q := s.seq k
  match q.splice with
  | none => s
  | some sp =>
    let need := s.neededGrade k sp.kind
    match q.state, s.checkPasses k sp.kind with
    | .armed, some p | .waitReel, some p =>
      if s.goAllowed then s.enterSplicing k p else s.enterWaitGo k need
    | .armed, none | .waitReel, none => s.setSeq k { q with state := .waitReel, required := some need }
    | .waitGo, some _ => s.setSeq k { q with required := some need }
    | .waitGo, none => (s.setSeq k { q with state := .waitReel, required := some need }).capRelease
    | _, _ => s

def SeqState.waitsForReel : SeqState → Bool
  | .waitReel | .waitGo => true
  | _ => false

/-- R108: a stand in WAIT_REEL or WAIT_GO repeats the check. -/
def State.recheck (k : Stand) (s : State) : State :=
  if (s.seq k).state.waitsForReel then s.checkReel k else s

/-- R108: an event that can change the owner of board or its code: every waiting stand repeats its check, each on its
own. -/
def State.recheckAll (s : State) : State :=
  takeEvents State.recheck (Stand.all.filter fun k => (s.seq k).state.waitsForReel) s

/-- R109: a stand in WAIT_GO tests for the go, at a window close or a change of line state. -/
def State.goTest (k : Stand) (s : State) : State :=
  if (s.seq k).state = .waitGo then
    if s.goAllowed then
      match s.readyPos k with
      | some p => s.enterSplicing k p
      | none => s
    else s
  else s

/-- R109, R203: the line state has changed; every stand in WAIT_GO tests its go, each on its own. -/
def State.goTestAll (s : State) : State :=
  takeEvents State.goTest (Stand.all.filter fun k => (s.seq k).state = .waitGo) s

/-! ### Arming (R105, R107) -/

/-- R107: an ARMED stand whose due odometer has been reached makes the reel check. -/
def State.dueCheck (k : Stand) (s : State) : State :=
  match (s.seq k).state, (s.seq k).splice with
  | .armed, some sp => if reached s.odometer sp.due then s.checkReel k else s
  | _, _ => s

/-- R105, R106: a splice due now takes the stand: armed in IDLE, or in place of the splice in hand. -/
def State.armNow (s : State) (k : Stand) (kind : SpliceKind) : State :=
  let q := s.seq k
  match q.state with
  | .idle => (s.setSeq k { q with state := .armed, splice := some ⟨kind, s.odometer⟩ }).checkReel k
  | .armed | .waitReel | .waitGo => (s.setSeq k { q with splice := some ⟨kind, s.odometer⟩ }).checkReel k
  | .splicing | .fault => s

/-- R105: the low-reel condition is handed to the splice controller. -/
def State.lowReel (k : Stand) (s : State) : State :=
  let q := s.seq k
  match q.state, q.splice with
  | .idle, _ => s.armNow k .lowReel
  | .armed, some ⟨.grade, _⟩ | .waitReel, some ⟨.grade, _⟩ | .waitGo, some ⟨.grade, _⟩ => s.armNow k .lowReel
  | _, _ => s

/-- R105: arm LOW_REEL where the running reel is low. -/
def State.lowReelIfLow (k : Stand) (s : State) : State := if s.low k then s.lowReel k else s

/-- R115, steps 2 and 3: the kind is cleared; a low running reel arms LOW_REEL at once, otherwise the stand is IDLE. The
cap release follows the leaving of WAIT_GO or SPLICING, before the stand is armed again (log entry 22). -/
def State.settleIdle (s : State) (k : Stand) : State :=
  let q := s.seq k
  ((s.setSeq k { q with state := .idle, splice := none, required := none, timer := none, goTag := none }).released
    q.state).lowReelIfLow k

/-- R115: the next state of a stand after a joint, at CLEAR STAND: ARMED for a pending plan, pre-empted by a low reel;
LOW_REEL for a low reel without a plan; otherwise IDLE. -/
def State.nextState (s : State) (k : Stand) : State :=
  let q := s.seq k
  match q.plan with
  | none => s.settleIdle k
  | some p =>
    let t := (s.setSeq k { q with
      state := .armed, splice := some ⟨.grade, p.due⟩, required := none, timer := none, goTag := none }).released q.state
    if t.low k then t.lowReel k else t.dueCheck k

/-! ### The count of the paper (R93) -/

/-- R93: the paper length in mm of a roll of diameter D on core d at caliper c, before saturation. -/
def paperLength (dia core caliper : Nat) : Nat :=
  if dia ≤ core then 0 else (dia * dia - core * core) * 32170 / (4096 * caliper)

/-- The largest remaining length a slot holds (R82). -/
def maxRemaining : Nat := 16777215

/-- R93: the remaining length is recomputed from the diameter: saturating with LIMITED, which stays once set, and the
residue set to 0. -/
def Paper.recomputed (r : Paper) : Paper :=
  let l := paperLength r.diameter r.ann.core r.ann.caliper
  { r with
    remaining := min l maxRemaining
    residue := 0
    limited := r.limited || decide (maxRemaining < l) }

/-- R96: at a change of a RUNNING slot, the low-reel condition is handed over where the reel was not low before. -/
def State.lowIfNew (s : State) (k : Stand) (wasLow : Bool) : State :=
  if wasLow then s else s.lowReelIfLow k

end Sys2Proof.Machine
end

