-- ==== Sys2Proof/Machine/PlannerOps.lean ====
section
/-! DEFINITION. Shared operations of the span planner and of the placing of culls: clean and uncut cuts (R60), the
provisional end (R72, R73), curtails (R78, R80), gaps (R114), grade plans (R103, R104). -/

namespace Sys2Proof.Machine

open Sys2Proof

/-! ### Clean and uncut cuts (R60) -/

/-- R60: no cull zone overlaps the cut [a, b). -/
def cleanCut (zones : List (Coord × Coord)) (a b : Coord) : Bool := zones.all fun z => !overlaps a b z.1 z.2

/-- The end of the n-th clean cut at or after c, walking cuts of length len. -/
def cleanEndFrom (zones : List (Coord × Coord)) (len : Nat) : Nat → Nat → Coord → Coord
  | 0, _, c => c
  | _ + 1, 0, c => c
  | fuel + 1, n + 1, c =>
    if cleanCut zones c (plusMm c len) then cleanEndFrom zones len fuel n (plusMm c len)
    else cleanEndFrom zones len fuel (n + 1) (plusMm c len)

/-- Cuts that cull zones can touch at most: for each zone its length in cuts and two more. -/
def dirtyBound (zones : List (Coord × Coord)) (len : Nat) : Nat :=
  (zones.map fun z => (z.2 - z.1).toNat / len + 2).sum

/-- R64, R72: the smallest c + k × len such that [c, c + k × len) holds n clean cuts. -/
def cleanEnd (zones : List (Coord × Coord)) (len n : Nat) (c : Coord) : Coord :=
  cleanEndFrom zones len (n + dirtyBound zones len) n c

/-- The clean cuts among k cuts of length len from c that also pass the test f on their ends. -/
def countCuts (zones : List (Coord × Coord)) (len : Nat) (f : Coord → Bool) : Nat → Coord → Nat
  | 0, _ => 0
  | k + 1, c =>
    (if cleanCut zones c (plusMm c len) && f (plusMm c len) then 1 else 0)
      + countCuts zones len f k (plusMm c len)

/-- The cuts of length len in [a, b). -/
def cutsIn (a b : Coord) (len : Nat) : Nat := (sdist a b).toNat / len

/-- R60: the cut ending at e is uncut: the knife counter has not yet judged its sheet. All cuts are uncut while the grid
does not run; otherwise those ending at the next nominal cut or after it (log entry 27). -/
def State.uncut (s : State) (e : Coord) : Bool :=
  match s.knife.grid with
  | none => true
  | some g => atOrAfter e g.n

/-- The clean, uncut cuts of the segment that ends at a CHANGE mark. -/
def State.openCuts (s : State) (m : ChangeMark) : Nat :=
  match m.outgoing with
  | none => 0
  | some o => countCuts s.cullZones o.cutLength s.uncut (cutsIn o.start m.p o.cutLength) o.start

/-- R63: the expectation of order n: outs × the clean, uncut cuts of its segments, those ending at mark `except` left
out. -/
def State.expectation (s : State) (n outs : Nat) (except : Option Nat) : Nat :=
  outs * ((s.changes.filter fun m =>
    (match m.outgoing with
      | some o => o.order == n
      | none => false) && except != some m.uid).map s.openCuts).sum

/-- R63: the need N0 of an order. -/
def State.need (s : State) (o : Order) (except : Option Nat) : Nat :=
  let outs := o.fields.pattern.outs
  ceilDiv (o.fields.quantity - o.goodSheets - s.expectation o.fields.number outs except) outs

/-- R63, R75: need plus allowance, raised to 1 where it is 0. -/
def target (need allowance : Nat) : Nat := max 1 (need + allowance)

/-! ### Moving the provisional end -/

/-- The provisional CHANGE mark with its base and count (R59). -/
def State.provisional (s : State) : Option (Provisional × ChangeMark) :=
  match s.planner with
  | none => none
  | some p => (s.findChange p.mark).map fun m => (p, m)

/-- R13, R59: a recompute of a provisional end: where P changes, the mark takes it, its X_ex with it, and its place in the
table; the recompute repeats the waiting reel checks, wherever P then stands (R108, log entry 56). -/
def State.moveEnd (s : State) (m : ChangeMark) (p : Coord) : State :=
  (if p = m.p then s else s.replaceChange { m with p := p, xEx := p }).recheckAll

/-- R59, R72: the provisional end becomes the end of the M-th clean cut at or after B, or stays where R75's floor, at which
it then stands, is the greater (DEDUCED, log entry 41): a cull or a moved start never takes a clean cut end back, so the
end in force is that floor whenever the clean end lies before it. -/
def State.recomputeEnd (s : State) : State :=
  match s.provisional with
  | some (pr, m) =>
    match m.outgoing with
    | some o => s.moveEnd m (laterOf (cleanEnd s.cullZones o.cutLength pr.count pr.base) m.p)
    | none => s
  | none => s

/-- R72: a cull zone just granted is handed to the span planner. -/
def State.cullGranted (s : State) (a b : Coord) : State :=
  match s.provisional with
  | some (_, m) =>
    match m.outgoing with
    | some o => if !m.pinned && overlaps o.start m.p a b then s.recomputeEnd else s
    | none => s
  | none => s

/-- R12: a granted cull mark is placed and handed to the span planner. -/
def State.placeCullMark (s : State) (m : Mark) : State :=
  match m.cullZone with
  | some (a, b) => (s.placeMark m).cullGranted a b
  | none => s

/-- R73: a retiring cull zone that overlaps [B, P) rebases the count, so that P stays fixed. -/
def State.countRebase (s : State) (a b : Coord) : State :=
  match s.provisional with
  | some (pr, m) =>
    match m.outgoing with
    | some o =>
      if overlaps pr.base m.p a b then
        let base := plusMm o.start (stepsTo o.start b o.cutLength * o.cutLength)
        let lost := countCuts s.cullZones o.cutLength (fun _ => true) (cutsIn pr.base base o.cutLength) pr.base
        { s with planner := some { pr with base := base, count := pr.count - lost } }
      else s
    | none => s
  | none => s

/-- R78: the floor C, the smallest S + k × Lc, k at least 1, at or after odometer + F. -/
def State.floorEnd (s : State) (o : Outgoing) : Coord :=
  plusMm o.start (max 1 (stepsTo o.start (plusMm s.odometer (freezeDistance s.config)) o.cutLength) * o.cutLength)

/-- R78: what a curtail for a rush would act on: the provisional mark, not pinned, with C before its P. -/
def State.curtailTarget (s : State) : Option (ChangeMark × Outgoing) :=
  match s.provisional with
  | some (_, m) =>
    match m.outgoing with
    | some o => if !m.pinned && before (s.floorEnd o) m.p then some (m, o) else none
    | none => none
  | none => none

/-- Whether an order holds a suspension stack entry. -/
def State.isStacked (s : State) (n : Nat) : Bool := s.suspended.contains n

/-- R77, test 4: the push of R78 is possible. -/
def State.pushPossible (s : State) : Bool :=
  match s.curtailTarget with
  | some (_, o) => s.isStacked o.order || decide (s.suspended.length < Config.stackDepth)
  | none => true

/-- R78: the curtail for a rush: P becomes C, pinned, and the outgoing order is pushed unless it holds an entry. Where C is
not before P no curtail is made (R77's answer), and no reel check is repeated (log entry 56). -/
def State.curtailForRush (s : State) : State :=
  match s.curtailTarget with
  | some (m, o) =>
    let t := if s.isStacked o.order then s else s.push o.order
    let c := s.floorEnd o
    (t.replaceChange { m with p := c, xEx := c, pinned := true }).recheckAll
  | none => s

/-- R80, R136: the curtail without a push: P becomes C where C is before it; the mark is pinned in both cases, and the
waiting reel checks are repeated in both (R108, log entry 56). -/
def State.curtailAndPin (s : State) : State :=
  match s.provisional with
  | some (_, m) =>
    match m.outgoing with
    | some o =>
      let c := s.floorEnd o
      (if before c m.p then s.replaceChange { m with p := c, xEx := c, pinned := true }
        else s.updateChange m.uid fun x => { x with pinned := true }).recheckAll
    | none => s
  | none => s

/-- R75: an amend of Q of the order whose latest segment ends at the unpinned provisional mark. -/
def State.amendEnd (s : State) (n : Nat) : State :=
  match s.provisional, s.findOrder n with
  | some (_, m), some ord =>
    match m.outgoing with
    | some o =>
      if o.order == n && !m.pinned then
        let base := match s.knife.grid with
          | some g => if g.pos = .segment m.uid then shiftBy g.n (-(g.sheet : Int)) else o.start
          | none => o.start
        let count := target (s.need ord (some m.uid)) ord.fields.allowance
        let t := { s with planner := some ⟨m.uid, base, count⟩ }
        t.moveEnd m (laterOf (cleanEnd s.cullZones o.cutLength count base) (s.floorEnd o))
      else s
    | none => s
  | _, _ => s

/-! ### Gaps (R114) -/

/-- R114: a gap [a, b) of stand k is shortened to 1,000,000 mm at its start, asked for as a GAP mark, and GRADE_GAP
is raised; a mark refused for want of a slot raises MARK_OVERFLOW. An empty gap is neither placed nor raised. -/
def State.placeGap (s : State) (k : Stand) (a b : Coord) : State :=
  if sdist a b ≤ 0 then s
  else
    let len := min (sdist a b).toNat Config.maxGap
    let start := shiftBy b (-(len : Int))
    let t :=
      if 0 < s.freeMarks then s.bumpSerial.placeCullMark (.gap ⟨s.serial, start, len, k⟩)
      else s.raise .markOverflow (.stand k)
    t.raise .gradeGap (.stand k)

/-- R103: the early gap of a plan that the running reel already meets: from the later of the running joint and the knife
coordinate to the plan's P, where the change mark has an outgoing order. -/
def State.satisfiedGap (s : State) (k : Stand) (p : Plan) : State :=
  match s.findChange p.mark with
  | some m =>
    match m.outgoing with
    | some _ =>
      let start := match (s.seq k).runningJoint with
        | some j => laterOf j.joint (knifeCoord s)
        | none => knifeCoord s
      s.placeGap k start p.p
    | none => s
  | none => s

/-- R104: the gap of an abandoned plan, from the later of P_old + G_old and the knife coordinate up to P_new. -/
def State.abandonedGap (s : State) (k : Stand) (old new : Plan) : State :=
  let start := match s.findChange old.mark with
    | some m =>
      match m.length with
      | some g => laterOf (plusMm old.p g) (knifeCoord s)
      | none => laterOf old.p (knifeCoord s)
    | none => knifeCoord s
  s.placeGap k start new.p

/-! ### Grade plans (R103, R104) -/

/-- R103: the stand's running reel already carries the plan's code. -/
def State.planSatisfied (s : State) (k : Stand) (p : Plan) : Bool := s.runningCode k == some p.code

def State.setPlan (s : State) (k : Stand) (p : Option Plan) : State := s.setSeq k { s.seq k with plan := p }

/-- R104: the stand holds GRADE in ARMED, WAIT_REEL or WAIT_GO. -/
def Sequencer.holdsGrade (q : Sequencer) : Bool :=
  match q.state, q.splice with
  | .armed, some ⟨.grade, _⟩ | .waitReel, some ⟨.grade, _⟩ | .waitGo, some ⟨.grade, _⟩ => true
  | _, _ => false

/-- R103: a plan that has become pending and is satisfied is cleared at once; its early gap is placed, and a stand that
held GRADE takes its next state (R104). -/
def State.clearSatisfied (s : State) (k : Stand) (p : Plan) : State :=
  let t := (s.setPlan k none).satisfiedGap k p
  if (t.seq k).holdsGrade then t.settleIdle k else t

/-- R103, R104: a stand takes a pending plan and arms for it: ARMED with the plan's due odometer, and the reel check at
once where that point has been reached (R107). -/
def State.armGrade (s : State) (k : Stand) (p : Plan) : State :=
  let q := s.seq k
  ((s.setSeq k { q with state := .armed, splice := some ⟨.grade, p.due⟩, required := none }).released
    q.state).dueCheck k

/-- R103: a plan becomes pending at a stand outside SPLICING, replacing a pending one (R104), subject to the satisfaction
test. The reel checks that an abandoned plan's gap repeats come before (DESIGN CHOICE, log entry 57). -/
def State.takePlan (s : State) (k : Stand) (p : Plan) : State :=
  let t := match (s.seq k).plan with
    | some old => s.abandonedGap k old p
    | none => s
  let u := t.setPlan k (some p)
  if u.planSatisfied k p then u.clearSatisfied k p
  else
    match (u.seq k).state with
    | .idle => u.armGrade k p
    | .armed | .waitReel | .waitGo => if (u.seq k).holdsGrade then u.armGrade k p else u
    | .splicing | .fault => u

/-- R103: a grade plan arrives at stand k. In SPLICING it is held as the deferred plan, replacing one already held. -/
def State.planArrives (k : Stand) (p : Plan) (s : State) : State :=
  match (s.seq k).state with
  | .splicing =>
    let t := match (s.seq k).deferred with
      | some old => s.abandonedGap k old p
      | none => s
    t.setSeq k { t.seq k with deferred := some p }
  | _ => s.takePlan k p

/-- R111, R112, R117: a deferred plan is handed in as an arrival. -/
def State.handDeferred (k : Stand) (s : State) : State :=
  match (s.seq k).deferred with
  | some p => (s.setSeq k { s.seq k with deferred := none }).planArrives k p
  | none => s

/-! ### Faults of a stand (R97, R117) -/

/-- R111, R117: the stand enters FAULT from whatever state it holds: the timer stops, a deferred plan becomes pending, the
cap release is applied. The splice kind is kept for reporting. -/
def State.enterFault (s : State) (k : Stand) : State :=
  let q := s.seq k
  ((s.setSeq k { q with state := .fault, required := none, timer := none, goTag := none }).handDeferred
    k).released q.state

/-- R97: the running reel of stand k has run out: the slot becomes EXHAUSTED with attention, RUN_OUT is raised and the
stand enters FAULT (R117). Nothing happens where no RUNNING slot stands at a remaining length of 0. -/
def State.runOutIfEmpty (k : Stand) (s : State) : State :=
  match s.runningPos k with
  | none => s
  | some p =>
    match (s.slot k p).reel with
    | .running r _ _ =>
      if r.remaining = 0 then
        ((s.setSlot k p ⟨.exhausted r, true⟩).raise .runOut (.stand k)).enterFault k
      else s
    | _ => s

end Sys2Proof.Machine
end

