-- ==== Sys2Proof/Machine/SlitterOps.lean ====
section
/-! DEFINITION. Shared operations of the slitter exchange: standby assignment (R128), the set of a station (R129), its
fault (R131), and the decision at a crossing: exchange (R133), skip (R134), late change (R135 to R137). -/

namespace Sys2Proof.Machine

open Sys2Proof

/-! ### Standby assignment (R127 to R129) -/

/-- The ENGAGED station (R125). -/
def State.engaged (s : State) : Option Station :=
  if (s.station .a).state = .engaged then some .a
  else if (s.station .b).state = .engaged then some .b else none

/-- R126: the commanded pattern of the ENGAGED station; none differs from every pattern. -/
def State.engagedPattern (s : State) : Option Pattern :=
  match s.engaged with
  | some st => (s.station st).pattern
  | none => none

/-- R128: the IDLE station a set is given to, station A when both are IDLE. -/
def State.idleStation (s : State) : Option Station :=
  if (s.station .a).state = .idle then some .a
  else if (s.station .b).state = .idle then some .b else none

/-- The incoming order of a CHANGE mark with its pattern. -/
def State.incomingPattern (s : State) (mark : Nat) : Option (Nat × Pattern) :=
  match s.findChange mark with
  | some m =>
    match m.incoming with
    | some n => (s.findOrder n).map fun o => (n, o.fields.pattern)
    | none => none
  | none => none

/-- R128: the walk through the decision list: the list with its new statuses and the entry to be set, if any. -/
def State.walkList (s : State) : List Decision → List Decision × Option (Nat × Nat × Pattern × Station)
  | [] => ([], none)
  | d :: rest =>
    match d.status with
    | .skip => let r := s.walkList rest; (d :: r.1, r.2)
    | .servedBy _ => (d :: rest, none)
    | .unassigned =>
      match s.incomingPattern d.mark with
      | none => (d :: rest, none)
      | some (n, pat) =>
        if s.engagedPattern == some pat then
          let r := s.walkList rest
          (⟨d.mark, .skip⟩ :: r.1, r.2)
        else
          match s.idleStation with
          | some st => (⟨d.mark, .servedBy st⟩ :: rest, some (d.mark, n, pat, st))
          | none => (d :: rest, none)

/-- R129, R130: a SLITTER_SET of the pattern is queued for a station, and is the set in hand; its timer does not run
until it is sent. -/
def State.queueSet (s : State) (st : Station) (pat : Pattern) : State :=
  let t := s.setStation st { s.station st with timer := none, setTag := some s.serial }
  t.bumpSerial.enqueue (.slitterSet st pat s.serial)

/-- R129: the set of a station for an entry. -/
def State.assignSet (s : State) (mark order : Nat) (pat : Pattern) (st : Station) : State :=
  (s.setStation st { s.station st with
    state := .setting, order := some order, served := some mark, pattern := some pat, retry := 0 }).queueSet st pat

/-- R128: standby assignment. -/
def State.walk (s : State) : State :=
  let r := s.walkList s.decisions
  let t := { s with decisions := r.1 }
  match r.2 with
  | some (mark, n, pat, st) => t.assignSet mark n pat st
  | none => t

/-- R127, R128: a mark is handed over by the span planner and joins the end of the list. -/
def State.addDecision (s : State) (mark : Nat) : State :=
  State.walk { s with decisions := s.decisions ++ [⟨mark, .unassigned⟩] }

/-- R127: the entry of a mark is removed, and the walk is made. -/
def State.removeDecision (s : State) (mark : Nat) : State :=
  State.walk { s with decisions := s.decisions.filter fun d => d.mark != mark }

/-- R131: a station enters FAULT: the timer stops, order and mark served are cleared, its entry becomes unassigned and the
walk is made. -/
def State.faultStation (s : State) (st : Station) : State :=
  let t := s.setStation st { s.station st with
    state := .fault, order := none, served := none, timer := none, setTag := none }
  State.walk { t with decisions := t.decisions.map fun d =>
    if d.status = .servedBy st then ⟨d.mark, .unassigned⟩ else d }

/-! ### The decision crossing (R133 to R137) -/

/-- The status of a crossing of a CHANGE mark becomes st. -/
def ChangeMark.setCross (m : ChangeMark) (c : Cross) (st : CrossStatus) : ChangeMark :=
  { m with crossings := m.crossings.map fun e => if e.name = c then ⟨e.name, st⟩ else e }

/-- R133, R140: a SLITTER_EXCHANGE that engages a station is queued; exchange sent is no until this command is reported
sent. -/
def State.queueExchange (s : State) (st : Station) (lift : Option Station) (xEx : Option Coord) : State :=
  let t := s.setStation st { s.station st with exchangeSent := some false, exchangeTag := some s.serial }
  t.bumpSerial.enqueue (.slitterExchange st lift xEx s.serial)

/-- R133: the exchange: the READY station engages, the ENGAGED one is lifted. -/
def State.exchange (s : State) (m : ChangeMark) (st : Station) : State :=
  let lifted := s.engaged
  let t := s.queueExchange st lifted (some m.xEx)
  let u := match lifted with
    | some o => t.setStation o { t.station o with
        state := .idle, order := none, exchangeSent := none, exchangeTag := none }
    | none => t
  let w := u.setStation st { u.station st with state := .engaged, served := none, timer := none, setTag := none }
  w.removeDecision m.uid

/-- R134: the skip: the ENGAGED station takes the incoming order. -/
def State.skipDecision (s : State) (m : ChangeMark) : State :=
  let t := match s.engaged with
    | some st => s.setStation st { s.station st with order := m.incoming }
    | none => s
  t.removeDecision m.uid

/-- R74, R135: the later mark's segment start moves forward by one incoming cut; an unpinned provisional end is
recomputed from the new start, as the end of the M-th clean cut from the new B. Where the cut lost from the old S was
unclean, that end is the old P, although R74 adds that P moves forward by at least Lc_in: the model takes the recompute and
leaves P (DESIGN CHOICE, log entry 55). -/
def State.moveStart (s : State) (later : ChangeMark) (o : Outgoing) : State :=
  let start := plusMm o.start o.cutLength
  let t := s.updateChange later.uid fun x => { x with outgoing := some { o with start := start } }
  match s.planner with
  | some pr =>
    if pr.mark = later.uid && !later.pinned then
      ({ t with planner := some { pr with base := start } }).recomputeEnd
    else t
  | none => t

/-- R137: the incoming segment has become void: the decision is done, the entry is removed, and a station in SETTING or
READY for it becomes IDLE with its queued set withdrawn. -/
def State.makeVoid (s : State) (m : ChangeMark) : State :=
  let t := s.updateChange m.uid fun x => x.setCross .decision .done
  let free (st : Station) (u : State) : State :=
    let x := u.station st
    if x.served = some m.uid ∧ (x.state = .setting ∨ x.state = .ready) then
      (u.setStation st { x with
        state := .idle, order := none, served := none, retry := 0, timer := none, setTag := none }).withdrawSet st
    else u
  (free .b (free .a t)).removeDecision m.uid

/-- R136: the extension carries G above G_max for the first time: by an extension of this mark that finds G at or below
it, or by the first extension of all (a closed run-out zone may be longer already; log entry 14). -/
def firstAbove (limit before after extensionsBefore : Nat) : Bool :=
  decide (limit < after) && (decide (before ≤ limit) || decide (extensionsBefore = 0))

/-- R135 to R137: the late change: the mark is extended by one incoming cut length, the decision is pending again, the
later start moves; LATE_CHANGE, CHANGE_ABANDONED and the void follow. The manual orders neither R108's repeat of the
waiting reel checks nor the raises of R135 and R136, one of which can put the line in HOLD, against each other: the
repeat that the recompute of a provisional end brings comes with it, before the raises, the repeat of the curtail of R136
with that, and the repeat for the extension after them (DESIGN CHOICE, log entry 45). -/
def State.lateChange (s : State) (m : ChangeMark) (g : Nat) : State :=
  match s.nextChange m.uid with
  | none => s
  | some later =>
    match later.outgoing with
    | none => s
    | some o =>
      let g' := g + o.cutLength
      let object : ErrorObject := match m.incoming with
        | some n => .order n
        | none => .none
      let s1 := s.updateChange m.uid fun x =>
        { (x.setCross .decision .pending) with
          xEx := plusMm x.xEx o.cutLength
          length := some g'
          extensions := satAdd 65535 x.extensions 1 }
      let s2 := s1.moveStart later o
      let s3 := if m.extensions = 0 then s2.raise .lateChange object else s2
      let s4 :=
        if firstAbove (gMax s.config) g g' m.extensions then
          let t := s3.raise .changeAbandoned object
          match s3.provisional with
          | some (pr, pm) => if pr.mark = later.uid && !pm.pinned then t.curtailAndPin else t
          | none => t
        else s3
      let s5 := s4.recheckAll
      match s5.findChange later.uid with
      | some l =>
        match l.outgoing with
        | some lo => if lo.start = l.p then s5.makeVoid m else s5
        | none => s5
      | none => s5

/-- R133 to R135: the decision crossing of a mark with an incoming order, found at the head of the decision list. -/
def State.decision (s : State) (m : ChangeMark) : State :=
  match s.decisions, m.length with
  | d :: _, some g =>
    if d.mark = m.uid then
      match d.status with
      | .skip => s.skipDecision m
      | .servedBy st => if (s.station st).state = .ready then s.exchange m st else s.lateChange m g
      | .unassigned => s.lateChange m g
    else s
  | _, _ => s

end Sys2Proof.Machine
end

