-- ==== Sys2Proof/Machine/LaunchOps.lean ====
section
/-! DEFINITION. Shared operations of the span planner: the candidate (R62), the launch (R64), the freeze (R66 to R68), the
line start (R69), the closing of a run-out (R71), and the launch attempt of a request (R61). -/

namespace Sys2Proof.Machine

open Sys2Proof

/-! ### The candidate (R62, R63) -/

/-- R29, R62: a popped continuation with no need is dropped: the order takes attention, and a SUSPENDED one is DONE,
COMPLETE. -/
def State.dropContinuation (s : State) (o : Order) : State :=
  if o.state = .suspended then s.finishOrder o.fields.number .complete
  else s.updateOrder o.fields.number fun r => { r with attention := true }

/-- R33: the top entry is popped and the order's stacked field cleared. -/
def State.pop (s : State) : State :=
  match s.suspended with
  | n :: rest => ({ s with suspended := rest } : State).updateOrder n fun o => { o with stacked := false }
  | [] => s

/-- R62: the candidate of a launch attempt, and the state with the continuations popped and dropped on the way. The fuel is
the depth of the stack. -/
def State.chooseFrom : Nat → State → Option Nat × State
  | 0, s => (s.runSeq.head?, s)
  | fuel + 1, s =>
    let rushed : Bool := match s.runSeq.head? with
      | some h => (s.findOrder h).any fun o => o.rush
      | none => false
    if rushed then (s.runSeq.head?, s)
    else
      match s.suspended with
      | [] => (s.runSeq.head?, s)
      | n :: _ =>
        match s.findOrder n with
        | none => (s.runSeq.head?, s)
        | some o =>
          if 3 ≤ o.segments then (s.runSeq.head?, s)
          else
            if s.pop.need o none = 0 then State.chooseFrom fuel (s.pop.dropContinuation o)
            else (some n, s.pop)

def State.candidate (s : State) : Option Nat × State := State.chooseFrom s.suspended.length s

/-! ### The launch (R64) -/

/-- The crossings of a CHANGE mark in the order of R14's table, without the freeze. -/
def boundaryCrossings : List CrossEntry :=
  (Stand.all.map fun k => ⟨.ph k, .pending⟩) ++ (GlueUnit.all.map fun g => ⟨.glue g, .pending⟩)
    ++ [⟨.decision, .pending⟩, ⟨.knife, .pending⟩]

/-- R64, step 3: the order book's part of a launch: the order leaves the run sequence, becomes RUNNING with one segment
more, its rush flag clear; the grade of an order that comes onto the machine becomes active (R49). A candidate is QUEUED,
RUNNING or SUSPENDED (R62); the test for the last two names no other state so that it says something of every state (log
entry 24). -/
def State.bookLaunch (s : State) (o : Order) : State :=
  let n := o.fields.number
  let t := if o.state = .running ∨ o.state = .suspended then s else (s.unlink n).gradeActiveUp o.fields.grade
  t.updateOrder n fun r => { r with state := .running, segments := min 3 (r.segments + 1), rush := false }

/-- R64: order o is launched with start S. -/
def State.launch (s : State) (o : Order) (start : Coord) : State :=
  let lc := o.fields.cutLength
  let count := target (s.need o none) o.fields.allowance
  let p := cleanEnd s.cullZones lc count start
  let mark : ChangeMark :=
    { uid := s.serial, p := p, length := none, outgoing := some ⟨o.fields.number, start, lc⟩, incoming := none,
      state := .provisional, pinned := false, xEx := p, extensions := 0, waste := 0,
      crossings := ⟨.freeze, .pending⟩ :: boundaryCrossings }
  let t := s.bumpSerial.placeMark (.change mark)
  (State.bookLaunch { t with planner := some ⟨s.serial, start, count⟩ } o).recheckAll

/-! ### Hand-offs (R55, R68) -/

/-- R55: the grade difference at a freeze: the stands whose web changes paper from the outgoing order's entry to the
incoming order's, with the incoming codes. -/
def State.gradeDiff (s : State) (outgoing incoming : Nat) : List (Stand × Nat) :=
  match (s.findOrder outgoing).bind (fun o => s.findGrade o.fields.grade),
    (s.findOrder incoming).bind (fun o => s.findGrade o.fields.grade) with
  | some go, some gi =>
    Stand.all.filterMap fun k =>
      if go.fields.codes.get k = gi.fields.codes.get k then none else some (k, gi.fields.codes.get k)
  | _, _ => []

/-- R55: the grade difference of a line start or a closing: the stands whose running reel carries another code. -/
def State.gradeDiffAtStart (s : State) (incoming : Nat) : List (Stand × Nat) :=
  match (s.findOrder incoming).bind (fun o => s.findGrade o.fields.grade) with
  | some gi =>
    Stand.all.filterMap fun k =>
      match s.runningCode k with
      | some c => if c = gi.fields.codes.get k then none else some (k, gi.fields.codes.get k)
      | none => none
  | none => []

/-- R68: the plans of a grade difference are handed to the splice controller, in the order of the list; each is due at the
grade point + a − path_k. -/
def State.handPlans (s : State) (mark : Nat) (p gradePoint : Coord) (diff : List (Stand × Nat)) : State :=
  diff.foldl (fun t d =>
    let due := shiftBy gradePoint ((jointAim t.config : Int) - (pathOf t.config d.1 : Int))
    t.planArrives d.1 ⟨d.2, due, mark, p⟩) s

/-- R68, R69: the hand-offs of a boundary with an incoming order: knife drive, splice controller, slitter exchange. -/
def State.handOff (s : State) (mark : Nat) (p gradePoint change : Coord) (incoming cutLength : Nat)
    (diff : List (Stand × Nat)) : State :=
  (((s.enqueue (.knifeSchedule change cutLength (some incoming))).handPlans mark p gradePoint diff).addDecision mark)

/-! ### Freeze, line start, closing (R66, R69, R71) -/

/-- The mark of a freeze that found no launch becomes a run-out (R66); the knife drive gets its schedule and nothing more
is handed on (R68). The waiting reel checks are repeated before QUEUE_DRY is raised and KNIFE_SCHEDULE queued, either of
which can put the line in HOLD; R66 and R108 give no order (DESIGN CHOICE, log entry 58). -/
def State.becomeRunOut (s : State) (m : ChangeMark) (o : Outgoing) (dry : Bool) : State :=
  let t := (s.updateChange m.uid fun x => { x with state := .runOut }).recheckAll
  let u := if dry then t.raise .queueDry (.order o.order) else t
  u.enqueue (.knifeSchedule m.p o.cutLength none)

/-- R66: the freeze of the provisional mark. -/
def State.freeze (s : State) (m : ChangeMark) : State :=
  match m.outgoing with
  | none => s
  | some o =>
    let t : State := { s.updateChange m.uid fun x => { (x.setCross .freeze .done) with state := .frozen } with
      planner := none }
    if t.errors.hold then t.becomeRunOut m o false
    else if t.freeMarks = 0 then t.becomeRunOut m o true
    else
      match t.candidate with
      | (none, u) => u.becomeRunOut m o true
      | (some n, u) =>
        match u.findOrder n with
        | none => u.becomeRunOut m o true
        | some i =>
          let lc := i.fields.cutLength
          let g := ceilDiv (gMin u.config) lc * lc
          let diff := u.gradeDiff o.order n
          let w := u.updateChange m.uid fun x => { x with incoming := some n, length := some g }
          (w.launch i (plusMm m.p g)).handOff m.uid m.p m.p m.p n lc diff

/-- R69: a line start for order i: the line-start mark, the launch and the hand-offs. -/
def State.lineStart (s : State) (i : Order) : State :=
  let p := plusMm s.odometer (freezeDistance s.config)
  let n := i.fields.number
  let mark : ChangeMark :=
    { uid := s.serial, p := p, length := some 0, outgoing := none, incoming := some n, state := .frozen,
      pinned := false, xEx := p, extensions := 0, waste := 0, crossings := boundaryCrossings }
  let t := s.bumpSerial.placeMark (.change mark)
  (t.launch i p).handOff s.serial p p p n i.fields.cutLength (s.gradeDiffAtStart n)

/-- R16: the crossings of a closed run-out that were done without a call are pending again: a bond crossing at the incoming
start + offset, the decision at its new X_ex. -/
def rearm (e : CrossEntry) : CrossEntry :=
  match e.status, e.name with
  | .silent, .ph _ | .silent, .glue _ => { e with status := .rearmed }
  | .silent, .decision => { e with status := .pending }
  | _, _ => e

/-- R16, R71: the run-out mark closed with incoming order n at start S_I. -/
def ChangeMark.closed (m : ChangeMark) (n g : Nat) (start : Coord) : ChangeMark :=
  { m with
    length := some g
    incoming := some n
    state := .frozen
    xEx := if m.crossings.contains ⟨.decision, .silent⟩ then start else m.xEx
    crossings := m.crossings.map rearm }

/-- R141: a closing start joins the split list in board order. -/
def insertSplit (odo : Coord) (e : SplitEntry) : List SplitEntry → List SplitEntry
  | [] => [e]
  | x :: xs => if sdist odo e.start < sdist odo x.start then e :: x :: xs else x :: insertSplit odo e xs

/-- R71: the closing of an open run-out zone by the launch of order i. -/
def State.closeRunOut (s : State) (m : ChangeMark) (i : Order) : State :=
  match m.outgoing with
  | none => s
  | some o =>
    let lcOut := o.cutLength
    let n := i.fields.number
    let k := max 1 (max (ceilDiv (gMin s.config) lcOut)
      (stepsTo m.p (plusMm s.odometer (freezeDistance s.config)) lcOut))
    let start := plusMm m.p (k * lcOut)
    let gradePoint := shiftBy start (-((ceilDiv (gMin s.config) lcOut * lcOut : Nat) : Int))
    let diff := s.gradeDiffAtStart n
    let t := (s.updateChange m.uid fun x => x.closed n (k * lcOut) start).recheckAll
    let u := (t.launch i start).enqueue (.knifeSchedule start i.fields.cutLength (some n))
    let w : State := { u with knife := { u.knife with split := insertSplit u.odometer ⟨m.uid, start⟩ u.knife.split } }
    (w.handPlans m.uid m.p gradePoint diff).addDecision m.uid

/-- R61: the launch attempt of SCHEDULE ORDER, RUSH ORDER and RELEASE HOLD: the order launched, if any, and the state
after it. -/
def State.attemptLaunch (s : State) : Option Nat × State :=
  if s.errors.hold then (none, s)
  else
    match s.openRunOut with
    | some m =>
      if s.freeMarks = 0 then (none, s)
      else
        match s.candidate with
        | (none, t) => (none, t)
        | (some n, t) =>
          match t.findOrder n with
          | some i => (some n, t.closeRunOut m i)
          | none => (none, t)
    | none =>
      if s.changes.isEmpty then
        if s.freeMarks < 2 then (none, s)
        else
          match s.candidate with
          | (none, t) => (none, t)
          | (some n, t) =>
            match t.findOrder n with
            | some i => (some n, t.lineStart i)
            | none => (none, t)
      else (none, s)

end Sys2Proof.Machine
end

