-- ==== Sys2Proof/Machine/KnifeOps.lean ====
section
/-! DEFINITION. Shared operations of the knife counter: the owner (R142), the nominal cut grid (R143), matching and missed
cuts (R145, R146), judging and charging (R147 to R149), segment ends (R151, R152) and stacks (R153 to R156). -/

namespace Sys2Proof.Machine

open Sys2Proof

def State.setKnife (s : State) (f : Knife → Knife) : State := { s with knife := f s.knife }

/-! ### Stacks (R153 to R156) -/

/-- R154: STACK_CHANGE is queued and outstanding changes rises by 1. -/
def State.queueChange (s : State) (order stack cuts : Nat) (final : Bool) : State :=
  (s.enqueue (.stackChange order stack cuts final)).setKnife fun k => { k with outstanding := k.outstanding + 1 }

/-- R154: the order's stacks closed rises by 1. -/
def State.countStack (s : State) (order : Nat) : State :=
  s.updateOrder order fun o => { o with stacksClosed := satAdd 65535 o.stacksClosed 1 }

/-- R154: a change of an order on the machine is issued. -/
def State.issueChange (s : State) (order stack cuts : Nat) (final : Bool) : State :=
  (s.queueChange order stack cuts final).countStack order

def State.clearFill (s : State) (order : Nat) : State := s.updateOrder order fun o => { o with stackFill := 0 }

def State.setPostponed (s : State) (p : Option Postponed) : State := s.setKnife fun k => { k with postponed := p }

/-- R153: order n has an open postponed change. -/
def State.openPostponed (s : State) (n : Nat) : Bool :=
  match s.knife.postponed with
  | some p => p.order == n && p.closed.isNone
  | none => false

/-- R153, R155: the stack test after a good cut of order n. -/
def State.stackTest (s : State) (n : Nat) : State :=
  match s.findOrder n with
  | none => s
  | some o =>
    if o.stackFill < o.fields.stackSize || s.openPostponed n then s
    else if s.knife.outstanding < Config.maxOutstanding then
      (s.issueChange n (o.stacksClosed + 1) o.stackFill false).clearFill n
    else
      let t := match s.knife.postponed with
        | none => s.setPostponed (some ⟨n, o.stacksClosed + 1, none, false⟩)
        | some _ => s
      t.raise .stackerLate (.order n)

/-- R151, R155: the stack of order n is closed at a segment end, where its fill is above 0. -/
def State.closeStack (s : State) (n : Nat) : State :=
  match s.findOrder n with
  | none => s
  | some o =>
    if o.stackFill = 0 then s
    else if s.knife.outstanding < Config.maxOutstanding then
      (s.issueChange n (o.stacksClosed + 1) o.stackFill true).clearFill n
    else
      match s.knife.postponed with
      | none =>
        ((s.setPostponed (some ⟨n, o.stacksClosed + 1, some o.stackFill, false⟩)).clearFill n).raise .stackerLate (.order n)
      | some p =>
        if p.order = n ∧ p.closed = none then
          (s.setPostponed (some { p with closed := some o.stackFill })).clearFill n
        else s.raise .stackerLate (.order n)

/-- R154: the record a postponed change counts in: none once its order has been retired, whatever the order number names
now (R41). -/
def State.postponedOrder (s : State) (p : Postponed) : Option Order := if p.retired then none else s.findOrder p.order

/-- R154: the stacks closed of a postponed change that is issued. Of an order that is DONE, R30 says that every count stays
unchanged and R154 that stacks closed rises: a free value decides (log entry 40). -/
def State.countPostponed (s : State) (p : Postponed) : State :=
  match s.postponedOrder p with
  | none => s
  | some o =>
    if o.state = .done then (if Config.freeBit s.draws then s.countStack p.order else s).drawn
    else s.countStack p.order

/-- R156: a postponed change is issued, open with the order's fill, which becomes 0, or closed with its fixed count, and the
record becomes empty. -/
def State.issuePostponed (s : State) : State :=
  match s.knife.postponed with
  | none => s
  | some p =>
    let t := s.setPostponed none
    match p.closed with
    | some cuts => (t.queueChange p.order p.stack cuts true).countPostponed p
    | none =>
      match s.postponedOrder p with
      | some o => ((t.queueChange p.order p.stack o.stackFill false).countPostponed p).clearFill p.order
      | none => t.queueChange p.order p.stack 0 false

/-! ### The end of a segment at the knife (R29, R151, R152) -/

/-- R29, R151 step 3: the segment end is handed to the order book. An order with a segment is RUNNING (R29); of any other the
end says nothing (log entry 24). -/
def State.bookSegmentEnd (s : State) (n : Nat) : State :=
  match s.findOrder n with
  | none => s
  | some o =>
    if o.state = .running then
      let left := o.segments - 1
      let t := s.updateOrder n fun r => { r with segments := left }
      if left ≠ 0 then t
      else if o.stacked then t.updateOrder n fun r => { r with state := .suspended, attention := true }
      else
        t.finishOrder n (if o.cancel then .cancelled
          else if o.fields.quantity ≤ o.goodSheets then .complete else .short)
    else s

/-- R151, R152: the segment that ends at a CHANGE mark has ended at the knife. -/
def State.endSegment (s : State) (m : ChangeMark) : State :=
  match m.outgoing with
  | some o => (s.closeStack o.order).bookSegmentEnd o.order
  | none => s

/-- A segment is void: its start is its end (R58). -/
def ChangeMark.isVoid (m : ChangeMark) : Bool :=
  match m.outgoing with
  | some o => o.start == m.p
  | none => false

/-! ### The grid (R143) -/

/-- The cut length that ends at a CHANGE mark, its outgoing cut length. -/
def ChangeMark.outCut (m : ChangeMark) : Nat :=
  match m.outgoing with
  | some o => o.cutLength
  | none => 0

/-- The cut length of the incoming order of a mark: the outgoing cut length of the CHANGE mark after it (R143). -/
def State.inCut (s : State) (mark : Nat) : Nat :=
  match s.nextChange mark with
  | some m => m.outCut
  | none => 0

/-- R143: the cut length in force in the zone of a mark: the outgoing one while the zone is open or before a closing start
the grid has not passed, otherwise the incoming one. -/
def State.zoneCut (s : State) (mark : Nat) : Nat :=
  match s.findChange mark with
  | none => 0
  | some m =>
    if m.length.isNone || s.knife.split.any (fun e => e.mark == mark) then m.outCut else s.inCut mark

/-- R143: the cut length in force at a grid position. -/
def State.cutAt (s : State) : GridPos → Nat
  | .lead mark => s.inCut mark
  | .zone mark => s.zoneCut mark
  | .segment mark =>
    match s.findChange mark with
    | some m => m.outCut
    | none => 0

/-- R143, step 1: at the end of a segment the segment ends at the knife and the grid passes into the zone of its mark. -/
def State.gridStep1 (s : State) (g : Grid) : State × GridPos :=
  match g.pos with
  | .segment mark =>
    match s.findChange mark with
    | some m => if g.n = m.p then (s.endSegment m, .zone mark) else (s, g.pos)
    | none => (s, g.pos)
  | p => (s, p)

/-- R143, step 2: at the end of a zone or lead the grid passes into the incoming segment; a void one ends at once and the
grid passes into the zone of its mark. A lead whose zone has a length passes into that zone. -/
def State.gridStep2 (s : State) (n : Coord) (pos : GridPos) : State × GridPos :=
  let passZone (mark : Nat) (stay : GridPos) : State × GridPos :=
    match s.findChange mark with
    | none => (s, stay)
    | some m =>
      if m.stop = some n then
        match s.nextChange mark with
        | some next => if next.isVoid then (s.endSegment next, .zone next.uid) else (s, .segment next.uid)
        | none => (s, stay)
      else (s, stay)
  match pos with
  | .zone mark => passZone mark (.zone mark)
  | .lead mark => passZone mark (.zone mark)
  | .segment mark => (s, .segment mark)

/-- R143: the grid advances from n once the current nominal sheet has been judged. -/
def State.advanceGrid (s : State) (g : Grid) : State :=
  let r1 := s.gridStep1 g
  let r2 := r1.1.gridStep2 g.n r1.2
  let t := r2.1.setKnife fun k => { k with split := k.split.filter fun e => e.start != g.n }
  let len := t.cutAt r2.2
  t.setKnife fun k =>
    { k with
      grid := some ⟨r2.2, plusMm g.n len, len, false⟩
      lag := k.lag.filter fun e => !atOrAfter g.n e.stop }

/-! ### Judging and charging (R147 to R149) -/

/-- R147: how a sheet was judged. -/
inductive Judgment
  | cut | deviating | missed
  deriving DecidableEq, Repr

/-- The order of the sheet concerned, for an error (R145). -/
def State.sheetObject (s : State) (g : Grid) : ErrorObject :=
  match g.pos with
  | .segment mark =>
    match (s.findChange mark).bind (·.outgoing) with
    | some o => .order o.order
    | none => .none
  | _ => .none

/-- A live mark of the kind tested overlaps the sheet [a, b). -/
def State.culledBy (s : State) (f : Mark → Bool) (a b : Coord) : Bool :=
  s.marks.any fun m => f m && match m.cullZone with
    | some z => overlaps a b z.1 z.2
    | none => false

def Mark.isGap : Mark → Bool
  | .gap _ => true
  | _ => false

def Mark.isJoint : Mark → Bool
  | .joint _ => true
  | _ => false

def Mark.isHost : Mark → Bool
  | .host _ => true
  | _ => false

/-- R148: the reason a sheet of a segment is culled for, none where it is good. -/
def State.cullReason (s : State) (a b : Coord) (j : Judgment) : Option CullReason :=
  if s.culledBy Mark.isGap a b then some .gap
  else if s.culledBy Mark.isJoint a b then some .joint
  else if s.culledBy Mark.isHost a b then some .host
  else if s.knife.lag.any (fun e => overlaps a b e.start e.stop) then some .change
  else if j ≠ .cut then some .deviation
  else none

/-- The limit of the cut counts (R28). -/
def maxCount : Nat := 16777215

/-- R149: one cull is charged to a reason. -/
def CullCounts.add (c : CullCounts) : CullReason → CullCounts
  | .change => { c with change := satAdd maxCount c.change 1 }
  | .gap => { c with gap := satAdd maxCount c.gap 1 }
  | .joint => { c with joint := satAdd maxCount c.joint 1 }
  | .host => { c with host := satAdd maxCount c.host 1 }
  | .deviation => { c with deviation := satAdd maxCount c.deviation 1 }

/-- R149: a cull is charged to order n. -/
def State.chargeCull (s : State) (n : Nat) (r : CullReason) : State :=
  s.updateOrder n fun o => { o with cullCuts := satAdd maxCount o.cullCuts 1, byReason := o.byReason.add r }

/-- R149: a good cut is charged to order n, and the stack test is made. -/
def State.chargeGood (s : State) (n : Nat) : State :=
  (s.updateOrder n fun o =>
    { o with goodCuts := satAdd maxCount o.goodCuts 1, stackFill := satAdd 2000 o.stackFill 1 }).stackTest n

/-- R148: a sheet of a zone or lead is waste in its CHANGE mark. -/
def State.chargeWaste (s : State) (mark : Nat) : State :=
  s.updateChange mark fun m => { m with waste := satAdd maxCount m.waste 1 }

/-- R148: the current nominal sheet is charged by its grid position. -/
def State.chargeSheet (s : State) (g : Grid) (j : Judgment) : State :=
  match g.pos with
  | .lead mark | .zone mark => s.chargeWaste mark
  | .segment mark =>
    match (s.findChange mark).bind (·.outgoing) with
    | none => s
    | some o =>
      match s.cullReason (shiftBy g.n (-(g.sheet : Int))) g.n j with
      | some r => s.chargeCull o.order r
      | none => s.chargeGood o.order

/-- R145: the current sheet is judged, an error is raised where one belongs to the judgment, and the grid advances. -/
def State.judge (s : State) (g : Grid) (j : Judgment) (err : Bool) : State :=
  let t := s.chargeSheet g j
  (if err then t.raise .cutDeviation (s.sheetObject g) else t).advanceGrid g

/-- R145, R146: the board point c stands at or beyond n + L/2, exactly: 2 (c − n) ≥ L. -/
def overdueAt (g : Grid) (c : Coord) : Bool := decide ((g.sheet : Int) ≤ 2 * sdist g.n c)

/-- R145: the board point c lies short of n − L/2. -/
def shortOf (g : Grid) (c : Coord) : Bool := decide (2 * sdist g.n c < -(g.sheet : Int))

/-- R145, R146: while c is at or beyond n + L/2 the current sheet is judged missed. Every advance moves n by a cut length of
at least 1 mm, so the distance is fuel enough. -/
def State.missOverdue : Nat → Coord → State → State
  | 0, _, s => s
  | fuel + 1, c, s =>
    match s.knife.grid with
    | none => s
    | some g => if overdueAt g c then State.missOverdue fuel c (s.judge g .missed true) else s

/-- Fuel for the overdue test at c: the distance from n, and one. -/
def State.overdueFuel (s : State) (c : Coord) : Nat :=
  match s.knife.grid with
  | none => 0
  | some g => (sdist g.n c).toNat + 1

/-- R146: nominal cuts that no pulse has matched are missed by the advance of the line. -/
def State.overdueTest (s : State) : State :=
  if s.knife.owner = .unassigned then s else State.missOverdue (s.overdueFuel (knifeCoord s)) (knifeCoord s) s

/-- R145: the test of a cut at c once no missed sheet lies before it. -/
def State.matchCut (s : State) (c : Coord) : State :=
  match s.knife.grid with
  | none => s
  | some g =>
    if shortOf g c then
      ({ s with knife := { s.knife with grid := some { g with spoiled := true } } } : State).raise .cutUnexpected
        (s.sheetObject g)
    else if within c g.n (cutTolerance s.config) then s.judge g (if g.spoiled then .deviating else .cut) false
    else s.judge g .deviating true

/-- R145: a knife cut pulse. -/
def State.cutPulse (s : State) : State :=
  if s.knife.owner = .unassigned then s.raise .cutUnexpected .none
  else (State.missOverdue (s.overdueFuel (knifeCoord s)) (knifeCoord s) s).matchCut (knifeCoord s)

/-! ### The owner (R142) -/

/-- R142: the line-start mark whose lead point the knife coordinate has reached, with the cut length of its lead. -/
def State.leadReached (s : State) : Option (ChangeMark × Nat) :=
  (s.changes.find? fun m =>
    m.outgoing.isNone && reached (knifeCoord s) (shiftBy m.p (-((s.inCut m.uid / 2 : Nat) : Int)))).map
      fun m => (m, s.inCut m.uid)

/-- R142: whether the owner changes at this count by the knife coordinate alone. -/
def State.ownerDue (s : State) : Bool :=
  match s.knife.owner with
  | .unassigned => s.leadReached.isSome
  | .segment mark => (s.findChange mark).any fun m => reached (knifeCoord s) m.p
  | .zone _ => false

/-- R142: the owner passes at a lead point, where the grid starts (R143), or at the P of the owning segment. -/
def State.passOwner (s : State) : State :=
  match s.knife.owner with
  | .unassigned =>
    match s.leadReached with
    | some (m, l) =>
      s.setKnife fun k => { k with owner := .zone m.uid, grid := some ⟨.lead m.uid, m.p, l, false⟩ }
    | none => s
  | .segment mark =>
    match s.findChange mark with
    | some m => if reached (knifeCoord s) m.p then s.setKnife fun k => { k with owner := .zone mark } else s
    | none => s
  | .zone _ => s

/-- R142: the knife crossing of a mark with an incoming order: the zone passes to the incoming segment, or past a void one
to the zone of the later mark. -/
def State.knifeCrossing (s : State) (m : ChangeMark) : State :=
  if s.knife.owner = .zone m.uid then
    match s.nextChange m.uid with
    | some next =>
      s.setKnife fun k => { k with owner := if next.isVoid then .zone next.uid else .segment next.uid }
    | none => s
  else s

end Sys2Proof.Machine
end

