-- ==== Sys2Proof/Machine/BondOps.lean ====
section
/-! DEFINITION. Shared operations of the bond controller: the switch of a unit (R162), the wrap curve and the slew step
(R163, R164), the glue gap and the bump (R165 to R167), setpoints (R168). -/

namespace Sys2Proof.Machine

open Sys2Proof

/-- R168: a BOND_SETPOINT of a unit is queued. -/
def State.queueSetpoint (s : State) (u : BondUnit) (value : Nat) : State := s.enqueue (.bondSetpoint u value)

/-! ### Glue units -/

/-- R165: the gap of a glue channel, from its fields. -/
def GlueChannel.gapNow (c : GlueChannel) : Nat :=
  match c.active with
  | none => c.gap
  | some a => if c.bumpEnd.isSome then min 1500 (a.values.base + a.values.bump) else a.values.base

/-- R165: the gap is recomputed; where it differs, the channel takes it and queues it. -/
def State.regap (s : State) (g : GlueUnit) : State :=
  let c := s.glue.get g
  if c.gapNow = c.gap then s else (s.setGlue g { c with gap := c.gapNow }).queueSetpoint (.glue g) c.gapNow

/-- R166: the bump end after a joint's crossing whose new end is e at bump length b. -/
def bumpAfter (before? : Option Coord) (b : Nat) (e : Coord) : Option Coord :=
  match before? with
  | none => if b = 0 then none else some e
  | some old => if atOrAfter e old then some e else some old

/-- R166: a JOINT mark's glue crossing at unit g. -/
def State.jointAt (s : State) (g : GlueUnit) : State :=
  let c := s.glue.get g
  let b := bumpLength s.config
  (s.setGlue g { c with bumpEnd := bumpAfter c.bumpEnd b (plusMm s.odometer b) }).regap g

/-- R167: the odometer has reached the bump end of a unit. -/
def State.bumpDue (s : State) (g : GlueUnit) : Bool :=
  match (s.glue.get g).bumpEnd with
  | some e => reached s.odometer e
  | none => false

/-- R167: a glue channel whose bump end has been reached ends its bump. -/
def State.endBump (g : GlueUnit) (s : State) : State :=
  if s.bumpDue g then (s.setGlue g { s.glue.get g with bumpEnd := none }).regap g else s

/-! ### Preheaters -/

/-- R163: one segment of the wrap curve at speed v, rounded to the nearest 0.1 %, half-way upward. -/
def wrapBetween (p q : Breakpoint) (v : Nat) : Int :=
  let span : Int := 10 * (q.speed : Int) - 10 * (p.speed : Int)
  (p.wrap : Int) + (2 * ((q.wrap : Int) - (p.wrap : Int)) * ((v : Int) - 10 * (p.speed : Int)) + span) / (2 * span)

/-- R163: the target wrap of a curve at line speed v, in 0.1 %, clamped to 0..1,000. -/
def Curve.target (c : Curve) (v : Nat) : Nat :=
  let w : Int :=
    if v ≤ 10 * c.b0.speed then c.b0.wrap
    else if 10 * c.b3.speed ≤ v then c.b3.wrap
    else if v < 10 * c.b1.speed then wrapBetween c.b0 c.b1 v
    else if v < 10 * c.b2.speed then wrapBetween c.b1 c.b2 v
    else wrapBetween c.b2 c.b3 v
  (max 0 (min 1000 w)).toNat

/-- R164: the output moves toward the target by at most the slew. -/
def slewToward (output target slew : Nat) : Nat :=
  if output < target then min (output + slew) target else max (output - slew) target

/-- R164: one slew step of a preheater channel. -/
def State.slewStep (k : Stand) (s : State) : State :=
  let c := s.preheaters.get k
  match c.active with
  | none => s
  | some a =>
    let t := a.curve.target s.speed
    let out := slewToward c.output t (wrapSlew s.config)
    let u := s.setPreheater k { c with target := some t, output := out }
    if out = c.output then u else u.queueSetpoint (.ph k) out

/-! ### Switching at a crossing (R162) -/

/-- R168: a unit that switches while its last sent value is absent and none is queued sends its first value. -/
def State.firstValue (s : State) (u : BondUnit) (lastSent : Option Nat) (value : Nat) : State :=
  if lastSent.isNone && !s.setpointQueued u then s.queueSetpoint u value else s

/-- R162: PH k switches to the incoming grade. -/
def State.switchPreheater (s : State) (k : Stand) (g : Grade) : State :=
  let c := s.preheaters.get k
  (s.setPreheater k { c with active := some ⟨g.fields.number, g.fields.curves.get k⟩ }).firstValue (.ph k) c.lastSent
    c.output

/-- R162: a glue unit switches to the incoming grade; its gap is recomputed at once. -/
def State.switchGlue (s : State) (u : GlueUnit) (g : Grade) : State :=
  let c := s.glue.get u
  let t := (s.setGlue u { c with active := some ⟨g.fields.number, g.fields.glue.get u⟩ }).regap u
  t.firstValue (.glue u) c.lastSent (t.glue.get u).gap

/-- R56: the entry of the incoming order of a mark. -/
def State.incomingGrade (s : State) (m : ChangeMark) : Option Grade :=
  match m.incoming with
  | some n => (s.findOrder n).bind fun o => s.findGrade o.fields.grade
  | none => none

/-- R162, R168: the output or gap a unit commands now, where it has an active grade. -/
def State.commanded (s : State) : BondUnit → Option Nat
  | .ph k => if (s.preheaters.get k).active.isSome then some (s.preheaters.get k).output else none
  | .glue g => if (s.glue.get g).active.isSome then some (s.glue.get g).gap else none

/-- The eight units in the order PH1 to PH5, G1 to G3. -/
def bondUnits : List BondUnit := Stand.all.map .ph ++ GlueUnit.all.map .glue

end Sys2Proof.Machine
end

