-- ==== Sys2Proof/WellFormed.lean ====
section
/-! DEFINITION. When a command is one that the part's own frame tests pass: the body lengths of R190 and R192 for the
host requests, the field ranges of R176 for the station reports. An ill-formed command still has its meaning: the
FORMAT refusal of R190 or the discarded report of R177. -/

namespace Sys2Proof

/-- The value of the byte at place i of a body, 0 beyond its end. -/
def byteAt (body : List Byte) (i : Nat) : Nat := (body.getD i 0#8).toNat

/-- The body length of an order body agrees with the slit and score counts it declares, and keeps within the 124 bytes
of R190 (R192). -/
def orderBodyLengthOk (body : List Byte) : Bool :=
  14 ≤ body.length && body.length = 14 + 2 * (byteAt body 12 + byteAt body 13) && body.length ≤ 124

/-- The body length R192's table gives for each kind of request; true for a command that is no request. -/
def Instr.bodyLengthOk : Instr → Bool
  | .null b | .readLine b | .readConfig b | .lineReset b | .readErrors b | .releaseHold b | .collect b
  | .readSlitter b | .readKnife b | .refreshBond b | .readBond b => b.length = 0
  | .configure b => b.length % 5 = 0 && 5 ≤ b.length && b.length ≤ 120
  | .setErrorPolicy b => b.length = 6
  | .clearErrors b | .readGrade b => b.length = 3
  | .enterOrder b | .amendOrder b => orderBodyLengthOk b
  | .scheduleOrder b | .readMarks b => b.length = 5
  | .unscheduleOrder b | .rushOrder b | .cancelOrder b | .retireOrder b | .readOrder b | .retireGrade b
  | .withdrawReel b | .threadReel b | .readReel b => b.length = 2
  | .readSequence b | .unthreadReel b | .requestSplice b | .clearStand b | .readStand b | .clearStation b
  | .readStationQueues b => b.length = 1
  | .enterGrade b | .amendGrade b => b.length = 104
  | .placeCull b => b.length = 8
  | .announceReel b => b.length = 13
  | .forwardCount | .reverseCount | .speedWindowClose | .lineStopped | .cutPulse | .jointPulse _ | .deviceReset
  | .reelLoaded _ _ _ | .reelRemoved _ _ | .diameter _ _ _ | .setPositions _ _ | .stackTaken | .malformedReport _
  | .reportFrameTimeout | .spliceTimeout _ | .setTimeout _ | .diameterStale _ | .runOut _ | .bumpEnd _
  | .arbiterTake | .spliceGo | .speedCap | .knifeSchedule | .slitterSet | .slitterExchange | .stackChange
  | .bondSetpoint | .requestFrameRefused _ => true

/-- The ranges within which the link accepts a report's fields (R176). -/
def Instr.reportFieldsOk : Instr → Bool
  | .reelLoaded _ _ id => id ≤ 99999999
  | .diameter _ _ d => d ≤ 65535
  | .setPositions _ ps => ps.length ≤ 20 && ps.all (· ≤ 65535)
  | _ => true

/-- A command the part's frame tests pass. -/
def Instr.wf (i : Instr) : Bool := i.bodyLengthOk && i.reportFieldsOk

end Sys2Proof
end

