-- ==== Sys2Proof/Machine/Operands.lean ====
section
/-! DEFINITION. Request bodies read and response bodies written: the encodings and central layouts of R192, the order and
grade bodies with their range tests (R25 to R27, R48). -/

namespace Sys2Proof.Machine

open Sys2Proof

/-! ### Integers (R192) -/

/-- R192: an unsigned big-endian integer of a body. -/
def bigEndian (bs : List Byte) : Nat := bs.foldl (fun a b => a * 256 + b.toNat) 0

/-- The integer of n bytes at an offset of a body. -/
def field (body : List Byte) (off n : Nat) : Nat := bigEndian ((body.drop off).take n)

def coordField (body : List Byte) (off : Nat) : Coord := BitVec.ofNat 32 (field body off 4)

/-- R194: a configuration value, signed 32-bit two's complement. -/
def signedField (body : List Byte) (off : Nat) : Int := (coordField body off).toInt

/-- R189: a byte's bits, most significant bit first. -/
def bitsOfByte (b : Byte) : List Bool :=
  [b.getMsbD 0, b.getMsbD 1, b.getMsbD 2, b.getMsbD 3, b.getMsbD 4, b.getMsbD 5, b.getMsbD 6, b.getMsbD 7]

/-- R192: a number as n bytes, big-endian. -/
def bytesOf (n v : Nat) : List Byte := (List.range n).map fun i => BitVec.ofNat 8 (v / 256 ^ (n - 1 - i))

def byteOf (v : Nat) : List Byte := bytesOf 1 v
def coordBytes (c : Coord) : List Byte := bytesOf 4 c.toNat
def boolNat (b : Bool) : Nat := if b then 1 else 0
def boolByte (b : Bool) : List Byte := byteOf (boolNat b)

/-- R192: an item preceded by its presence byte; an absent item's n bytes follow as zeros. -/
def optional (n : Nat) (x : Option (List Byte)) : List Byte :=
  match x with
  | some bs => byteOf 1 ++ bs
  | none => byteOf 0 ++ List.replicate n 0#8

def optNum (n : Nat) (x : Option Nat) : List Byte := optional n (x.map (bytesOf n))
def optCoord (x : Option Coord) : List Byte := optional 4 (x.map coordBytes)

/-- A name of an enumeration the manual does not number (log entry 4). -/
def codeByte (t : Config.CodeTable) (i : Nat) : List Byte := [Config.enumCode t i]

/-! ### Enumerated items (R192) -/

def standOf : Nat → Option Stand
  | 1 => some .l1 | 2 => some .m1 | 3 => some .l2 | 4 => some .m2 | 5 => some .l3
  | _ => none

def posOf : Nat → Option Pos
  | 1 => some .a | 2 => some .b
  | _ => none

def stationOf : Nat → Option Station
  | 1 => some .a | 2 => some .b
  | _ => none

def standCode (k : Stand) : Nat := k.idx + 1
def posCode (p : Pos) : Nat := p.idx + 1

def stationCode : Station → Nat
  | .a => 1 | .b => 2

/-- R183: the five classes by their number. -/
def classOf : Nat → Option LinkClass
  | 1 => some .splice | 2 => some .knife | 3 => some .slitter | 4 => some .stacker | 5 => some .bond
  | _ => none

/-! ### The order body (R25 to R27, R192) -/

/-- The positions of a body: n two-byte integers from an offset. -/
def positionsAt (body : List Byte) (off n : Nat) : List Nat := (List.range n).map fun i => field body (off + 2 * i) 2

/-- R192: the order body of ENTER ORDER and AMEND ORDER. -/
def readOrderBody (b : List Byte) : OrderDef :=
  { number := field b 0 2, grade := field b 2 2, cutLength := field b 4 2, quantity := field b 6 3,
    allowance := field b 9 1, stackSize := field b 10 2,
    pattern := ⟨positionsAt b 14 (byteAt b 12), positionsAt b (14 + 2 * byteAt b 12) (byteAt b 13)⟩ }

/-- The test that each position is followed by one at least gap beyond it. -/
def ascendingBy (gap : Nat) : List Nat → Bool
  | x :: y :: rest => decide (x + gap ≤ y) && ascendingBy gap (y :: rest)
  | _ => true

/-- R26: the pattern rules. -/
def Pattern.valid (p : Pattern) : Bool :=
  ascendingBy 500 p.slits && ascendingBy 1 p.scores && p.scores.all fun x => !p.slits.contains x

/-- R25: a value lies in its range, ends included. -/
def inRange (lo hi v : Nat) : Bool := decide (lo ≤ v) && decide (v ≤ hi)

/-- R25: the range of Q. -/
def quantityOk (q : Nat) : Bool := inRange 1 999999 q

/-- R25: the range of the stack size. -/
def stackSizeOk (n : Nat) : Bool := inRange 5 2000 n

/-- R25, R26: every defining field lies in its range and the pattern keeps its rules. -/
def OrderDef.valid (d : OrderDef) : Bool :=
  inRange 1 65535 d.number && inRange 1 9999 d.grade && inRange 350 6000 d.cutLength
    && inRange 2 8 d.pattern.slits.length && d.pattern.slits.all (inRange 0 25000)
    && inRange 0 12 d.pattern.scores.length && d.pattern.scores.all (inRange 0 25000)
    && quantityOk d.quantity && inRange 0 200 d.allowance && stackSizeOk d.stackSize
    && d.pattern.valid

/-- R27: the largest span the order could be planned to does not exceed 1,000,000,000 mm. -/
def OrderDef.spanOk (d : OrderDef) : Bool :=
  decide ((ceilDiv d.quantity d.pattern.outs + d.allowance) * d.cutLength ≤ 1000000000)

/-! ### The grade body (R48, R192) -/

def breakpointAt (b : List Byte) (off : Nat) : Breakpoint := ⟨field b off 2, field b (off + 2) 2⟩

def curveAt (b : List Byte) (k : Nat) : Curve :=
  let off := 12 + 16 * k
  ⟨breakpointAt b off, breakpointAt b (off + 4), breakpointAt b (off + 8), breakpointAt b (off + 12)⟩

def glueAt (b : List Byte) (g : Nat) : GlueValues := ⟨field b (92 + 4 * g) 2, field b (94 + 4 * g) 2⟩

/-- R192: the grade body of ENTER GRADE and AMEND GRADE. -/
def readGradeBody (b : List Byte) : GradeDef :=
  { number := field b 0 2
    codes := ⟨field b 2 2, field b 4 2, field b 6 2, field b 8 2, field b 10 2⟩
    curves := ⟨curveAt b 0, curveAt b 1, curveAt b 2, curveAt b 3, curveAt b 4⟩
    glue := ⟨glueAt b 0, glueAt b 1, glueAt b 2⟩ }

/-- R48: the ranges of a curve and the strict ascent of its speeds. -/
def Curve.valid (c : Curve) : Bool :=
  [c.b0, c.b1, c.b2, c.b3].all (fun p => inRange 0 450 p.speed && inRange 0 1000 p.wrap)
    && decide (c.b0.speed < c.b1.speed) && decide (c.b1.speed < c.b2.speed) && decide (c.b2.speed < c.b3.speed)

def gradeNumberOk (n : Nat) : Bool := inRange 1 9999 n

/-- R48: the ranges of an entry but its number. -/
def GradeDef.valuesOk (d : GradeDef) : Bool :=
  Stand.all.all (fun k => inRange 1 65535 (d.codes.get k) && (d.curves.get k).valid)
    && GlueUnit.all.all fun g => inRange 0 1500 (d.glue.get g).base && inRange 0 500 (d.glue.get g).bump

/-! ### The order record (R192) -/

def orderStateCode : OrderState → Nat
  | .entered => 0 | .queued => 1 | .running => 2 | .suspended => 3 | .done => 4

def outcomeCode : OrderOutcome → Nat
  | .complete => 0 | .short => 1 | .cancelled => 2 | .aborted => 3

/-- Bytes 0..11 of the order body. -/
def orderHead (d : OrderDef) : List Byte :=
  bytesOf 2 d.number ++ bytesOf 2 d.grade ++ bytesOf 2 d.cutLength ++ bytesOf 3 d.quantity ++ bytesOf 1 d.allowance
    ++ bytesOf 2 d.stackSize

/-- R192: the order record of READ ORDER and COLLECT. -/
def orderRecord (s : State) (o : Order) : List Byte :=
  let next := if o.state = .queued then followerIn o.fields.number s.runSeq else none
  let flags := boolNat o.rush + 2 * boolNat o.cancel + 4 * boolNat o.stacked + 8 * boolNat o.attention
    + 16 * boolNat o.outcome.isSome + 32 * boolNat next.isSome
  let r := o.byReason
  bytesOf 1 o.slot ++ orderHead o.fields ++ bytesOf 1 (orderStateCode o.state)
    ++ bytesOf 1 ((o.outcome.map outcomeCode).getD 0) ++ bytesOf 1 flags ++ bytesOf 2 (next.getD 0)
    ++ bytesOf 1 o.segments ++ bytesOf 3 o.goodCuts ++ bytesOf 3 o.cullCuts
    ++ bytesOf 3 r.change ++ bytesOf 3 r.gap ++ bytesOf 3 r.joint ++ bytesOf 3 r.host ++ bytesOf 3 r.deviation
    ++ bytesOf 2 o.stacksClosed ++ bytesOf 2 o.stackFill ++ bytesOf 4 o.goodSheets ++ bytesOf 1 o.fields.pattern.outs
    ++ bytesOf 1 o.fields.pattern.slits.length ++ bytesOf 1 o.fields.pattern.scores.length
    ++ o.fields.pattern.slits.flatMap (bytesOf 2) ++ o.fields.pattern.scores.flatMap (bytesOf 2)

/-! ### The mark record (R17, R192) -/

/-- R192: the codes of the next crossing. -/
def crossCode : Cross → Nat
  | .freeze => 1 | .ph k => 2 + k.idx | .glue g => 7 + g.idx | .decision => 10 | .knife => 11

/-- R14, R15: a crossing is still pending. -/
def CrossEntry.isPending (e : CrossEntry) : Bool :=
  match e.status with
  | .pending | .rearmed => true
  | _ => false

/-- R17: the code of the first crossing still pending, in the order of R14's table; 0 for none. -/
def nextCrossingCode (es : List CrossEntry) : Nat :=
  match es.find? CrossEntry.isPending with
  | some e => crossCode e.name
  | none => 0

def markStateCode : MarkState → Nat
  | .provisional => 0 | .frozen => 1 | .runOut => 2

def coordOr0 (c : Option Coord) : List Byte := coordBytes (c.getD 0#32)

/-- R192: the 30 bytes of a mark record. -/
def markRecord (m : Mark) : List Byte :=
  match m with
  | .change c =>
    let flags := markStateCode c.state + 4 * boolNat c.pinned + 8 * boolNat c.length.isSome
      + 16 * boolNat c.outgoing.isSome + 32 * boolNat c.incoming.isSome
    byteOf 1 ++ byteOf flags ++ coordBytes c.p ++ coordOr0 c.stop
      ++ bytesOf 2 ((c.outgoing.map (·.order)).getD 0) ++ coordOr0 (c.outgoing.map (·.start))
      ++ bytesOf 2 ((c.outgoing.map (·.cutLength)).getD 0) ++ bytesOf 2 (c.incoming.getD 0) ++ coordBytes c.xEx
      ++ bytesOf 2 c.extensions ++ bytesOf 3 c.waste ++ bytesOf 1 (nextCrossingCode c.crossings)
  | .joint j =>
    byteOf 2 ++ byteOf 8 ++ coordBytes m.start ++ coordOr0 m.stop ++ coordBytes j.joint ++ byteOf (standCode j.stand)
      ++ bytesOf 2 j.cullBefore ++ bytesOf 2 j.cullAfter ++ byteOf (nextCrossingCode j.crossings)
      ++ List.replicate 10 0#8
  | .gap g =>
    byteOf 3 ++ byteOf 8 ++ coordBytes m.start ++ coordOr0 m.stop ++ bytesOf 4 g.length ++ byteOf (standCode g.stand)
      ++ List.replicate 15 0#8
  | .host h =>
    byteOf 4 ++ byteOf 8 ++ coordBytes m.start ++ coordOr0 m.stop ++ bytesOf 4 h.length ++ List.replicate 16 0#8

/-! ### The reel record (R192) -/

def reelStateCode : Reel → Nat
  | .empty _ => 0 | .loaded _ _ => 1 | .announced _ => 2 | .verified _ => 3 | .mismatch _ _ _ => 4
  | .running _ _ _ => 5 | .unidentified _ _ => 6 | .exhausted _ => 7

/-- R82: the fields of a slot that are present in its state. -/
def Reel.readId? : Reel → Option Nat
  | .loaded id _ | .mismatch id _ _ | .unidentified id _ => some id
  | .verified p | .running p _ _ | .exhausted p => some p.readId
  | .empty _ | .announced _ => none

def Reel.announcement? : Reel → Option Announcement
  | .announced a | .mismatch _ a _ => some a
  | .verified p | .running p _ _ | .exhausted p => some p.ann
  | .empty _ | .loaded _ _ | .unidentified _ _ => none

def Reel.diameter? : Reel → Option Nat
  | .loaded _ d | .mismatch _ _ d | .unidentified _ d => some d
  | .verified p | .running p _ _ | .exhausted p => some p.diameter
  | .empty _ | .announced _ => none

def Reel.paper? : Reel → Option Paper
  | .verified p | .running p _ _ | .exhausted p => some p
  | _ => none

def Reel.force : Reel → Bool
  | .announced a | .mismatch _ a _ => a.force
  | _ => false

/-- R192: the 36 bytes of a reel record. -/
def reelRecord (s : State) (k : Stand) (p : Pos) : List Byte :=
  let x := s.slot k p
  let r := x.reel
  let role := if s.runningPos k = some p then 1 else if s.readyPos k = some p then 2 else 0
  let stale := match r with
    | .running _ st t => some (st, t)
    | _ => none
  let spent := match r with
    | .empty sp => sp
    | _ => none
  let flags := boolNat ((r.paper?.map (·.limited)).getD false) + 2 * boolNat ((stale.map (·.1)).getD false)
    + 4 * boolNat r.force + 8 * boolNat x.attention
  let presence := boolNat r.readId?.isSome + 2 * boolNat r.announcement?.isSome + 4 * boolNat r.diameter?.isSome
    + 8 * boolNat r.paper?.isSome + 16 * boolNat stale.isSome + 32 * boolNat spent.isSome
  let ann := r.announcement?
  byteOf (2 * k.idx + p.idx) ++ byteOf (reelStateCode r) ++ byteOf role ++ byteOf flags ++ byteOf presence
    ++ bytesOf 4 (r.readId?.getD 0)
    ++ bytesOf 4 ((ann.map (·.id)).getD 0) ++ bytesOf 2 ((ann.map (·.code)).getD 0)
    ++ bytesOf 2 ((ann.map (·.caliper)).getD 0) ++ bytesOf 2 ((ann.map (·.core)).getD 0)
    ++ bytesOf 2 (r.diameter?.getD 0)
    ++ bytesOf 3 ((r.paper?.map (·.remaining)).getD 0) ++ bytesOf 2 ((r.paper?.map (·.residue)).getD 0)
    ++ bytesOf 3 ((stale.map (·.2)).getD 0)
    ++ bytesOf 4 ((spent.map (·.id)).getD 0) ++ bytesOf 3 ((spent.map (·.length)).getD 0)

/-! ### The error record and status sets (R192) -/

/-- The object of a raise: its type and its value. -/
def objectBytes : ErrorObject → List Byte
  | .none => byteOf 0 ++ bytesOf 2 0
  | .order n => byteOf 1 ++ bytesOf 2 n
  | .stand k => byteOf 2 ++ bytesOf 2 (standCode k)
  | .station st => byteOf 3 ++ bytesOf 2 (stationCode st)
  | .address a => byteOf 4 ++ bytesOf 2 a

/-- R192: the 9 bytes of the error record; zeros where no record is held. -/
def errorRecord (f : Option FirstError) : List Byte :=
  match f with
  | none => List.replicate 9 0#8
  | some e =>
    byteOf e.kind.number ++ byteOf (1 + 2 * boolNat e.unreported + 4 * boolNat e.overflow) ++ objectBytes e.object
      ++ coordBytes e.odometer

/-- R192: a status set as three bytes. -/
def statusSet (v : BitVec 18) : List Byte := bytesOf 3 v.toNat

/-- R192: a status set read from three bytes, bits not defined ignored. -/
def readStatusSet (body : List Byte) (off : Nat) : BitVec 18 := BitVec.ofNat 18 (field body off 3)

/-! ### Commands of the link, for READ STATION QUEUES (R183) -/

def unitIndex : BondUnit → Nat
  | .ph k => k.idx
  | .glue g => 5 + g.idx

/-- The items of a pattern: slit count, score count and the positions, filled up to the 20 places of R126. -/
def patternBytes (p : Pattern) : List Byte :=
  let ps := p.slits ++ p.scores
  byteOf p.slits.length ++ byteOf p.scores.length ++ ps.flatMap (bytesOf 2) ++ List.replicate (40 - 2 * ps.length) 0#8

/-- The items a command carries (R179), as READ STATION QUEUES and the frame of the command hold them. R179 gives neither
widths nor order of bytes; the byte after the slit count of SLITTER_SET, the number of positions that follow, is not in
R179's list: without it the score count could not be read (DESIGN CHOICE, log entries 4 and 38). A stack number stands in
3 bytes, since stacks closed + 1 reaches 65,536. -/
def commandItems : Command → List Byte
  | .spliceGo k p _ => byteOf (standCode k) ++ byteOf (posCode p)
  | .speedCap l => optNum 2 l
  | .knifeSchedule x len n => coordBytes x ++ bytesOf 2 len ++ optNum 2 n
  | .slitterSet st p _ =>
    byteOf (stationCode st) ++ byteOf p.slits.length ++ byteOf (p.slits.length + p.scores.length)
      ++ (p.slits ++ p.scores).flatMap (bytesOf 2)
  | .slitterExchange e l x _ => byteOf (stationCode e) ++ optNum 1 (l.map stationCode) ++ optCoord x
  | .stackChange o n c f => bytesOf 2 o ++ bytesOf 3 n ++ bytesOf 2 c ++ boolByte f
  | .bondSetpoint u v => codeByte .commandUnit (unitIndex u) ++ bytesOf 2 v

def commandIndex : Command → Nat
  | .spliceGo _ _ _ => 0 | .speedCap _ => 1 | .knifeSchedule _ _ _ => 2 | .slitterSet _ _ _ => 3
  | .slitterExchange _ _ _ _ => 4 | .stackChange _ _ _ _ => 5 | .bondSetpoint _ _ => 6

/-- R183: a command as its kind, its address and its items. -/
def commandBytes (c : Command) : List Byte :=
  codeByte .commandKind (commandIndex c) ++ byteOf c.address ++ commandItems c

end Sys2Proof.Machine
end

