-- ==== Sys2Proof/Machine/Flags.lean ====
section
/-! DEFINITION. The flags formed from the records: the attention condition and the two output pins (R186, R205), the line
flags of READ LINE (R196), the fatal test (R203, R204). -/

namespace Sys2Proof.Machine

open Sys2Proof

/-- R205: the statuses that are set and unmasked. -/
def Errors.unmasked (e : Errors) : BitVec 18 := e.status &&& ~~~e.mask

/-- R204: some status is set, unmasked and FATAL. -/
def Errors.fatalSet (e : Errors) : Bool := (e.unmasked &&& e.severity) != 0#18

/-- R199: the first-error record is held and unreported. -/
def Errors.unreported (e : Errors) : Bool :=
  match e.first with
  | some f => f.unreported
  | none => false

/-- The ten reel slots in slot order, each with its stand and position (R82). -/
def slotPlaces : List (Stand × Pos) := Stand.all.flatMap fun k => [(k, .a), (k, .b)]

/-- R205: something waits for the host, so ATTN is held low. -/
def State.attnLow (s : State) : Bool :=
  s.orders.any (·.attention) || slotPlaces.any (fun x => (s.slot x.1 x.2).attention)
    || s.errors.unmasked != 0#18 || s.errors.unreported

/-- R186, R203: STOPREQ is held low exactly while the line state is HOLD. -/
def State.stopReqLow (s : State) : Bool := s.errors.hold

/-- R174: LNK_DE is high for the length of each command frame, while a command is in the place for sending. -/
def State.lnkDeHigh (s : State) : Bool := s.link.place.isSome

/-- R196: the line flags. -/
def State.lineFlags (s : State) : Nat :=
  boolNat s.stopped + 2 * boolNat s.reverseRun + 4 * boolNat s.errors.hold + 8 * boolNat s.stopReqLow
    + 16 * boolNat s.attnLow + 32 * boolNat s.errors.first.isSome + 64 * boolNat s.errors.unreported

end Sys2Proof.Machine
end

