-- ==== Sys2Proof/Machine/Serve.lean ====
section
/-! DEFINITION. How the request port takes a request (R190, R191): the block's tests either refuse it with a status, which
leaves every record as it was, or give the response and the state after it. -/

namespace Sys2Proof.Machine

open Sys2Proof

/-- What a request that is taken gives: OK or CLAMPED, the response body, the state after it. -/
structure Reply where
  status : Status
  body : List Byte
  state : State

/-- A request as its block answers it: refused with a status, or taken. -/
abbrev Answer := Except Status Reply

/-- A request answered OK with a body. -/
def done (s : State) (body : List Byte) : Answer := .ok ⟨.ok, body, s⟩

/-- The test fails, so the request is refused with the status; otherwise go on. -/
def refuseIf (test : Bool) (st : Status) (next : Answer) : Answer := if test then .error st else next

/-- R190, R191: the response to a request of the kind becomes the pending response. -/
def answered (kind : Nat) (s : State) : Answer → State
  | .error st => s.respond (BitVec.ofNat 8 kind) st []
  | .ok r => r.state.respond (BitVec.ofNat 8 kind) r.status r.body

end Sys2Proof.Machine
end

