-- ==== Sys2Proof/Machine/Grades.lean ====
section
/-! DEFINITION. The requests of the grade table (R50 to R53). -/

namespace Sys2Proof.Machine

open Sys2Proof

/-- R47: the free slots of the grade table. -/
def State.freeGrades (s : State) : Nat := Config.gradeSlots - s.grades.length

/-- R50: ENTER GRADE. -/
def answerEnterGrade (body : List Byte) (s : State) : Answer :=
  let d := readGradeBody body
  refuseIf (body.length != 104) .format <|
  refuseIf (!(gradeNumberOk d.number && d.valuesOk)) .range <|
  refuseIf (s.findGrade d.number).isSome .exists <|
  refuseIf (s.freeGrades == 0) .full <|
    let slot := lowestFree (s.grades.map (·.slot)) Config.gradeSlots
    let t : State := { s with grades := s.grades ++ [⟨slot, d, 0, 0⟩] }
    done t (byteOf slot ++ byteOf t.freeGrades)

/-- R51: AMEND GRADE. -/
def answerAmendGrade (body : List Byte) (s : State) : Answer :=
  let d := readGradeBody body
  refuseIf (body.length != 104) .format <|
  refuseIf (!gradeNumberOk d.number) .range <|
    match s.findGrade d.number with
    | none => .error .noSuch
    | some g =>
      refuseIf (!d.valuesOk) .range <|
      refuseIf (g.active != 0) .inUse <|
        done (s.updateGrade d.number fun x => { x with fields := d }).recheckAll []

/-- R52: RETIRE GRADE. -/
def answerRetireGrade (body : List Byte) (s : State) : Answer :=
  let n := field body 0 2
  refuseIf (body.length != 2) .format <|
  refuseIf (!gradeNumberOk n) .range <|
    match s.findGrade n with
    | none => .error .noSuch
    | some g =>
      refuseIf (g.refs != 0) .inUse <|
        let t : State := { s with grades := s.grades.filter fun x => x.fields.number != n }
        done t.recheckAll (byteOf t.freeGrades)

/-- A curve as its four pairs of speed and wrap, as R192 and R170 list it; in READ GRADE's response: log entry 54. -/
def curveBytes (c : Curve) : List Byte :=
  [c.b0, c.b1, c.b2, c.b3].flatMap fun p => bytesOf 2 p.speed ++ bytesOf 2 p.wrap

/-- The glue values of one unit as a pair of base gap and joint bump, as in R192's grade body; that READ GRADE's response
has the same pairs is the model's choice (DESIGN CHOICE, log entry 54). -/
def glueBytes (v : GlueValues) : List Byte := bytesOf 2 v.base ++ bytesOf 2 v.bump

/-- R53: an entry as READ GRADE returns it. R53 gives the items and no layout: that the defining fields stand as in R192's
grade body, the base gap and joint bump of each unit together and not R48's three base gaps before three joint bumps, and
the widths of the slot number and the two counts are the model's choice (DESIGN CHOICE, log entry 54). -/
def gradeBytes (g : Grade) : List Byte :=
  bytesOf 2 g.fields.number ++ byteOf g.slot ++ Stand.all.flatMap (fun k => bytesOf 2 (g.fields.codes.get k))
    ++ Stand.all.flatMap (fun k => curveBytes (g.fields.curves.get k))
    ++ GlueUnit.all.flatMap (fun u => glueBytes (g.fields.glue.get u))
    ++ byteOf g.refs ++ byteOf g.active

/-- The length of an entry as READ GRADE returns it (log entry 54). -/
def gradeLength : Nat := 107

/-- R53: the entry with the lowest number above n. -/
def State.gradeAbove (s : State) (n : Nat) : Option Grade :=
  (s.grades.filter fun g => n < g.fields.number).foldl
    (fun best g => match best with
      | none => some g
      | some b => if g.fields.number < b.fields.number then some g else some b) none

/-- R53: READ GRADE. -/
def answerReadGrade (body : List Byte) (s : State) : Answer :=
  let n := field body 0 2
  let mode := field body 2 1
  refuseIf (body.length != 3) .format <|
  refuseIf (decide (9999 < n) || decide (1 < mode)) .range <|
    if mode = 0 then
      match s.findGrade n with
      | none => .error .noSuch
      | some g => done s (optional gradeLength (some (gradeBytes g)))
    else done s (optional gradeLength ((s.gradeAbove n).map gradeBytes))

def takeEnterGrade (body : List Byte) (s : State) : State := answered 0x20 s (answerEnterGrade body s)
def takeAmendGrade (body : List Byte) (s : State) : State := answered 0x21 s (answerAmendGrade body s)
def takeRetireGrade (body : List Byte) (s : State) : State := answered 0x22 s (answerRetireGrade body s)
def takeReadGrade (body : List Byte) (s : State) : State := answered 0x23 s (answerReadGrade body s)

def execEnterGrade (body : List Byte) (s : State) : Host.Outcome State Fault Refusal := .next (takeEnterGrade body s)
def execAmendGrade (body : List Byte) (s : State) : Host.Outcome State Fault Refusal := .next (takeAmendGrade body s)
def execRetireGrade (body : List Byte) (s : State) : Host.Outcome State Fault Refusal := .next (takeRetireGrade body s)
def execReadGrade (body : List Byte) (s : State) : Host.Outcome State Fault Refusal := .next (takeReadGrade body s)

end Sys2Proof.Machine
end

