-- ==== Sys2Proof/Machine/Bond.lean ====
section
/-! DEFINITION. The commands of the bond controller: REFRESH BOND (R169), READ BOND (R170) and the end of a bump (R167). -/

namespace Sys2Proof.Machine

open Sys2Proof

/-- The units that REFRESH BOND sends: those that have an active grade (R169). -/
def State.activeUnits (s : State) : List BondUnit := bondUnits.filter fun u => (s.commanded u).isSome

/-- R169: the current value of a unit is queued; a unit without an active grade queues nothing. -/
def State.refreshUnit (u : BondUnit) (s : State) : State :=
  match s.commanded u with
  | some v => s.queueSetpoint u v
  | none => s

/-- R169: a BOND_SETPOINT of every unit that has an active grade is queued, in an order the manual leaves open. -/
def State.refreshAll (s : State) : State := takeEvents State.refreshUnit s.activeUnits s

/-- R169: REFRESH BOND. -/
def answerRefreshBond (body : List Byte) (s : State) : Answer :=
  refuseIf (body.length != 0) .format <|
    done s.refreshAll (byteOf s.activeUnits.length)

/-- R170: the items of a preheater channel. -/
def preheaterBytes (s : State) (k : Stand) : List Byte :=
  let c := s.preheaters.get k
  optNum 2 (c.active.map (·.grade)) ++ optional 16 (c.active.map fun a => curveBytes a.curve) ++ optNum 2 c.target
    ++ bytesOf 2 c.output ++ boolByte (s.setpointQueued (.ph k)) ++ optNum 2 c.lastSent

/-- R170: the items of a glue channel. -/
def channelBytes (s : State) (g : GlueUnit) : List Byte :=
  let c := s.glue.get g
  optNum 2 (c.active.map (·.grade)) ++ optNum 2 (c.active.map (·.values.base))
    ++ optNum 2 (c.active.map (·.values.bump)) ++ optCoord c.bumpEnd ++ bytesOf 2 c.gap
    ++ boolByte (s.setpointQueued (.glue g)) ++ optNum 2 c.lastSent

/-- R170: READ BOND. -/
def answerReadBond (body : List Byte) (s : State) : Answer :=
  refuseIf (body.length != 0) .format <|
    done s (bytesOf 2 s.speed ++ Stand.all.flatMap (preheaterBytes s) ++ GlueUnit.all.flatMap (channelBytes s))

def takeRefreshBond (body : List Byte) (s : State) : State := answered 0x50 s (answerRefreshBond body s)
def takeReadBond (body : List Byte) (s : State) : State := answered 0x51 s (answerReadBond body s)

def execRefreshBond (body : List Byte) (s : State) : Host.Outcome State Fault Refusal := .next (takeRefreshBond body s)
def execReadBond (body : List Byte) (s : State) : Host.Outcome State Fault Refusal := .next (takeReadBond body s)

/-- BUMP_END (R167): the event of a bump end that the odometer has reached. -/
def execBumpEnd (g : GlueUnit) (s : State) : Host.Outcome State Fault Refusal := .next (s.endBump g)

end Sys2Proof.Machine
end

