-- ==== Sys2Proof/Machine/Book.lean ====
section
/-! DEFINITION. The requests of the order book (R34 to R43) and RUSH ORDER (R77). -/

namespace Sys2Proof.Machine

open Sys2Proof

/-- R24: the free slots of the order table. -/
def State.freeOrders (s : State) : Nat := Config.orderSlots - s.orders.length

/-- R28, R34: a new record at its entry values. -/
def Order.entered (slot : Nat) (d : OrderDef) : Order :=
  { slot := slot, fields := d, state := .entered, outcome := none, rush := false, cancel := false, goodCuts := 0,
    cullCuts := 0, byReason := ⟨0, 0, 0, 0, 0⟩, segments := 0, stacked := false, stacksClosed := 0, stackFill := 0,
    attention := false }

/-- R34: ENTER ORDER. -/
def answerEnterOrder (body : List Byte) (s : State) : Answer :=
  let d := readOrderBody body
  refuseIf (!orderBodyLengthOk body) .format <|
  refuseIf (!d.valid) .range <|
  refuseIf (!d.spanOk) .range <|
  refuseIf (s.findGrade d.grade).isNone .noSuch <|
  refuseIf (s.findOrder d.number).isSome .exists <|
  refuseIf (s.freeOrders == 0) .full <|
    let slot := lowestFree (s.orders.map (·.slot)) Config.orderSlots
    let t := ({ s with orders := s.orders ++ [Order.entered slot d] } : State).gradeRefUp d.grade
    done t (byteOf slot ++ byteOf t.freeOrders)

/-- R38: every defining field but Q and the stack size agrees with the record. -/
def OrderDef.sameOthers (d e : OrderDef) : Bool :=
  decide ({ d with quantity := e.quantity, stackSize := e.stackSize } = e)

/-- R37: the new fields of an ENTERED or QUEUED order. -/
def answerAmendWaiting (d : OrderDef) (o : Order) (s : State) : Answer :=
  refuseIf (!d.valid) .range <|
  refuseIf (!d.spanOk) .range <|
  refuseIf (s.findGrade d.grade).isNone .noSuch <|
    let t := s.updateOrder d.number fun r => { r with fields := d }
    let u := if d.grade = o.fields.grade then t else (t.gradeRefDown o.fields.grade).gradeRefUp d.grade
    done u.recheckAll []

/-- R38: the new Q and stack size of a RUNNING or SUSPENDED order; a changed Q of a RUNNING order is handed to the span
planner (R75). -/
def answerAmendRunning (d : OrderDef) (o : Order) (s : State) : Answer :=
  refuseIf (!d.sameOthers o.fields) .state <|
  refuseIf (!(quantityOk d.quantity && stackSizeOk d.stackSize)) .range <|
  refuseIf (!d.spanOk) .range <|
    let t := s.updateOrder d.number fun r => { r with fields := d }
    let u := if o.state = .running ∧ d.quantity ≠ o.fields.quantity then t.amendEnd d.number else t
    done u.recheckAll []

/-- R37, R38: AMEND ORDER. -/
def answerAmendOrder (body : List Byte) (s : State) : Answer :=
  let d := readOrderBody body
  refuseIf (!orderBodyLengthOk body) .format <|
    match s.findOrder d.number with
    | none => .error .noSuch
    | some o =>
      match o.state with
      | .done => .error .state
      | .entered | .queued => answerAmendWaiting d o s
      | .running | .suspended => answerAmendRunning d o s

/-- R35: an ENTERED or QUEUED order. -/
def Order.waiting (o : Order) : Bool := o.state == .entered || o.state == .queued

/-- The state of an order after a request, as the response carries it (R35, R77). -/
def State.orderStateByte (s : State) (n : Nat) : List Byte :=
  byteOf (match s.findOrder n with
    | some o => orderStateCode o.state
    | none => 0)

/-- R35: the order is linked, or moved, to its place, losing its rush flag; a launch may follow (R61). -/
def scheduleAt (n place a : Nat) (s : State) : Answer :=
  let t := (s.unlink n).updateOrder n fun o => { o with rush := false }
  let u := match place with
    | 0 => t.linkHead n
    | 1 => t.linkTail n
    | _ => t.linkAfter a n
  let w := u.attemptLaunch.2
  done w (w.orderStateByte n ++ byteOf w.runSeq.length)

/-- R35: SCHEDULE ORDER. A place that is none of the three is refused with RANGE before the order is looked up (log
entry 19). -/
def answerScheduleOrder (body : List Byte) (s : State) : Answer :=
  let n := field body 0 2
  let place := field body 2 1
  let a := field body 3 2
  refuseIf (body.length != 5) .format <|
  refuseIf (decide (2 < place)) .range <|
    match s.findOrder n with
    | none => .error .noSuch
    | some o =>
      refuseIf (!o.waiting) .state <|
        if place = 2 then
          refuseIf (a == 0 || a == n) .range <|
            match s.findOrder a with
            | none => .error .noSuch
            | some p => refuseIf (p.state != .queued) .state (scheduleAt n place a s)
        else scheduleAt n place a s

/-- R36: UNSCHEDULE ORDER. -/
def answerUnscheduleOrder (body : List Byte) (s : State) : Answer :=
  let n := field body 0 2
  refuseIf (body.length != 2) .format <|
    match s.findOrder n with
    | none => .error .noSuch
    | some o =>
      refuseIf (o.state != .queued) .state <|
        done ((s.unlink n).updateOrder n fun r => { r with state := .entered, rush := false }) []

/-- R77: the order placed at the head with its rush flag. -/
def State.rushToHead (s : State) (n : Nat) : State :=
  ((s.unlink n).linkHead n).updateOrder n fun o => { o with rush := true }

/-- R77: the provisional end as the response of RUSH ORDER carries it. -/
def State.provisionalEnd (s : State) : Option Coord := s.provisional.map fun x => x.2.p

/-- R77: RUSH ORDER. -/
def answerRushOrder (body : List Byte) (s : State) : Answer :=
  let n := field body 0 2
  refuseIf (body.length != 2) .format <|
    match s.findOrder n with
    | none => .error .noSuch
    | some o =>
      refuseIf (!o.waiting) .state <|
      refuseIf (!s.pushPossible) .full <|
        let t := s.rushToHead n
        let w := t.curtailForRush.attemptLaunch.2
        done w (w.orderStateByte n ++ boolByte t.curtailTarget.isSome ++ optCoord w.provisionalEnd)

/-- R40: measure (b): the order's latest segment ends at the provisional mark and the mark is not pinned. -/
def State.curtailable (s : State) (n : Nat) : Bool :=
  match s.provisional with
  | some (_, m) => !m.pinned && (match m.outgoing with
    | some o => o.order == n
    | none => false)
  | none => false

/-- R40: CANCEL ORDER on a RUNNING order. -/
def answerCancelRunning (n : Nat) (o : Order) (s : State) : Answer :=
  refuseIf o.cancel .state <|
  refuseIf (!(o.stacked || s.curtailable n)) .tooLate <|
    let t := if o.stacked then s.unstack n else s
    let u := if s.curtailable n then t.curtailAndPin else t
    done (u.updateOrder n fun r => { r with cancel := true }) []

/-- R39, R40: CANCEL ORDER. -/
def answerCancelOrder (body : List Byte) (s : State) : Answer :=
  let n := field body 0 2
  refuseIf (body.length != 2) .format <|
    match s.findOrder n with
    | none => .error .noSuch
    | some o =>
      match o.state with
      | .entered => done (s.finishOrder n .cancelled) []
      | .queued =>
        done (((s.unlink n).updateOrder n fun r => { r with rush := false }).finishOrder n .cancelled) []
      | .suspended => done ((s.unstack n).finishOrder n .cancelled) []
      | .done => .error .state
      | .running => answerCancelRunning n o s

/-- R41, R154: a postponed change of a retired order counts in no record. -/
def State.retirePostponed (s : State) (n : Nat) : State :=
  s.setPostponed (s.knife.postponed.map fun p => if p.order = n then { p with retired := true } else p)

/-- R41: RETIRE ORDER. -/
def answerRetireOrder (body : List Byte) (s : State) : Answer :=
  let n := field body 0 2
  refuseIf (body.length != 2) .format <|
    match s.findOrder n with
    | none => .error .noSuch
    | some o =>
      refuseIf (o.state != .done) .state <|
        let t := ({ s with orders := s.orders.filter fun r => r.fields.number != n } : State).gradeRefDown o.fields.grade
        done (t.retirePostponed n).recheckAll (byteOf t.freeOrders)

/-- R42: READ ORDER. -/
def answerReadOrder (body : List Byte) (s : State) : Answer :=
  refuseIf (body.length != 2) .format <|
    match s.findOrder (field body 0 2) with
    | none => .error .noSuch
    | some o => done s (orderRecord s o)

/-- R43: the rush flag of the head, clear for an empty sequence. -/
def State.headRush (s : State) : Bool :=
  match s.runSeq.head? with
  | some h => (s.findOrder h).any (·.rush)
  | none => false

/-- R43: READ SEQUENCE. -/
def answerReadSequence (body : List Byte) (s : State) : Answer :=
  let skip := field body 0 1
  let rest := (s.runSeq.drop skip).take 60
  refuseIf (body.length != 1) .format <|
  refuseIf (decide (63 < skip)) .range <|
    done s (byteOf s.runSeq.length ++ byteOf rest.length ++ boolByte s.headRush ++ byteOf s.suspended.length
      ++ s.suspended.flatMap (bytesOf 2) ++ rest.flatMap (bytesOf 2))

/-! ### The commands -/

def takeEnterOrder (body : List Byte) (s : State) : State := answered 0x10 s (answerEnterOrder body s)
def takeAmendOrder (body : List Byte) (s : State) : State := answered 0x11 s (answerAmendOrder body s)
def takeScheduleOrder (body : List Byte) (s : State) : State := answered 0x12 s (answerScheduleOrder body s)
def takeUnscheduleOrder (body : List Byte) (s : State) : State := answered 0x13 s (answerUnscheduleOrder body s)
def takeRushOrder (body : List Byte) (s : State) : State := answered 0x14 s (answerRushOrder body s)
def takeCancelOrder (body : List Byte) (s : State) : State := answered 0x15 s (answerCancelOrder body s)
def takeRetireOrder (body : List Byte) (s : State) : State := answered 0x16 s (answerRetireOrder body s)
def takeReadOrder (body : List Byte) (s : State) : State := answered 0x17 s (answerReadOrder body s)
def takeReadSequence (body : List Byte) (s : State) : State := answered 0x18 s (answerReadSequence body s)

def execEnterOrder (body : List Byte) (s : State) : Host.Outcome State Fault Refusal := .next (takeEnterOrder body s)
def execAmendOrder (body : List Byte) (s : State) : Host.Outcome State Fault Refusal := .next (takeAmendOrder body s)
def execScheduleOrder (body : List Byte) (s : State) : Host.Outcome State Fault Refusal := .next (takeScheduleOrder body s)
def execUnscheduleOrder (body : List Byte) (s : State) : Host.Outcome State Fault Refusal :=
  .next (takeUnscheduleOrder body s)
def execRushOrder (body : List Byte) (s : State) : Host.Outcome State Fault Refusal := .next (takeRushOrder body s)
def execCancelOrder (body : List Byte) (s : State) : Host.Outcome State Fault Refusal := .next (takeCancelOrder body s)
def execRetireOrder (body : List Byte) (s : State) : Host.Outcome State Fault Refusal := .next (takeRetireOrder body s)
def execReadOrder (body : List Byte) (s : State) : Host.Outcome State Fault Refusal := .next (takeReadOrder body s)
def execReadSequence (body : List Byte) (s : State) : Host.Outcome State Fault Refusal := .next (takeReadSequence body s)

end Sys2Proof.Machine
end

