-- ==== Sys2Proof/Machine/ErrorUnit.lean ====
section
/-! DEFINITION. The requests of the error and attention unit: READ ERRORS (R202), SET ERROR POLICY (R200), CLEAR ERRORS
(R201), RELEASE HOLD (R204) and COLLECT (R206). -/

namespace Sys2Proof.Machine

open Sys2Proof

/-- R202: READ ERRORS. -/
def answerReadErrors (body : List Byte) (s : State) : Answer :=
  let e := s.errors
  refuseIf (body.length != 0) .format <|
    done s (statusSet e.status ++ statusSet e.mask ++ statusSet e.severity ++ boolByte e.hold ++ errorRecord e.first)

/-- R200: new masks and severities; a status now set, unmasked and FATAL puts the line in HOLD. -/
def Errors.withPolicy (e : Errors) (mask severity : BitVec 18) : Errors :=
  let t := { e with mask := mask, severity := severity }
  { t with hold := t.hold || t.fatalSet }

/-- R200: SET ERROR POLICY. -/
def answerSetErrorPolicy (body : List Byte) (s : State) : Answer :=
  refuseIf (body.length != 6) .format <|
    done { s with errors := s.errors.withPolicy (readStatusSet body 0) (readStatusSet body 3) } []

/-- R199, R201: the named statuses become clear, and a record of a named kind is released. -/
def Errors.cleared (e : Errors) (named : BitVec 18) : Errors :=
  { e with
    status := e.status &&& ~~~named
    first := match e.first with
      | some f => if f.kind.isIn named then none else some f
      | none => none }

/-- R201: CLEAR ERRORS. -/
def answerClearErrors (body : List Byte) (s : State) : Answer :=
  refuseIf (body.length != 3) .format <|
    let t : State := { s with errors := s.errors.cleared (readStatusSet body 0) }
    done t (statusSet t.errors.status)

/-- R204, step 2: the line returns to RUN, and every stand in WAIT_GO tests its go. -/
def State.leaveHold (s : State) : State :=
  if s.errors.hold then ({ s with errors := { s.errors with hold := false } } : State).goTestAll else s

/-- R204: RELEASE HOLD. -/
def answerReleaseHold (body : List Byte) (s : State) : Answer :=
  refuseIf (body.length != 0) .format <|
  refuseIf s.errors.fatalSet .state <|
    let r := s.leaveHold.attemptLaunch
    done r.2 (boolByte r.2.errors.hold ++ optNum 2 r.1)

/-- R206: what COLLECT takes. -/
inductive Waiting
  | error
  | order (o : Order)
  | reel (k : Stand) (p : Pos)
  | nothing

/-- R206: the order with attention in the lowest slot. -/
def State.flaggedOrder (s : State) : Option Order :=
  (s.orders.filter (·.attention)).foldl
    (fun best o => match best with
      | none => some o
      | some b => if o.slot < b.slot then some o else some b) none

/-- R206: the item that COLLECT takes, by preference. -/
def State.waitingItem (s : State) : Waiting :=
  if s.errors.unreported then .error
  else
    match s.flaggedOrder with
    | some o => .order o
    | none =>
      match slotPlaces.find? fun x => (s.slot x.1 x.2).attention with
      | some (k, p) => .reel k p
      | none => .nothing

/-- R199, R206: the record becomes reported and stays held. -/
def Errors.reported (e : Errors) : Errors := { e with first := e.first.map fun f => { f with unreported := false } }

/-- R206: the item's type and its record as it stands when COLLECT is taken (log entry 29). -/
def State.waitingRecord (s : State) : Waiting → Nat × List Byte
  | .error => (1, errorRecord s.errors.first)
  | .order o => (2, orderRecord s o)
  | .reel k p => (3, reelRecord s k p)
  | .nothing => (0, [])

/-- R206: what COLLECT clears. -/
def State.clearWaiting (s : State) : Waiting → State
  | .error => { s with errors := s.errors.reported }
  | .order o => s.updateOrder o.fields.number fun r => { r with attention := false }
  | .reel k p => s.setSlot k p { s.slot k p with attention := false }
  | .nothing => s

/-- R206: COLLECT. -/
def answerCollect (body : List Byte) (s : State) : Answer :=
  refuseIf (body.length != 0) .format <|
    let w := s.waitingItem
    done (s.clearWaiting w)
      (byteOf (s.waitingRecord w).1 ++ statusSet s.errors.unmasked ++ (s.waitingRecord w).2)

def takeReadErrors (body : List Byte) (s : State) : State := answered 0x08 s (answerReadErrors body s)
def takeSetErrorPolicy (body : List Byte) (s : State) : State := answered 0x09 s (answerSetErrorPolicy body s)
def takeClearErrors (body : List Byte) (s : State) : State := answered 0x0A s (answerClearErrors body s)
def takeReleaseHold (body : List Byte) (s : State) : State := answered 0x0B s (answerReleaseHold body s)
def takeCollect (body : List Byte) (s : State) : State := answered 0x0C s (answerCollect body s)

def execReadErrors (body : List Byte) (s : State) : Host.Outcome State Fault Refusal := .next (takeReadErrors body s)
def execSetErrorPolicy (body : List Byte) (s : State) : Host.Outcome State Fault Refusal :=
  .next (takeSetErrorPolicy body s)
def execClearErrors (body : List Byte) (s : State) : Host.Outcome State Fault Refusal := .next (takeClearErrors body s)
def execReleaseHold (body : List Byte) (s : State) : Host.Outcome State Fault Refusal := .next (takeReleaseHold body s)
def execCollect (body : List Byte) (s : State) : Host.Outcome State Fault Refusal := .next (takeCollect body s)

end Sys2Proof.Machine
end

