-- ==== Sys2Proof/Machine/LineReset.lean ====
section
/-! DEFINITION. LINE RESET (R207): the flush of the link (R188) and the reset rule of each block (R23, R46, R57, R81, R123,
R140, R159, R172). -/

namespace Sys2Proof.Machine

open Sys2Proof

/-- R188: the KNIFE, SLITTER and STACKER queues are flushed. -/
def State.flushLink (s : State) : State := { s with link := { s.link with knife := [], slitter := [], stacker := [] } }

/-- R46: an order is on the machine. -/
def Order.onMachine (o : Order) : Bool := o.state == .running || o.state == .suspended

/-- R46: an order after LINE RESET. -/
def Order.afterLineReset (o : Order) : Order :=
  if o.onMachine then
    { o with state := .done, outcome := some .aborted, segments := 0, stacked := false, attention := true }
  else o

/-- R46, R57: the order book ends the orders on the machine and clears the suspension stack; the grade table clears its
active counts with them. -/
def State.resetBook (s : State) : State :=
  { s with
    orders := s.orders.map Order.afterLineReset
    suspended := []
    grades := s.grades.map fun g => { g with active := 0 } }

/-- R123: a sequencer after LINE RESET. -/
def Sequencer.afterLineReset (q : Sequencer) : Sequencer :=
  match q.state with
  | .armed | .waitReel | .waitGo =>
    { q with state := .idle, splice := none, required := none, plan := none, timer := none, goTag := none }
  | .fault => { q with plan := none }
  | .idle | .splicing => q

/-- R123: the cap flag is cleared, and where it was set SPEED_CAP none is queued. -/
def State.resetCap (s : State) : State :=
  if s.capFlag then ({ s with capFlag := false } : State).enqueue (.speedCap none) else s

/-- R123: a stand left IDLE with a low running reel arms LOW_REEL. -/
def State.lowIfIdle (k : Stand) (s : State) : State :=
  if (s.seq k).state = .idle then s.lowReelIfLow k else s

/-- R123: the splice controller. -/
def State.resetSplice (s : State) : State :=
  let q := s.seqs
  let t := ({ s with
    seqs := ⟨q.l1.afterLineReset, q.m1.afterLineReset, q.l2.afterLineReset, q.m2.afterLineReset,
      q.l3.afterLineReset⟩ } : State).resetCap
  takeEvents State.lowIfIdle (Stand.all.filter fun k => (t.seq k).state == .idle && t.low k) t

/-- R140: a station after LINE RESET. -/
def SlitterStation.afterLineReset (x : SlitterStation) : SlitterStation :=
  match x.state with
  | .setting | .ready =>
    { x with state := .idle, order := none, served := none, retry := 0, timer := none, setTag := none }
  | .engaged => { x with order := none }
  | .idle | .fault => x

/-- R140: the immediate exchange of an ENGAGED station whose exchange has not been sent; it lifts the other station. -/
def State.immediateExchange (s : State) : State :=
  match s.engaged with
  | some st =>
    if (s.station st).exchangeSent = some false then s.queueExchange st (some st.other) none else s
  | none => s

/-- R140: the slitter exchange. -/
def State.resetSlitter (s : State) : State :=
  ({ s with
    decisions := []
    stations := ⟨s.stations.a.afterLineReset, s.stations.b.afterLineReset⟩ } : State).immediateExchange

/-- R172: a bump in progress ends. -/
def State.dropBump (g : GlueUnit) (s : State) : State :=
  if (s.glue.get g).bumpEnd.isSome then (s.setGlue g { s.glue.get g with bumpEnd := none }).regap g else s

/-- R172: the bond controller. -/
def State.resetBond (s : State) : State :=
  takeEvents State.dropBump (GlueUnit.all.filter fun g => (s.glue.get g).bumpEnd.isSome) s

/-- The blocks that LINE RESET is handed to, each as its own event (R207). The reel monitor changes nothing (R100); the
station link's flush comes before the others (R207). -/
inductive ResetBlock
  | tracker | book | planner | splice | slitter | knife | bond
  deriving DecidableEq, Repr

def resetBlocks : List ResetBlock := [.tracker, .book, .planner, .splice, .slitter, .knife, .bond]

/-- The reset rule of each block. -/
def State.resetBlock (b : ResetBlock) (s : State) : State :=
  match b with
  | .tracker => { s with marks := [] }
  | .book => s.resetBook
  | .planner => { s with planner := none }
  | .splice => s.resetSplice
  | .slitter => s.resetSlitter
  | .knife => { s with knife := Knife.reset }
  | .bond => s.resetBond

/-- R207: the reset as every block takes it, in an order the manual leaves open but for the flush. -/
def State.lineReset (s : State) : State := takeEvents State.resetBlock resetBlocks s.flushLink

/-- R207: LINE RESET. -/
def answerLineReset (body : List Byte) (s : State) : Answer :=
  refuseIf (body.length != 0) .format <|
  refuseIf (!s.stopped) .state <|
  refuseIf (s.someStand (· == .splicing)) .state <|
    done s.lineReset (byteOf (s.orders.filter Order.onMachine).length)

def takeLineReset (body : List Byte) (s : State) : State := answered 0x04 s (answerLineReset body s)

def execLineReset (body : List Byte) (s : State) : Host.Outcome State Fault Refusal := .next (takeLineReset body s)

end Sys2Proof.Machine
end

