-- ==== Sys2Proof/Machine/Reels.lean ====
section
/-! DEFINITION. The reel monitor: the station reports REEL_LOADED, REEL_REMOVED and DIAMETER (R84 to R86), the identity
check (R87), the host requests ANNOUNCE, WITHDRAW, THREAD, UNTHREAD and READ REEL (R88 to R92), and the run-out and stale
events of a running reel (R97, R98). -/

namespace Sys2Proof.Machine

open Sys2Proof

/-- R178: a report contrary to the record's state is discarded. -/
def State.reportInvalid (s : State) (o : ErrorObject) : State := s.raise .reportInvalid o

/-- R108: the ready slot of a stand has changed; a waiting stand repeats its check. -/
def State.readyChanged (s : State) (k : Stand) (p : Pos) : State :=
  if s.readyPos k = some p then s.recheck k else s

/-- R87: the identity check passes. -/
def identityAgrees (readId : Nat) (a : Announcement) : Bool := a.force || (readId != 0 && readId == a.id)

/-- R87, R93: a slot that becomes VERIFIED: force cleared, the remaining length computed from D, LIMITED by that
computation. -/
def verifiedPaper (readId dia : Nat) (a : Announcement) : Paper :=
  Paper.recomputed ⟨readId, { a with force := false }, dia, 0, 0, false⟩

/-- R87: the identity check of a slot. -/
def State.identityCheck (s : State) (k : Stand) (p : Pos) (readId dia : Nat) (a : Announcement) : State :=
  if identityAgrees readId a then
    s.setSlot k p ⟨.verified (verifiedPaper readId dia a), (s.slot k p).attention⟩
  else
    (s.setSlot k p ⟨.mismatch readId { a with force := false } dia, true⟩).raise .reelMismatch (.stand k)

/-- R88: the check of a VERIFIED slot announced again. R87 lets the computation clear LIMITED and R93 keeps it set until
the reel changes; where the two differ, a free value decides (log entry 13). -/
def State.verifyAgain (s : State) (k : Stand) (p : Pos) (old : Paper) (a : Announcement) : State :=
  let t := s.identityCheck k p old.readId old.diameter a
  match (t.slot k p).reel with
  | .verified r =>
    if old.limited && !r.limited then
      (t.setSlot k p ⟨.verified { r with limited := Config.freeBit t.draws }, (t.slot k p).attention⟩).drawn
    else t
  | _ => t

/-- R84: REEL_LOADED. R108 repeats a waiting check at each change of the ready slot's state or announcement, and does not say
whether a report that leaves the slot in the state it had, with its announcement, is one: the model repeats the check
(DESIGN CHOICE, log entry 49). -/
def State.reelLoaded (s : State) (k : Stand) (p : Pos) (id : Nat) : State :=
  match (s.slot k p).reel with
  | .empty _ | .loaded _ _ => (s.setSlot k p ⟨.loaded id 0, true⟩).readyChanged k p
  | .announced a => (s.identityCheck k p id 0 a).readyChanged k p
  | .verified r => (s.identityCheck k p id 0 r.ann).readyChanged k p
  | .mismatch _ a _ => (s.identityCheck k p id 0 a).readyChanged k p
  | .running _ _ _ | .unidentified _ _ | .exhausted _ => s.reportInvalid (.stand k)

/-- R85: REEL_REMOVED. -/
def State.reelRemoved (s : State) (k : Stand) (p : Pos) : State :=
  let x := s.slot k p
  match x.reel with
  | .loaded _ _ => (s.setSlot k p { x with reel := .empty none }).readyChanged k p
  | .verified r => (s.setSlot k p { x with reel := .announced { r.ann with force := false } }).readyChanged k p
  | .mismatch _ a _ => (s.setSlot k p { x with reel := .announced { a with force := false } }).readyChanged k p
  | .empty _ | .announced _ | .running _ _ _ | .unidentified _ _ | .exhausted _ => s.reportInvalid (.stand k)

/-- R86: the slot with an accepted diameter. -/
def Reel.withDiameter (r : Reel) (d : Nat) : Reel :=
  match r with
  | .loaded id _ => .loaded id d
  | .mismatch id a _ => .mismatch id a d
  | .unidentified id _ => .unidentified id d
  | .exhausted q => .exhausted { q with diameter := d }
  | .verified q => .verified (Paper.recomputed { q with diameter := d })
  | .running q _ _ => .running (Paper.recomputed { q with diameter := d }) false 0
  | .empty sp => .empty sp
  | .announced a => .announced a

/-- R96, R97: the low-reel and run-out tests of a RUNNING slot after a recompute. -/
def State.afterRecompute (s : State) (k : Stand) (wasLow : Bool) : State := (s.lowIfNew k wasLow).runOutIfEmpty k

/-- R86: DIAMETER. -/
def State.diameterReport (s : State) (k : Stand) (p : Pos) (d : Nat) : State :=
  let x := s.slot k p
  match x.reel with
  | .empty _ | .announced _ => s.reportInvalid (.stand k)
  | .running _ _ _ =>
    if 20000 < d then s.raise .diameterRange (.stand k)
    else (s.setSlot k p { x with reel := x.reel.withDiameter d }).afterRecompute k (s.low k)
  | .loaded _ _ | .mismatch _ _ _ | .unidentified _ _ | .exhausted _ | .verified _ =>
    if 20000 < d then s.raise .diameterRange (.stand k)
    else s.setSlot k p { x with reel := x.reel.withDiameter d }

/-! ### Host requests (R88 to R92) -/

/-- R88, test 2: the stand and position of a body that begins with them. -/
def placeOf (body : List Byte) : Option (Stand × Pos) :=
  match standOf (field body 0 1), posOf (field body 1 1) with
  | some k, some p => some (k, p)
  | _, _ => none

/-- R88, R192: the announcement a body carries, where its items lie in their ranges. R88's test 3 does not name the force
byte: a value other than 0 and 1 is read as out of its range, not as a set bit among ignored ones (DESIGN CHOICE, log
entry 42). -/
def announcementOf (body : List Byte) : Option Announcement :=
  let id := field body 2 4
  let code := field body 6 2
  let caliper := field body 8 2
  let core := field body 10 2
  let force := field body 12 1
  if inRange 1 99999999 id && inRange 1 65535 code && inRange 60 1000 caliper && inRange 500 2000 core
      && decide (force ≤ 1) then
    some ⟨id, code, caliper, core, force == 1⟩
  else none

/-- R88, test 5, R89: the slot is the ready slot of a stand that is SPLICING. -/
def State.splicingReady (s : State) (k : Stand) (p : Pos) : Bool :=
  (s.seq k).state == .splicing && s.readyPos k == some p

/-- R88: the effect of an announcement on a slot outside the running role. -/
def State.announce (s : State) (k : Stand) (p : Pos) (a : Announcement) : State :=
  let x := s.slot k p
  let t := match x.reel with
    | .empty _ | .announced _ => s.setSlot k p { x with reel := .announced a }
    | .loaded id d => s.identityCheck k p id d a
    | .mismatch id _ d => s.identityCheck k p id d a
    | .verified r => s.verifyAgain k p r a
    | .running _ _ _ | .unidentified _ _ | .exhausted _ => s
  t.readyChanged k p

/-- R88: ANNOUNCE REEL. -/
def answerAnnounceReel (body : List Byte) (s : State) : Answer :=
  refuseIf (body.length != 13) .format <|
    match placeOf body, announcementOf body with
    | some (k, p), some a =>
      refuseIf (s.slot k p).reel.inRole .state <|
      refuseIf (s.splicingReady k p) .state <|
        let t := s.announce k p a
        done t (byteOf (reelStateCode (t.slot k p).reel))
    | _, _ => .error .range

/-- R89: the slot without its host data. -/
def Reel.withdrawn : Reel → Option Reel
  | .announced _ => some (.empty none)
  | .verified r => some (.loaded r.readId r.diameter)
  | .mismatch id _ d => some (.loaded id d)
  | _ => none

/-- R89: WITHDRAW REEL. -/
def answerWithdrawReel (body : List Byte) (s : State) : Answer :=
  refuseIf (body.length != 2) .format <|
    match placeOf body with
    | none => .error .range
    | some (k, p) =>
      refuseIf (s.splicingReady k p) .state <|
        match (s.slot k p).reel.withdrawn with
        | none => .error .state
        | some r => done ((s.setSlot k p { s.slot k p with reel := r }).readyChanged k p) []

/-- R90: the reel of a slot that THREAD REEL takes into the running role. -/
def Reel.threaded : Reel → Option Reel
  | .verified r => some (.running r false 0)
  | .loaded id d | .mismatch id _ d => some (.unidentified id d)
  | _ => none

/-- R120: THREAD REEL has changed the running role: the running joint is cleared, a plan the new reel meets is satisfied,
a waiting stand repeats its check; then the low-reel and run-out tests (R90). -/
def State.afterThread (s : State) (k : Stand) : State :=
  let t := s.setSeq k { s.seq k with runningJoint := none }
  let u := match (t.seq k).plan with
    | some pl => if t.planSatisfied k pl then t.clearSatisfied k pl else t
    | none => t
  ((u.recheck k).lowReelIfLow k).runOutIfEmpty k

/-- R90: THREAD REEL. -/
def answerThreadReel (body : List Byte) (s : State) : Answer :=
  refuseIf (body.length != 2) .format <|
    match placeOf body with
    | none => .error .range
    | some (k, p) =>
      refuseIf (s.runningPos k).isSome .state <|
        match (s.slot k p).reel.threaded with
        | none => .error .state
        | some r => done ((s.setSlot k p { s.slot k p with reel := r }).afterThread k) []

/-- R82, R91, R113: what a reel leaving the running role leaves behind: its id and its remaining length, 0 where it is
UNIDENTIFIED or EXHAUSTED. -/
def Reel.spentAs : Reel → Option SpentReel
  | .running r _ _ => some ⟨r.ann.id, r.remaining⟩
  | .exhausted r => some ⟨r.ann.id, 0⟩
  | .unidentified id _ => some ⟨id, 0⟩
  | _ => none

/-- R91: UNTHREAD REEL. -/
def answerUnthreadReel (body : List Byte) (s : State) : Answer :=
  refuseIf (body.length != 1) .format <|
    match standOf (field body 0 1) with
    | none => .error .range
    | some k =>
      match s.runningPos k with
      | none => .error .state
      | some p =>
        refuseIf (!s.stopped) .state <|
        refuseIf ((s.seq k).state != .idle && (s.seq k).state != .fault) .state <|
          let x := s.slot k p
          let t := s.setSlot k p { x with reel := .empty x.reel.spentAs }
          done (t.setSeq k { t.seq k with runningJoint := none }) []

/-- R92: READ REEL. -/
def answerReadReel (body : List Byte) (s : State) : Answer :=
  refuseIf (body.length != 2) .format <|
    match placeOf body with
    | none => .error .range
    | some (k, p) => done s (reelRecord s k p)

/-! ### The stale timer (R98) -/

/-- R98: a RUNNING slot whose timer has passed the stale limit becomes STALE, once. -/
def State.staleTest (k : Stand) (s : State) : State :=
  match s.runningPos k with
  | none => s
  | some p =>
    match (s.slot k p).reel with
    | .running r false t =>
      if staleLimit s.config < t then
        (s.setSlot k p { s.slot k p with reel := .running r true t }).raise .diameterStale (.stand k)
      else s
    | _ => s

/-- R98: the stale timer of a RUNNING slot whose STALE is clear advances by 100 ms. -/
def State.staleAdvance (s : State) (k : Stand) : State :=
  match s.runningPos k with
  | none => s
  | some p =>
    match (s.slot k p).reel with
    | .running r false t => s.setSlot k p { s.slot k p with reel := .running r false (min 120100 (t + 100)) }
    | _ => s

/-! ### The commands -/

def takeAnnounceReel (body : List Byte) (s : State) : State := answered 0x30 s (answerAnnounceReel body s)
def takeWithdrawReel (body : List Byte) (s : State) : State := answered 0x31 s (answerWithdrawReel body s)
def takeThreadReel (body : List Byte) (s : State) : State := answered 0x32 s (answerThreadReel body s)
def takeUnthreadReel (body : List Byte) (s : State) : State := answered 0x33 s (answerUnthreadReel body s)
def takeReadReel (body : List Byte) (s : State) : State := answered 0x34 s (answerReadReel body s)

def execAnnounceReel (body : List Byte) (s : State) : Host.Outcome State Fault Refusal := .next (takeAnnounceReel body s)
def execWithdrawReel (body : List Byte) (s : State) : Host.Outcome State Fault Refusal := .next (takeWithdrawReel body s)
def execThreadReel (body : List Byte) (s : State) : Host.Outcome State Fault Refusal := .next (takeThreadReel body s)
def execUnthreadReel (body : List Byte) (s : State) : Host.Outcome State Fault Refusal := .next (takeUnthreadReel body s)
def execReadReel (body : List Byte) (s : State) : Host.Outcome State Fault Refusal := .next (takeReadReel body s)

/-- REEL_LOADED (R84); a read id above 99,999,999 makes the report malformed (R176, R177). -/
def execReelLoaded (k : Stand) (p : Pos) (id : Nat) (s : State) : Host.Outcome State Fault Refusal :=
  .next (if 99999999 < id then s.reportInvalid (.stand k) else s.reelLoaded k p id)

/-- REEL_REMOVED (R85). -/
def execReelRemoved (k : Stand) (p : Pos) (s : State) : Host.Outcome State Fault Refusal := .next (s.reelRemoved k p)

/-- DIAMETER (R86); a value above 65,535 cannot stand in the report's two bytes and makes it malformed (R176, R177). -/
def execDiameter (k : Stand) (p : Pos) (d : Nat) (s : State) : Host.Outcome State Fault Refusal :=
  .next (if 65535 < d then s.reportInvalid (.stand k) else s.diameterReport k p d)

/-- DIAMETER_STALE (R98): the event of a RUNNING slot whose stale timer has passed the limit. -/
def execDiameterStale (k : Stand) (s : State) : Host.Outcome State Fault Refusal := .next (s.staleTest k)

/-- RUN_OUT (R97): the event of a RUNNING slot whose remaining length has reached 0. -/
def execRunOut (k : Stand) (s : State) : Host.Outcome State Fault Refusal := .next (s.runOutIfEmpty k)

end Sys2Proof.Machine
end

