-- ==== Sys2Proof/Machine/Splice.lean ====
section
/-! DEFINITION. The splice controller: the joint (R112 to R116), the splice timeout (R111), and the requests REQUEST
SPLICE, CLEAR STAND and READ STAND (R106, R119, R121). -/

namespace Sys2Proof.Machine

open Sys2Proof

/-! ### The joint (R112 to R116) -/

/-- R112: the JOINT mark of stand k at J is asked for with the configured culls; refused for want of a slot, it raises
MARK_OVERFLOW. The reel checks that its recompute repeats come before the rest of the pulse (DESIGN CHOICE, log entry
57). -/
def State.jointMark (s : State) (k : Stand) (j : Coord) : State :=
  let crossings : List CrossEntry :=
    match k with
    | .l1 | .m1 => [⟨.glue .g1, .pending⟩, ⟨.glue .g3, .pending⟩]
    | .l2 | .m2 => [⟨.glue .g2, .pending⟩, ⟨.glue .g3, .pending⟩]
    | .l3 => []
  if 0 < s.freeMarks then
    s.bumpSerial.placeCullMark
      (.joint ⟨s.serial, j, k, jointCullBefore s.config, jointCullAfter s.config, crossings⟩)
  else s.raise .markOverflow (.stand k)

/-- R83, R113: a slot that enters the running role at a joint. -/
def Reel.spliced : Reel → Reel
  | .verified r => .running r false 0
  | .loaded id d | .mismatch id _ d => .unidentified id d
  | .empty _ | .announced _ => .unidentified 0 0
  | r => r

/-- R113: a slot that holds a reported reel. -/
def Reel.reported : Reel → Bool
  | .loaded _ _ | .verified _ | .mismatch _ _ _ => true
  | _ => false

def State.splicedIn (s : State) (k : Stand) (p : Pos) : State :=
  s.setSlot k p { s.slot k p with reel := (s.slot k p).reel.spliced }

/-- R113: the reel monitor exchanges the roles of the stand's two slots. -/
def State.roleSwap (s : State) (k : Stand) : State :=
  match s.runningPos k with
  | some p => (s.setSlot k p ⟨.empty (s.slot k p).reel.spentAs, true⟩).splicedIn k p.other
  | none =>
    match (s.slot k .a).reel.reported, (s.slot k .b).reel.reported with
    | true, false => s.splicedIn k .a
    | false, true => s.splicedIn k .b
    | _, _ => s

/-- R114: the gap of a plan satisfied by the joint J. -/
def State.jointGap (s : State) (k : Stand) (j : Coord) (p : Plan) : State :=
  match s.findChange p.mark with
  | none => s.placeGap k (knifeCoord s) j
  | some m =>
    if before j p.p then if m.outgoing.isSome then s.placeGap k j p.p else s
    else
      match m.length with
      | none => s
      | some g =>
        let stop := plusMm p.p g
        if before stop j then s.placeGap k (laterOf stop (knifeCoord s)) j else s

/-- R114: the grade check after the role swap. -/
def State.gradeCheck (s : State) (k : Stand) (j : Coord) : State :=
  match (s.seq k).plan with
  | none => s
  | some p => if s.planSatisfied k p then (s.setPlan k none).jointGap k j p else s

/-- What follows a joint once the stand has taken its next state: the run-out of a reel of length 0 (R113) and the deferred
plan (R112), in an order the manual leaves open. -/
inductive AfterJoint
  | runOut | deferred
  deriving DecidableEq, Repr

def State.afterJoint (k : Stand) (e : AfterJoint) (s : State) : State :=
  match e with
  | .runOut => s.runOutIfEmpty k
  | .deferred => s.handDeferred k

/-- R97: the running slot of a stand is RUNNING with a remaining length of 0. -/
def State.runOutDue (s : State) (k : Stand) : Bool :=
  match s.runningPos k with
  | none => false
  | some p =>
    match (s.slot k p).reel with
    | .running r _ _ => r.remaining == 0
    | _ => false

/-- R112, R116: a joint pulse at stand k. -/
def State.jointPulse (s : State) (k : Stand) : State :=
  let j := plusMm s.odometer (pathOf s.config k)
  let state := (s.seq k).state
  let s1 := s.jointMark k j
  let s2 := s1.setSeq k { s1.seq k with runningJoint := some ⟨j, state == .splicing⟩ }
  let s3 := if state = .splicing then (s2.setSeq k { s2.seq k with timer := none }).withdrawGo k else s2
  let s4 := (s3.roleSwap k).gradeCheck k j
  let s5 := if state = .fault then s4 else s4.nextState k
  takeEvents (State.afterJoint k)
    ((if s5.runOutDue k then [.runOut] else []) ++ (if (s5.seq k).deferred.isSome then [.deferred] else [])) s5

/-- R185: the level of a joint input, JNT1 to JNT5. -/
def jointLevel (x : InputLevels) : Stand → Bool
  | .l1 => x.jnt1 | .m1 => x.jnt2 | .l2 => x.jnt3 | .m2 => x.jnt4 | .l3 => x.jnt5

/-- The levels with the joint input of a stand high. -/
def jointHigh (x : InputLevels) : Stand → InputLevels
  | .l1 => { x with jnt1 := true } | .m1 => { x with jnt2 := true } | .l2 => { x with jnt3 := true }
  | .m2 => { x with jnt4 := true } | .l3 => { x with jnt5 := true }

/-- R185, R187: a low period of a joint input and the high after it. It gives one pulse; where the input is low already, as
it can be when a reset ends, it has to go high first and the period gives none (log entry 37). -/
def State.jointPeriod (s : State) (k : Stand) : State :=
  if jointLevel s.inputs k then s.jointPulse k else { s with inputs := jointHigh s.inputs k }

/-! ### The splice timer (R111) -/

/-- R111: the timer of a stand in SPLICING has exceeded its limit. -/
def State.spliceExpired (s : State) (k : Stand) : Bool :=
  (s.seq k).state == .splicing && (match (s.seq k).timer with
    | some t => decide (t.limit < t.ms)
    | none => false)

/-- R111: the splice timeout. -/
def State.spliceTimeout (s : State) (k : Stand) : State :=
  if s.spliceExpired k then (s.raise .spliceTimeout (.stand k)).enterFault k else s

/-! ### Requests (R106, R119, R121) -/

def sequencerIndex : SeqState → Nat
  | .idle => 0 | .armed => 1 | .waitReel => 2 | .waitGo => 3 | .splicing => 4 | .fault => 5

def kindIndex : SpliceKind → Nat
  | .grade => 0 | .lowReel => 1 | .manual => 2

def State.sequencerByte (s : State) (k : Stand) : List Byte := codeByte .sequencerState (sequencerIndex (s.seq k).state)

/-- R106: REQUEST SPLICE. -/
def answerRequestSplice (body : List Byte) (s : State) : Answer :=
  refuseIf (body.length != 1) .format <|
    match standOf (field body 0 1) with
    | none => .error .range
    | some k =>
      refuseIf (s.runningPos k).isNone .state <|
      refuseIf ((s.seq k).state != .idle && (s.seq k).state != .armed) .state <|
        let t := s.armNow k .manual
        done t (t.sequencerByte k)

/-- R119: CLEAR STAND. -/
def answerClearStand (body : List Byte) (s : State) : Answer :=
  refuseIf (body.length != 1) .format <|
    match standOf (field body 0 1) with
    | none => .error .range
    | some k =>
      refuseIf ((s.seq k).state != .fault) .state <|
      refuseIf ((s.runningPos k).any fun p => reelStateCode (s.slot k p).reel == 7) .state <|
        let t := s.setSeq k { s.seq k with state := .idle, splice := none, timer := none }
        let u := t.nextState k
        done u (u.sequencerByte k)

/-- R121: the items of one sequencer. -/
def standBytes (s : State) (k : Stand) : List Byte :=
  let q := s.seq k
  byteOf (standCode k) ++ codeByte .sequencerState (sequencerIndex q.state)
    ++ optional 5 (q.splice.map fun x => codeByte .spliceKind (kindIndex x.kind) ++ coordBytes x.due)
    ++ optional 2 (q.required.map fun r => match r with
      | .any => bytesOf 2 Config.anyGradeCode.toNat
      | .code n => bytesOf 2 n)
    ++ optional 15 (q.plan.map fun p =>
        bytesOf 2 p.code ++ coordBytes p.due ++ coordBytes p.p
          ++ optional 4 (((s.findChange p.mark).bind (·.length)).map (bytesOf 4)))
    ++ optional 2 (q.deferred.map fun p => bytesOf 2 p.code)
    ++ optional 2 (q.timer.map fun t => bytesOf 2 t.ms)
    ++ optional 5 (q.runningJoint.map fun j =>
        coordBytes j.joint ++ codeByte .jointOrigin (if j.planned then 0 else 1))
    ++ boolByte s.capFlag

/-- R121: READ STAND. -/
def answerReadStand (body : List Byte) (s : State) : Answer :=
  refuseIf (body.length != 1) .format <|
    match standOf (field body 0 1) with
    | none => .error .range
    | some k => done s (standBytes s k)

def takeRequestSplice (body : List Byte) (s : State) : State := answered 0x38 s (answerRequestSplice body s)
def takeClearStand (body : List Byte) (s : State) : State := answered 0x39 s (answerClearStand body s)
def takeReadStand (body : List Byte) (s : State) : State := answered 0x3A s (answerReadStand body s)

def execRequestSplice (body : List Byte) (s : State) : Host.Outcome State Fault Refusal := .next (takeRequestSplice body s)
def execClearStand (body : List Byte) (s : State) : Host.Outcome State Fault Refusal := .next (takeClearStand body s)
def execReadStand (body : List Byte) (s : State) : Host.Outcome State Fault Refusal := .next (takeReadStand body s)

/-- JOINT_PULSE (R112, R116, R185). -/
def execJointPulse (k : Stand) (s : State) : Host.Outcome State Fault Refusal := .next (s.jointPeriod k)

/-- SPLICE_TIMEOUT (R111): the event of a splice timer that has exceeded its limit. -/
def execSpliceTimeout (k : Stand) (s : State) : Host.Outcome State Fault Refusal := .next (s.spliceTimeout k)

end Sys2Proof.Machine
end

