-- ==== Sys2Proof/Machine/Slitter.lean ====
section
/-! DEFINITION. The slitter exchange: the position report (R130), the set timeout (R131), and the requests CLEAR STATION
(R132) and READ SLITTER (R138). -/

namespace Sys2Proof.Machine

open Sys2Proof

/-! ### The position report (R130) -/

/-- R126: the one list of positions a station is set to, slits before scores. -/
def Pattern.positions (p : Pattern) : List Nat := p.slits ++ p.scores

/-- R130: a measured position lies within the tolerance of the commanded one. -/
def closeTo (tol measured commanded : Nat) : Bool :=
  decide (measured ≤ commanded + tol) && decide (commanded ≤ measured + tol)

/-- R130: the report passes: as many positions as commanded, each within the slitter tolerance. -/
def reportPasses (tol : Nat) (measured commanded : List Nat) : Bool :=
  measured.length == commanded.length && (measured.zip commanded).all fun p => closeTo tol p.1 p.2

/-- R130: the station takes a report: it is in SETTING and its set in hand has been sent. -/
def SlitterStation.awaits (x : SlitterStation) : Bool := x.state == .setting && x.timer.isSome

/-- R131: the station enters FAULT after a second failed report. -/
def State.verifyFail (s : State) (st : Station) : State := (s.faultStation st).raise .verifyFail (.station st)

/-- R130: a SET_POSITIONS report. -/
def State.setPositions (s : State) (st : Station) (measured : List Nat) : State :=
  let x := s.station st
  if x.awaits then
    let pat := x.pattern.getD ⟨[], []⟩
    if reportPasses (slitterTolerance s.config) measured pat.positions then
      s.setStation st { x with state := .ready, timer := none }
    else if x.retry = 0 then
      (s.setStation st { x with retry := 1, timer := none }).queueSet st pat
    else s.verifyFail st
  else s.reportInvalid (.station st)

/-! ### The set timer (R129, R131) -/

/-- R131: the set timer of a station in SETTING has exceeded its limit. -/
def State.setExpired (s : State) (st : Station) : Bool :=
  (s.station st).state == .setting && (match (s.station st).timer with
    | some t => decide (t.limit < t.ms)
    | none => false)

/-- R131: the set timeout. -/
def State.setTimeout (s : State) (st : Station) : State :=
  if s.setExpired st then (s.faultStation st).raise .setTimeout (.station st) else s

/-! ### Requests (R132, R138) -/

def stationIndex : StationState → Nat
  | .idle => 0 | .setting => 1 | .ready => 2 | .engaged => 3 | .fault => 4

def State.stationByte (s : State) (st : Station) : List Byte :=
  codeByte .stationState (stationIndex (s.station st).state)

/-- R132: a faulted station returns to standby. -/
def State.clearStation (s : State) (st : Station) : State :=
  State.walk (s.setStation st { s.station st with state := .idle, retry := 0 })

/-- R132: CLEAR STATION. -/
def answerClearStation (body : List Byte) (s : State) : Answer :=
  refuseIf (body.length != 1) .format <|
    match stationOf (field body 0 1) with
    | none => .error .range
    | some st =>
      refuseIf ((s.station st).state != .fault) .state <|
        let t := s.clearStation st
        done t (t.stationByte st)

/-- R138: the items of one station. The manual says that the set timer stops, and of the splice timer alone that it is then
absent (R121): a set timer that does not run is shown as absent (DESIGN CHOICE, log entry 43). -/
def stationBytes (s : State) (st : Station) : List Byte :=
  let x := s.station st
  s.stationByte st ++ optNum 2 x.order
    ++ optCoord ((x.served.bind s.findChange).map (·.p))
    ++ optional 42 (x.pattern.map patternBytes)
    ++ byteOf x.retry ++ optNum 3 (x.timer.map (·.ms)) ++ optional 1 (x.exchangeSent.map boolByte)

def decisionIndex : DecisionStatus → Nat
  | .unassigned => 0 | .skip => 1 | .servedBy .a => 2 | .servedBy .b => 3

/-- R138: the items of one decision list entry. -/
def decisionBytes (s : State) (d : Decision) : List Byte :=
  match s.findChange d.mark with
  | some m =>
    coordBytes m.p ++ bytesOf 2 (m.incoming.getD 0) ++ codeByte .decisionStatus (decisionIndex d.status)
      ++ coordBytes m.xEx ++ bytesOf 2 m.extensions
  | none => []

/-- R138: READ SLITTER. -/
def answerReadSlitter (body : List Byte) (s : State) : Answer :=
  let shown := s.decisions.take 8
  refuseIf (body.length != 0) .format <|
    done s (stationBytes s .a ++ stationBytes s .b ++ byteOf s.decisions.length ++ byteOf shown.length
      ++ shown.flatMap (decisionBytes s))

def takeClearStation (body : List Byte) (s : State) : State := answered 0x40 s (answerClearStation body s)
def takeReadSlitter (body : List Byte) (s : State) : State := answered 0x41 s (answerReadSlitter body s)

def execClearStation (body : List Byte) (s : State) : Host.Outcome State Fault Refusal := .next (takeClearStation body s)
def execReadSlitter (body : List Byte) (s : State) : Host.Outcome State Fault Refusal := .next (takeReadSlitter body s)

/-- R176: the fields of SET_POSITIONS that the link accepts. -/
def positionsAccepted (measured : List Nat) : Bool := decide (measured.length ≤ 20) && measured.all (· ≤ 65535)

/-- SET_POSITIONS (R130). A list the link does not accept makes the report malformed (R176, R177). -/
def execSetPositions (st : Station) (measured : List Nat) (s : State) : Host.Outcome State Fault Refusal :=
  .next (if positionsAccepted measured then s.setPositions st measured else s.reportInvalid (.station st))

/-- SET_TIMEOUT (R131): the event of a set timer that has exceeded its limit. -/
def execSetTimeout (st : Station) (s : State) : Host.Outcome State Fault Refusal := .next (s.setTimeout st)

end Sys2Proof.Machine
end

