-- ==== Sys2Proof/Machine/Stacks.lean ====
section
/-! DEFINITION. The commands of the knife counter: the cut pulse (R145), STACK_TAKEN (R156) and READ KNIFE (R157). -/

namespace Sys2Proof.Machine

open Sys2Proof

/-- The link address of the stacker (R175). -/
def stackerAddress : Nat := 9

/-- R156: STACK_TAKEN. -/
def State.stackTaken (s : State) : State :=
  if s.knife.outstanding = 0 then s.reportInvalid (.address stackerAddress)
  else (s.setKnife fun k => { k with outstanding := k.outstanding - 1 }).issuePostponed

/-! ### READ KNIFE (R157) -/

/-- The P of a CHANGE mark. -/
def State.markP (s : State) (mark : Nat) : List Byte := coordOr0 ((s.findChange mark).map (·.p))

/-- The order of the segment that ends at a mark. -/
def State.segmentOrder (s : State) (mark : Nat) : Nat :=
  (((s.findChange mark).bind (·.outgoing)).map (·.order)).getD 0

/-- R157: the owner: its kind, then the order of a segment and the P of the mark, each with its presence byte. -/
def ownerBytes (s : State) : List Byte :=
  match s.knife.owner with
  | .unassigned => codeByte .knifeOwner 0 ++ optNum 2 none ++ optCoord none
  | .zone m => codeByte .knifeOwner 1 ++ optNum 2 none ++ byteOf 1 ++ s.markP m
  | .segment m => codeByte .knifeOwner 2 ++ optNum 2 (some (s.segmentOrder m)) ++ byteOf 1 ++ s.markP m

/-- R157: the grid position with the P of its mark. -/
def gridPosBytes (s : State) : GridPos → List Byte
  | .lead m => codeByte .gridPosition 0 ++ s.markP m
  | .zone m => codeByte .gridPosition 1 ++ s.markP m
  | .segment m => codeByte .gridPosition 2 ++ s.markP m

/-- R157: order number, stack number, open or closed, fixed count. The stack number, stacks closed + 1, reaches 65,536 and
stands in 3 bytes (log entry 4). -/
def postponedBytes (p : Postponed) : List Byte :=
  bytesOf 2 p.order ++ bytesOf 3 p.stack ++ codeByte .postponedKind (boolNat p.closed.isSome) ++ optNum 2 p.closed

/-- R157: one stretch of the lag list. -/
def lagBytes (e : LagEntry) : List Byte := coordBytes e.start ++ coordBytes e.stop

/-- R157: READ KNIFE. -/
def answerReadKnife (body : List Byte) (s : State) : Answer :=
  refuseIf (body.length != 0) .format <|
    done s (coordBytes (knifeCoord s) ++ ownerBytes s
      ++ optional 5 (s.knife.grid.map fun g => gridPosBytes s g.pos)
      ++ optional 7 (s.knife.grid.map fun g => coordBytes g.n ++ bytesOf 2 g.sheet ++ boolByte g.spoiled)
      ++ byteOf s.knife.outstanding
      ++ optional 9 (s.knife.postponed.map postponedBytes)
      ++ byteOf s.knife.split.length ++ byteOf s.knife.lag.length ++ s.knife.lag.flatMap lagBytes)

def takeReadKnife (body : List Byte) (s : State) : State := answered 0x48 s (answerReadKnife body s)

def execReadKnife (body : List Byte) (s : State) : Host.Outcome State Fault Refusal := .next (takeReadKnife body s)

/-- R185, R187: a low period of CUT and the high after it. It gives one pulse; where CUT is low already, as it can be when a
reset ends, it has to go high first and the period gives none (log entry 37). -/
def State.cutPeriod (s : State) : State :=
  if s.inputs.cut then s.cutPulse else { s with inputs := { s.inputs with cut := true } }

/-- CUT_PULSE (R145, R185). -/
def execCutPulse (s : State) : Host.Outcome State Fault Refusal := .next s.cutPeriod

/-- STACK_TAKEN (R156). -/
def execStackTaken (s : State) : Host.Outcome State Fault Refusal := .next s.stackTaken

end Sys2Proof.Machine
end

