-- ==== Sys2Proof/Machine/Station.lean ====
section
/-! DEFINITION. The station link: the arbiter (R182), the sent hand-offs (R179), READ STATION QUEUES (R183), the bits of a
byte on its two pairs (R174), and the report receiver (R174, R177). -/

namespace Sys2Proof.Machine

open Sys2Proof

/-! ### The arbiter (R182) -/

/-- R179: the five classes, the highest priority first. -/
def linkClasses : List LinkClass := [.splice, .knife, .slitter, .stacker, .bond]

/-- R182: the highest-priority class that holds a command. -/
def Link.nextClass (l : Link) : Option LinkClass := linkClasses.find? fun c => !(l.queue c).isEmpty

/-- R182: with the place free, the head of the highest-priority class that is not empty goes into the place. -/
def Link.taken (l : Link) : Link :=
  match l.place, l.nextClass with
  | none, some c =>
    match l.queue c with
    | x :: rest => { l.setQueue c rest with place := some x }
    | [] => l
  | _, _ => l

/-- R182: the arbiter takes a command. -/
def State.arbiterTake (s : State) : State := { s with link := s.link.taken }

/-! ### The sent hand-offs (R179, R182) -/

/-- R182: the send has ended and the place is free again. -/
def State.freePlace (s : State) : State := { s with link := { s.link with place := none } }

/-- R111, R179: SPLICE_GO has been sent: the splice timer starts if the stand is still SPLICING for it. -/
def State.goSent (s : State) (k : Stand) (tag : Nat) : State :=
  let q := s.seq k
  if q.state = .splicing ∧ q.goTag = some tag then s.setSeq k { q with timer := some ⟨0, spliceTimeLimit s.config⟩ }
  else s

/-- R129, R179: SLITTER_SET has been sent: the set timer starts if the station is in SETTING with this set in hand. -/
def State.setSent (s : State) (st : Station) (tag : Nat) : State :=
  let x := s.station st
  if x.state = .setting ∧ x.setTag = some tag then
    s.setStation st { x with timer := some ⟨0, setTimeLimit s.config⟩ }
  else s

/-- R141: a stretch joins the lag list in board order. -/
def insertLag (odo : Coord) (e : LagEntry) : List LagEntry → List LagEntry
  | [] => [e]
  | x :: xs => if sdist odo e.start < sdist odo x.start then e :: x :: xs else x :: insertLag odo e xs

/-- R150: the late-exchange test. -/
def State.lateExchange (s : State) (xEx : Option Coord) : State :=
  match xEx with
  | none => s
  | some x =>
    if before x (slitterCoord s) && decide (s.knife.lag.length < Config.lagDepth) then
      s.setKnife fun k => { k with lag := insertLag s.odometer ⟨x, slitterCoord s⟩ k.lag }
    else s

/-- R133, R150, R179: SLITTER_EXCHANGE has been sent: exchange sent becomes yes, and the knife counter makes the
late-exchange test. Exchange sent waits for the command of the exchange in hand: that of an exchange which a LINE RESET
found in the place leaves it no until the immediate form has been sent (R140, R188; DEDUCED, log entry 44). -/
def State.exchangeSent (s : State) (engage : Station) (xEx : Option Coord) (tag : Nat) : State :=
  let x := s.station engage
  let t := if x.state = .engaged ∧ x.exchangeTag = some tag then
    s.setStation engage { x with exchangeSent := some true } else s
  t.lateExchange xEx

/-- R168: BOND_SETPOINT has been sent: last sent takes the value it carried. -/
def State.setpointSent (s : State) (u : BondUnit) (v : Nat) : State :=
  match u with
  | .ph k => s.setPreheater k { s.preheaters.get k with lastSent := some v }
  | .glue g => s.setGlue g { s.glue.get g with lastSent := some v }

/-! ### READ STATION QUEUES (R183) -/

/-- The bytes of the longest command, a SLITTER_SET of 20 positions; the place item is filled up to them. -/
def commandWidth : Nat := 45

/-- A command filled with zeros to the fixed width of its item (log entry 4). -/
def paddedCommand (c : Command) : List Byte :=
  commandBytes c ++ List.replicate (commandWidth - (commandBytes c).length) 0#8

/-- R183: READ STATION QUEUES. -/
def answerReadStationQueues (body : List Byte) (s : State) : Answer :=
  refuseIf (body.length != 1) .format <|
    match classOf (field body 0 1) with
    | none => .error .range
    | some c =>
      done s (optional commandWidth (s.link.place.map paddedCommand)
        ++ linkClasses.flatMap (fun d => byteOf (s.link.queue d).length)
        ++ (s.link.queue c).flatMap commandBytes)

def takeReadStationQueues (body : List Byte) (s : State) : State := answered 0x58 s (answerReadStationQueues body s)

/-! ### The bits of a byte on the link (R174) -/

/-- R174: the bits of a byte on either pair, a start bit, eight data bits and a stop bit, as the levels of one bit time each.
The levels and the order of the data bits are free (log entry 53). -/
def linkBits (b : Byte) : List Bool :=
  Config.linkStartLevel
    :: ((if Config.linkMsbFirst then bitsOfByte b else (bitsOfByte b).reverse) ++ [!Config.linkStartLevel])

/-- R174: the bits that carry bytes over a pair of the link. -/
def linkBitsOf (bytes : List Byte) : List Bool := bytes.flatMap linkBits

/-- R174: the byte of eight data bits that have arrived, and the level at the place of their stop bit. -/
def arrivedByte (data : List Bool) (stop : Bool) : Option Byte :=
  match if Config.linkMsbFirst then data else data.reverse with
  | [b7, b6, b5, b4, b3, b2, b1, b0] =>
    let b := BitVec.ofBoolListBE [b7, b6, b5, b4, b3, b2, b1, b0]
    if stop = Config.linkStartLevel then Config.unstoppedByte b else some b
  | _ => none

/-- What the eight data bits and the level behind them bring: a byte, or, where they make none (log entry 53), the ten bit
times that went by without one (log entry 59). -/
def heardAs : Option Byte → List (Option Byte)
  | some b => [some b]
  | none => List.replicate 10 none

/-- R174: what levels at LNK_RX bring, one level for each bit time: none for a bit time of the pair at rest between two
bytes, some byte for a start bit with the eight data bits and the stop bit that follow it. The data bits that have come since
a start bit are carried along. The pair is at rest behind the levels, which completes a last byte (log entry 53). -/
def scanLevels : Option (List Bool) → List Bool → List (Option Byte)
  | none, [] => []
  | some data, [] =>
    heardAs (arrivedByte ((data ++ List.replicate 8 (!Config.linkStartLevel)).take 8) (!Config.linkStartLevel))
  | none, level :: levels =>
    if level = Config.linkStartLevel then scanLevels (some []) levels else none :: scanLevels none levels
  | some data, level :: levels =>
    if data.length < 8 then scanLevels (some (data ++ [level])) levels
    else heardAs (arrivedByte data level) ++ scanLevels none levels

/-- R174: what levels at LNK_RX bring, from a pair at rest. -/
def heardAtLnkRx (levels : List Bool) : List (Option Byte) := scanLevels none levels

/-! ### The report receiver (R174 to R178) -/

/-- A source on the report pair (R175). -/
inductive Source
  | stand (k : Stand)
  | station (st : Station)
  | stacker
  deriving DecidableEq, Repr

/-- R175: the known sources of the report pair by address. -/
def sourceOf : Nat → Option Source
  | 1 => some (.stand .l1) | 2 => some (.stand .m1) | 3 => some (.stand .l2) | 4 => some (.stand .m2)
  | 5 => some (.stand .l3) | 6 => some (.station .a) | 7 => some (.station .b) | 9 => some .stacker
  | _ => none

/-- The object of an error about a source (R177, R197). -/
def Source.object : Source → ErrorObject
  | .stand k => .stand k
  | .station st => .station st
  | .stacker => .address stackerAddress

/-- The five kinds of station report (R176). -/
inductive ReportKind
  | reelLoaded | reelRemoved | diameter | setPositions | stackTaken
  deriving DecidableEq, Repr

def reportKinds : List ReportKind := [.reelLoaded, .reelRemoved, .diameter, .setPositions, .stackTaken]

def reportIndex : ReportKind → Nat
  | .reelLoaded => 0 | .reelRemoved => 1 | .diameter => 2 | .setPositions => 3 | .stackTaken => 4

/-- The report kind of a frame's kind byte; R176 numbers no kind (log entry 38). -/
def reportKindOf (b : Byte) : Option ReportKind :=
  reportKinds.find? fun k => Config.enumCode .reportKind (reportIndex k) == b

/-- R175: the source sends that kind. -/
def Source.sends : Source → ReportKind → Bool
  | .stand _, .reelLoaded | .stand _, .reelRemoved | .stand _, .diameter => true
  | .station _, .setPositions => true
  | .stacker, .stackTaken => true
  | _, _ => false

/-- R174, R177: the body length of a kind. R177 names no test for a body above R174's 48 bytes: it fails this one, with the
source as object (DESIGN CHOICE, log entry 48). -/
def reportLengthOk (k : ReportKind) (body : List Byte) : Bool :=
  decide (body.length ≤ Config.maxLinkBody) &&
  match k with
  | .reelLoaded => body.length == 5
  | .reelRemoved => body.length == 1
  | .diameter => body.length == 3
  | .setPositions => body.length == 1 + 2 * byteAt body 0
  | .stackTaken => body.length == 0

/-- R176: every field of a body of the right length lies in the range the link accepts; two bytes keep a diameter or a
position in its range. -/
def reportRangesOk (k : ReportKind) (body : List Byte) : Bool :=
  match k with
  | .reelLoaded => (posOf (byteAt body 0)).isSome && decide (field body 1 4 ≤ 99999999)
  | .reelRemoved | .diameter => (posOf (byteAt body 0)).isSome
  | .setPositions => decide (byteAt body 0 ≤ 20)
  | .stackTaken => true

/-- A frame on the link behind its start delimiter and before its check (R174), with one byte each for the address, the
kind and the body length: R174 gives no widths (DESIGN CHOICE, log entry 51). -/
structure LinkFrame where
  address : Byte
  kind : Byte
  body : List Byte
  deriving DecidableEq, Repr

/-- R174: what the check is computed over: address, kind, body length, body. -/
def LinkFrame.checked (f : LinkFrame) : List Byte := f.address :: f.kind :: BitVec.ofNat 8 f.body.length :: f.body

/-- R174: the bytes of a frame behind its start delimiter. -/
def LinkFrame.bytes (f : LinkFrame) : List Byte := f.checked ++ bytesOf 2 (Config.frameCheck f.checked).toNat

/-- R174: the bytes taken in make up the length that the frame declares: address, kind, length, body, check, the first three
of one byte each (DESIGN CHOICE, log entry 51). -/
def frameComplete (bs : List Byte) : Bool := decide (3 ≤ bs.length) && decide (5 + byteAt bs 2 ≤ bs.length)

/-- The frame that complete bytes hold. -/
def frameOf (bs : List Byte) : LinkFrame := ⟨bs.getD 0 0#8, bs.getD 1 0#8, (bs.drop 3).take (byteAt bs 2)⟩

/-- R177: what the tests of a complete frame find: the object of a failure, or the source and kind of a frame that
passes. -/
def testFrame (bs : List Byte) : Except ErrorObject (Source × ReportKind) :=
  let f := frameOf bs
  if f.bytes ≠ bs then .error .none
  else
    match sourceOf f.address.toNat with
    | none => .error .none
    | some src =>
      match reportKindOf f.kind with
      | none => .error src.object
      | some k =>
        if src.sends k && reportLengthOk k f.body && reportRangesOk k f.body then .ok (src, k) else .error src.object

/-- R176, R178: a report that passes is handed to the block that owns its record. -/
def State.routeReport (s : State) (src : Source) (k : ReportKind) (body : List Byte) : State :=
  match src, k with
  | .stand st, .reelLoaded =>
    match posOf (byteAt body 0) with
    | some p => s.reelLoaded st p (field body 1 4)
    | none => s
  | .stand st, .reelRemoved =>
    match posOf (byteAt body 0) with
    | some p => s.reelRemoved st p
    | none => s
  | .stand st, .diameter =>
    match posOf (byteAt body 0) with
    | some p => s.diameterReport st p (field body 1 2)
    | none => s
  | .station x, .setPositions => s.setPositions x (positionsAt body 1 (byteAt body 0))
  | .stacker, .stackTaken => s.stackTaken
  | _, _ => s

/-- R177: a complete report frame has ended. A frame that fails a test is discarded with REPORT_INVALID; one that passes
them all is no malformed report and is handed on (log entry 8). -/
def State.reportFrame (s : State) (bs : List Byte) : State :=
  match testFrame bs with
  | .error o => s.reportInvalid o
  | .ok (src, k) => s.routeReport src k (frameOf bs).body

/-- R174: the receiver takes in one byte: a start delimiter that it waits for, or the next byte of a frame, whose last check
byte ends it. A byte other than a start delimiter between two frames is passed over (log entry 8). -/
def State.receiveByte (s : State) (b : Byte) : State :=
  match s.receiver with
  | none => if b = Config.startDelimiter then { s with receiver := some ⟨[], 0⟩ } else s
  | some r =>
    let bs := r.bytes ++ [b]
    if frameComplete bs then State.reportFrame { s with receiver := none } bs else { s with receiver := some ⟨bs, 0⟩ }

/-- R174, R177: the bytes of a frame in reception have stopped for too long: the incomplete frame is ended and discarded as
malformed, and the receiver waits again. A receiver that waits has no frame to end (log entry 9). -/
def State.endReception (s : State) : State :=
  match s.receiver with
  | some _ => State.reportInvalid { s with receiver := none } .none
  | none => s

/-- R174: the bytes of a frame may stop for 100 µs, a hundred bit times at 1,000,000 bit/s. -/
def longestRest : Nat := 100

/-- R174: a bit time goes by without a byte; a frame in reception whose bytes have stopped for longer than 100 µs ends there
(log entry 59). -/
def State.receiveRest (s : State) : State :=
  match s.receiver with
  | none => s
  | some r => if r.rest < longestRest then { s with receiver := some { r with rest := r.rest + 1 } } else s.endReception

/-- R174: what arrives at LNK_RX, a byte or a bit time without one. -/
def State.receiveOne (s : State) : Option Byte → State
  | some b => s.receiveByte b
  | none => s.receiveRest

/-- R174: what levels at LNK_RX bring is taken in one after another. -/
def State.receive (s : State) (heard : List (Option Byte)) : State := heard.foldl State.receiveOne s

/-! ### The frame of a command (R174, R179) -/

/-- R174: the frame of a command: start delimiter, address, kind, body length, body, check. Its body holds the items as
READ STATION QUEUES shows them (log entry 38). -/
def Command.frame (c : Command) : List Byte :=
  Config.startDelimiter ::
    LinkFrame.bytes ⟨BitVec.ofNat 8 c.address, Config.enumCode .commandKind (commandIndex c), commandItems c⟩

/-- R174: the levels that LNK_TX carries, one for each bit time, for the command in the place for sending. -/
def State.lnkTx (s : State) : List Bool :=
  match s.link.place with
  | some c => linkBitsOf c.frame
  | none => []

/-! ### The commands -/

def execReadStationQueues (body : List Byte) (s : State) : Host.Outcome State Fault Refusal :=
  .next (takeReadStationQueues body s)

/-- ARBITER_TAKE (R182): nothing is taken while the place is held or every queue is empty. -/
def execArbiterTake (s : State) : Host.Outcome State Fault Refusal := .next s.arbiterTake

/-- SPLICE_GO sent (R111, R179). Like the six below, it changes nothing where the place holds no such command (log
entry 10). -/
def execSpliceGo (s : State) : Host.Outcome State Fault Refusal :=
  .next (match s.link.place with
    | some (.spliceGo k _ tag) => (s.goSent k tag).freePlace
    | _ => s)

/-- SPEED_CAP sent: no hand-off (R179). -/
def execSpeedCap (s : State) : Host.Outcome State Fault Refusal :=
  .next (match s.link.place with
    | some (.speedCap _) => s.freePlace
    | _ => s)

/-- KNIFE_SCHEDULE sent: no hand-off (R179). -/
def execKnifeSchedule (s : State) : Host.Outcome State Fault Refusal :=
  .next (match s.link.place with
    | some (.knifeSchedule _ _ _) => s.freePlace
    | _ => s)

/-- SLITTER_SET sent (R129, R179). -/
def execSlitterSet (s : State) : Host.Outcome State Fault Refusal :=
  .next (match s.link.place with
    | some (.slitterSet st _ tag) => (s.setSent st tag).freePlace
    | _ => s)

/-- SLITTER_EXCHANGE sent (R133, R150, R179). -/
def execSlitterExchange (s : State) : Host.Outcome State Fault Refusal :=
  .next (match s.link.place with
    | some (.slitterExchange e _ x tag) => (s.exchangeSent e x tag).freePlace
    | _ => s)

/-- STACK_CHANGE sent: no hand-off (R179). -/
def execStackChange (s : State) : Host.Outcome State Fault Refusal :=
  .next (match s.link.place with
    | some (.stackChange _ _ _ _) => s.freePlace
    | _ => s)

/-- BOND_SETPOINT sent (R168, R179). -/
def execBondSetpoint (s : State) : Host.Outcome State Fault Refusal :=
  .next (match s.link.place with
    | some (.bondSetpoint u v) => (s.setpointSent u v).freePlace
    | _ => s)

/-- MALFORMED_REPORT (R174, R177): the levels at LNK_RX bring bytes, and times without one, to the report receiver (log
entries 8 and 59). -/
def execMalformedReport (levels : List Bool) (s : State) : Host.Outcome State Fault Refusal :=
  .next (s.receive (heardAtLnkRx levels))

/-- REPORT_FRAME_TIMEOUT (R174, R177). -/
def execReportFrameTimeout (s : State) : Host.Outcome State Fault Refusal := .next s.endReception

end Sys2Proof.Machine
end

