-- ==== Sys2Proof/Machine/Store.lean ====
section
/-! DEFINITION. The request NULL (R190), READ LINE (R196), and the configuration store: CONFIGURE (R8, R193, R194) and READ
CONFIG (R195). -/

namespace Sys2Proof.Machine

open Sys2Proof

/-- R190: NULL. -/
def answerNull (body : List Byte) (s : State) : Answer := refuseIf (body.length != 0) .format (done s [])

/-! ### READ LINE (R196) -/

/-- R196: no CHANGE mark, a provisional mark, an open run-out. A table with CHANGE marks holds one of the last two. -/
def State.changeState (s : State) : List Byte :=
  if s.changes.isEmpty then byteOf 0
  else if s.provisional.isSome then byteOf 1
  else if s.openRunOut.isSome then byteOf 2
  else codeByte .lineChange 0

/-- R196: READ LINE. -/
def answerReadLine (body : List Byte) (s : State) : Answer :=
  refuseIf (body.length != 0) .format <|
    done s (coordBytes s.odometer ++ coordBytes (knifeCoord s) ++ bytesOf 2 s.speed ++ byteOf s.zeroWindows
      ++ byteOf s.lineFlags ++ byteOf s.freeOrders ++ byteOf s.freeGrades ++ byteOf s.freeMarks
      ++ byteOf s.runSeq.length ++ byteOf s.suspended.length ++ s.changeState ++ optCoord s.provisionalEnd
      ++ statusSet s.errors.unmasked)

/-! ### CONFIGURE (R194) -/

/-- One pair of a CONFIGURE body: an item number and a value. -/
structure ConfigPair where
  number : Nat
  value : Int
  deriving DecidableEq, Repr

/-- R194: the pairs of a body. -/
def configPairs (body : List Byte) : List ConfigPair :=
  (List.range (body.length / 5)).map fun i => ⟨field body (5 * i) 1, signedField body (5 * i + 1)⟩

/-- R194, test 1. -/
def configLengthOk (body : List Byte) : Bool :=
  body.length % 5 == 0 && decide (5 ≤ body.length) && decide (body.length ≤ 120)

/-- R194, test 3: each item number lies in 1..40 and none appears twice. -/
def itemsOk (ps : List ConfigPair) : Bool :=
  ps.all (fun p => inRange 1 40 p.number) && decide (ps.map (·.number)).Nodup

/-- The range of an item (R193). -/
def rowOf (n : Nat) : Config.ItemRow := Config.itemRows.getD (n - 1) ⟨0, 0, 0⟩

/-- R194, test 4: the value brought into its range. -/
def ConfigPair.clamped (p : ConfigPair) : Int := clampTo (rowOf p.number) p.value

/-- R194, test 5: the clamped values merged with the items the request does not name. -/
def merged (c : List Int) (ps : List ConfigPair) : List Int :=
  ps.foldl (fun d p => d.set (p.number - 1) p.clamped) c

/-- R8, R194: F is raised to its minimum, that of the merged values (log entry 46). -/
def raiseFreeze (c : List Int) : List Int := c.set 20 (max (item c 21) (minFreeze c))

/-- R194: the items that step 4 or the raise of F changed, each once. Step 4 has no lower bound for F (log entry 46). -/
def clampedItems (c : List Int) (ps : List ConfigPair) : List Nat :=
  let named := (ps.filter fun p => p.clamped != p.value).map (·.number)
  if decide (item (merged c ps) 21 < minFreeze (merged c ps)) && !named.contains 21 then named ++ [21] else named

/-- A list in an order that the manual leaves open, by free choices from the d-th on (log entry 20). -/
def freeOrder : Nat → Nat → List Nat → List Nat
  | _, _, [] => []
  | 0, _, _ => []
  | n + 1, d, x :: xs =>
    let l := x :: xs
    let i := Config.freeChoice d % l.length
    l.getD i x :: freeOrder n (d + 1) (l.eraseIdx i)

/-- R96, R194: the stands whose changed splice reserve makes a running reel low that was not low before. -/
def newlyLow (old new : State) : List Stand := Stand.all.filter fun k => new.low k && !old.low k

/-- R194: the store takes its new values; a changed reserve is handed to the reel monitor. -/
def State.configured (s : State) (ps : List ConfigPair) : State :=
  let t : State := { s with config := raiseFreeze (merged s.config ps) }
  takeEvents State.lowReelIfLow (newlyLow s t) t

/-- R194: the items clamped, and the draws their order took. -/
def configReply (s : State) (ps : List ConfigPair) : Reply :=
  let items := clampedItems s.config ps
  let order := freeOrder items.length s.draws items
  let t := State.configured { s with draws := s.draws + items.length } ps
  ⟨if items.isEmpty then .ok else .clamped, byteOf items.length ++ order.flatMap (bytesOf 1), t⟩

/-- An order is RUNNING or SUSPENDED, or a mark is live (R8, R194). -/
def State.onMachine (s : State) : Bool :=
  s.orders.any (fun o => o.state == .running || o.state == .suspended) || !s.marks.isEmpty

/-- R194: CONFIGURE. -/
def answerConfigure (body : List Byte) (s : State) : Answer :=
  let ps := configPairs body
  refuseIf (!configLengthOk body) .format <|
  refuseIf s.onMachine .state <|
  refuseIf (!itemsOk ps) .range <|
  refuseIf (!offsetsOrdered (merged s.config ps)) .range <|
    .ok (configReply s ps)

/-- R195: a configuration value as four bytes. -/
def valueBytes (v : Int) : List Byte := coordBytes (BitVec.ofInt 32 v)

/-- R195: READ CONFIG. -/
def answerReadConfig (body : List Byte) (s : State) : Answer :=
  refuseIf (body.length != 0) .format <| done s (s.config.flatMap valueBytes)

def takeNull (body : List Byte) (s : State) : State := answered 0x00 s (answerNull body s)
def takeReadLine (body : List Byte) (s : State) : State := answered 0x01 s (answerReadLine body s)
def takeConfigure (body : List Byte) (s : State) : State := answered 0x02 s (answerConfigure body s)
def takeReadConfig (body : List Byte) (s : State) : State := answered 0x03 s (answerReadConfig body s)

def execNull (body : List Byte) (s : State) : Host.Outcome State Fault Refusal := .next (takeNull body s)
def execReadLine (body : List Byte) (s : State) : Host.Outcome State Fault Refusal := .next (takeReadLine body s)
def execConfigure (body : List Byte) (s : State) : Host.Outcome State Fault Refusal := .next (takeConfigure body s)
def execReadConfig (body : List Byte) (s : State) : Host.Outcome State Fault Refusal := .next (takeReadConfig body s)

end Sys2Proof.Machine
end

