-- ==== Sys2Proof/Machine/Web.lean ====
section
/-! DEFINITION. The requests of the web tracker on the mark table: PLACE CULL (R20) and READ MARKS (R21). -/

namespace Sys2Proof.Machine

open Sys2Proof

/-- R6: the coordinate lies within 2^31 − 1 of the odometer. -/
def State.coordOk (s : State) (x : Coord) : Bool := sdist s.odometer x != -2147483648

/-- R20: PLACE CULL. The end is tested by its signed distance from the odometer modulo 2^32 (R5). Of an end that wraps past
2^31 ahead R20 does not say whether it is more than 2^30 ahead: here it lies behind and passes this test (DESIGN CHOICE,
log entry 50). -/
def answerPlaceCull (body : List Byte) (s : State) : Answer :=
  let start := coordField body 0
  let len := field body 4 4
  refuseIf (body.length != 8) .format <|
  refuseIf (!inRange 1 100000 len) .range <|
  refuseIf (!s.coordOk start) .range <|
  refuseIf (decide (1073741824 < sdist s.odometer (plusMm start len))) .range <|
  refuseIf (reached (knifeCoord s) start) .tooLate <|
  refuseIf (decide (s.freeMarks < Config.hostReserve)) .full <|
    let t := s.bumpSerial.placeCullMark (.host ⟨s.serial, start, len⟩)
    done t (byteOf t.freeMarks)

/-- R21: READ MARKS. A mark qualifies where its start stands at or after X in the order of the table (R9), by the signed
distance from the odometer. R5's comparison of two coordinates agrees while the two lie within 2^31 of each other; beyond
that it would leave the marks ahead out of R21's own reading of the whole table from X = odometer − 2^31 + 1 (DESIGN
CHOICE, log entry 39). -/
def answerReadMarks (body : List Byte) (s : State) : Answer :=
  let x := coordField body 0
  let skip := field body 4 1
  let qualify := s.marks.filter fun m => decide (sdist s.odometer x ≤ sdist s.odometer m.start)
  let shown := (qualify.drop skip).take 8
  refuseIf (body.length != 5) .format <|
  refuseIf (!s.coordOk x) .range <|
  refuseIf (decide (47 < skip)) .range <|
    done s (byteOf s.marks.length ++ byteOf shown.length ++ boolByte (decide (skip + 8 < qualify.length))
      ++ shown.flatMap markRecord)

def takePlaceCull (body : List Byte) (s : State) : State := answered 0x28 s (answerPlaceCull body s)
def takeReadMarks (body : List Byte) (s : State) : State := answered 0x29 s (answerReadMarks body s)

def execPlaceCull (body : List Byte) (s : State) : Host.Outcome State Fault Refusal := .next (takePlaceCull body s)
def execReadMarks (body : List Byte) (s : State) : Host.Outcome State Fault Refusal := .next (takeReadMarks body s)

end Sys2Proof.Machine
end

