-- ==== Sys2Proof/Machine/Port.lean ====
section
/-! DEFINITION. The request port (R189 to R191): the bits of an exchange and the bytes they complete, the bytes read as a
request of the table of kinds, the FORMAT refusal of a frame that passes no test, the frame of a request, and the
response frame that SDO shifts out. -/

namespace Sys2Proof.Machine

open Sys2Proof

/-- R192: the request of a kind byte. -/
def requestOf : Nat → Option (List Byte → Instr)
  | 0x00 => some .null | 0x01 => some .readLine | 0x02 => some .configure | 0x03 => some .readConfig
  | 0x04 => some .lineReset
  | 0x08 => some .readErrors | 0x09 => some .setErrorPolicy | 0x0A => some .clearErrors | 0x0B => some .releaseHold
  | 0x0C => some .collect
  | 0x10 => some .enterOrder | 0x11 => some .amendOrder | 0x12 => some .scheduleOrder | 0x13 => some .unscheduleOrder
  | 0x14 => some .rushOrder | 0x15 => some .cancelOrder | 0x16 => some .retireOrder | 0x17 => some .readOrder
  | 0x18 => some .readSequence
  | 0x20 => some .enterGrade | 0x21 => some .amendGrade | 0x22 => some .retireGrade | 0x23 => some .readGrade
  | 0x28 => some .placeCull | 0x29 => some .readMarks
  | 0x30 => some .announceReel | 0x31 => some .withdrawReel | 0x32 => some .threadReel | 0x33 => some .unthreadReel
  | 0x34 => some .readReel
  | 0x38 => some .requestSplice | 0x39 => some .clearStand | 0x3A => some .readStand
  | 0x40 => some .clearStation | 0x41 => some .readSlitter
  | 0x48 => some .readKnife
  | 0x50 => some .refreshBond | 0x51 => some .readBond
  | 0x58 => some .readStationQueues
  | _ => none

/-- R192: the kind and the body of a request; none for a command that is no request. -/
def requestParts : Instr → Option (Nat × List Byte)
  | .null b => some (0x00, b) | .readLine b => some (0x01, b) | .configure b => some (0x02, b)
  | .readConfig b => some (0x03, b) | .lineReset b => some (0x04, b)
  | .readErrors b => some (0x08, b) | .setErrorPolicy b => some (0x09, b) | .clearErrors b => some (0x0A, b)
  | .releaseHold b => some (0x0B, b) | .collect b => some (0x0C, b)
  | .enterOrder b => some (0x10, b) | .amendOrder b => some (0x11, b) | .scheduleOrder b => some (0x12, b)
  | .unscheduleOrder b => some (0x13, b) | .rushOrder b => some (0x14, b) | .cancelOrder b => some (0x15, b)
  | .retireOrder b => some (0x16, b) | .readOrder b => some (0x17, b) | .readSequence b => some (0x18, b)
  | .enterGrade b => some (0x20, b) | .amendGrade b => some (0x21, b) | .retireGrade b => some (0x22, b)
  | .readGrade b => some (0x23, b)
  | .placeCull b => some (0x28, b) | .readMarks b => some (0x29, b)
  | .announceReel b => some (0x30, b) | .withdrawReel b => some (0x31, b) | .threadReel b => some (0x32, b)
  | .unthreadReel b => some (0x33, b) | .readReel b => some (0x34, b)
  | .requestSplice b => some (0x38, b) | .clearStand b => some (0x39, b) | .readStand b => some (0x3A, b)
  | .clearStation b => some (0x40, b) | .readSlitter b => some (0x41, b)
  | .readKnife b => some (0x48, b)
  | .refreshBond b => some (0x50, b) | .readBond b => some (0x51, b)
  | .readStationQueues b => some (0x58, b)
  | .forwardCount | .reverseCount | .speedWindowClose | .lineStopped | .cutPulse | .jointPulse _ | .deviceReset
  | .reelLoaded _ _ _ | .reelRemoved _ _ | .diameter _ _ _ | .setPositions _ _ | .stackTaken | .malformedReport _
  | .reportFrameTimeout | .spliceTimeout _ | .setTimeout _ | .diameterStale _ | .runOut _ | .bumpEnd _
  | .arbiterTake | .spliceGo | .speedCap | .knifeSchedule | .slitterSet | .slitterExchange | .stackChange
  | .bondSetpoint | .requestFrameRefused _ => none

/-! ### The bits of an exchange (R189) -/

/-- R189: the bytes that the bits sampled on SDI complete, the first of each eight the most significant; the bits of an
incomplete last byte are discarded. -/
def bytesOfBits : List Bool → List Byte
  | b7 :: b6 :: b5 :: b4 :: b3 :: b2 :: b1 :: b0 :: rest =>
    BitVec.ofBoolListBE [b7, b6, b5, b4, b3, b2, b1, b0] :: bytesOfBits rest
  | _ => []

/-- R189: the bits that carry bytes over the port. -/
def bitsOfBytes (bs : List Byte) : List Bool := bs.flatMap bitsOfByte

/-! ### The response frame (R189, R191) -/

/-- R191: the code of a status. -/
def Status.code : Status → Nat
  | .ok => 0 | .clamped => 1 | .format => 2 | .range => 3 | .noSuch => 4 | .exists => 5 | .full => 6 | .state => 7
  | .inUse => 8 | .tooLate => 9

/-- R191: the response frame: kind, status code, body length, body. -/
def Response.frame (r : Response) : List Byte :=
  r.kind :: BitVec.ofNat 8 r.status.code :: BitVec.ofNat 8 r.body.length :: r.body

/-- R189: what SDO shifts out over an exchange of n bytes: the pending response frame from its first byte, then zero
bytes. -/
def State.shiftedOut (s : State) (n : Nat) : List Byte :=
  s.port.frame.take n ++ List.replicate (n - s.port.frame.length) 0#8

/-- R189: the level of SDO at a rising edge of SCK, the edges of the exchange counted from 0; none where the part does not
drive it, which is whenever CSn is high. The pending response frame goes out most significant bit first, then zero bits. -/
def State.sdo (s : State) (csLow : Bool) (edge : Nat) : Option Bool :=
  if csLow then some ((bitsOfBytes s.port.frame).getD edge false) else none

/-! ### The request frame (R190) -/

/-- R190: the longest body. -/
def maxBody : Nat := 124

/-- R190: the frame of a request: kind, body length, body. -/
def requestFrame (kind : Nat) (body : List Byte) : List Byte :=
  BitVec.ofNat 8 kind :: BitVec.ofNat 8 body.length :: body

/-- R190: the request a frame holds; none where a test fails. Bytes beyond 2 + L are ignored. -/
def parseFrame : List Byte → Option Instr
  | kind :: len :: rest =>
    if len.toNat ≤ maxBody ∧ len.toNat ≤ rest.length then
      match requestOf kind.toNat with
      | some make => if (make (rest.take len.toNat)).bodyLengthOk then some (make (rest.take len.toNat)) else none
      | none => none
    else none
  | _ => none

/-- R190: a request is handed to the block that owns the record it names. -/
def takeRequest (i : Instr) (s : State) : State :=
  match i with
  | .null b => takeNull b s | .readLine b => takeReadLine b s | .configure b => takeConfigure b s
  | .readConfig b => takeReadConfig b s | .lineReset b => takeLineReset b s
  | .readErrors b => takeReadErrors b s | .setErrorPolicy b => takeSetErrorPolicy b s
  | .clearErrors b => takeClearErrors b s | .releaseHold b => takeReleaseHold b s | .collect b => takeCollect b s
  | .enterOrder b => takeEnterOrder b s | .amendOrder b => takeAmendOrder b s
  | .scheduleOrder b => takeScheduleOrder b s | .unscheduleOrder b => takeUnscheduleOrder b s
  | .rushOrder b => takeRushOrder b s | .cancelOrder b => takeCancelOrder b s | .retireOrder b => takeRetireOrder b s
  | .readOrder b => takeReadOrder b s | .readSequence b => takeReadSequence b s
  | .enterGrade b => takeEnterGrade b s | .amendGrade b => takeAmendGrade b s | .retireGrade b => takeRetireGrade b s
  | .readGrade b => takeReadGrade b s
  | .placeCull b => takePlaceCull b s | .readMarks b => takeReadMarks b s
  | .announceReel b => takeAnnounceReel b s | .withdrawReel b => takeWithdrawReel b s
  | .threadReel b => takeThreadReel b s | .unthreadReel b => takeUnthreadReel b s | .readReel b => takeReadReel b s
  | .requestSplice b => takeRequestSplice b s | .clearStand b => takeClearStand b s | .readStand b => takeReadStand b s
  | .clearStation b => takeClearStation b s | .readSlitter b => takeReadSlitter b s
  | .readKnife b => takeReadKnife b s
  | .refreshBond b => takeRefreshBond b s | .readBond b => takeReadBond b s
  | .readStationQueues b => takeReadStationQueues b s
  | .forwardCount | .reverseCount | .speedWindowClose | .lineStopped | .cutPulse | .jointPulse _ | .deviceReset
  | .reelLoaded _ _ _ | .reelRemoved _ _ | .diameter _ _ _ | .setPositions _ _ | .stackTaken | .malformedReport _
  | .reportFrameTimeout | .spliceTimeout _ | .setTimeout _ | .diameterStale _ | .runOut _ | .bumpEnd _
  | .arbiterTake | .spliceGo | .speedCap | .knifeSchedule | .slitterSet | .slitterExchange | .stackChange
  | .bondSetpoint | .requestFrameRefused _ => s

/-- R189, R190: the end of an exchange that completed the given bytes, when CSn rises. Without a complete byte nothing is decoded; a frame that fails a
test is refused with FORMAT, its kind byte repeated (log entry 25); one that passes is no refused frame and is handed
on (log entry 7). -/
def State.exchangeEnds (s : State) (frame : List Byte) : State :=
  match frame with
  | [] => s
  | kind :: _ =>
    match parseFrame frame with
    | some i => takeRequest i s
    | none => s.respond kind .format []

/-- REQUEST_FRAME_REFUSED (R189, R190): an exchange, by the bits sampled on SDI at the rising edges of SCK from the fall
of CSn to its rise. -/
def execRequestFrameRefused (bits : List Bool) (s : State) : Host.Outcome State Fault Refusal :=
  .next (s.exchangeEnds (bytesOfBits bits))

end Sys2Proof.Machine
end

