-- ==== Sys2Proof/Machine/Tracker.lean ====
section
/-! DEFINITION. The web tracker: the forward and the reverse count (R1, R2, R14 to R19) with what each block does at a
count, the close of a speed window (R3, R4), the stopped line and device reset. -/

namespace Sys2Proof.Machine

open Sys2Proof

/-! ### Crossings (R14, R15) -/

/-- R14, R16: the point of a bond crossing, from P, or after a closing from the incoming start P + G as the mark's fields
give it now (R15; log entry 17). -/
def CrossEntry.bondPoint (e : CrossEntry) (p : Coord) (incoming : Option Coord) (offset : Int) : Option Coord :=
  match e.status with
  | .pending => some (shiftBy p offset)
  | .rearmed => incoming.map fun start => shiftBy start offset
  | .done | .silent => none

/-- R14: the point of a crossing of a CHANGE mark, while it is pending and has one. -/
def ChangeMark.point (c : List Int) (m : ChangeMark) (e : CrossEntry) : Option Coord :=
  match e.name with
  | .ph k => e.bondPoint m.p m.stop (phOffset c k)
  | .glue g => e.bondPoint m.p m.stop (glueOffset c g)
  | .freeze => if e.isPending && m.state == .provisional then some (shiftBy m.p (-(freezeDistance c : Int))) else none
  | .decision => if e.isPending then some (shiftBy m.xEx (ssOffset c - plungeLead c)) else none
  | .knife => if e.isPending then m.stop.map fun e => shiftBy e (knOffset c) else none

/-- R14: the point of a glue crossing of a JOINT mark. -/
def JointMark.point (c : List Int) (m : JointMark) (e : CrossEntry) : Option Coord :=
  match e.name with
  | .glue g => e.bondPoint m.joint none (glueOffset c g)
  | _ => none

/-- The crossings of a mark with their points. -/
def Mark.points (c : List Int) : Mark → List (Cross × Option Coord)
  | .change m => m.crossings.map fun e => (e.name, m.point c e)
  | .joint m => m.crossings.map fun e => (e.name, m.point c e)
  | .gap _ | .host _ => []

/-- R14: the crossings of a mark that fire at the present odometer. -/
def State.firing (s : State) (m : Mark) : List Cross :=
  (m.points s.config).filterMap fun x =>
    match x.2 with
    | some p => if reached s.odometer p then some x.1 else none
    | none => none

/-- The crossing of a JOINT mark becomes done. -/
def State.jointCrossDone (s : State) (uid : Nat) (c : Cross) : State :=
  { s with marks := s.marks.map fun m =>
      match m with
      | .joint j =>
        if j.uid == uid then
          .joint { j with crossings := j.crossings.map fun e => if e.name = c then ⟨e.name, .done⟩ else e }
        else m
      | m => m }

/-- R14, R15: a crossing of a CHANGE mark is taken by its block; a bond or decision crossing without an incoming order is
done without a call. -/
def State.fireChange (s : State) (m : ChangeMark) (c : Cross) : State :=
  let mark (st : CrossStatus) : State := s.updateChange m.uid fun x => x.setCross c st
  match c with
  | .freeze => s.freeze m
  | .ph k =>
    match m.incoming, s.incomingGrade m with
    | none, _ => mark .silent
    | some _, some g => (mark .done).switchPreheater k g
    | some _, none => mark .done
  | .glue u =>
    match m.incoming, s.incomingGrade m with
    | none, _ => mark .silent
    | some _, some g => (mark .done).switchGlue u g
    | some _, none => mark .done
  | .decision => if m.incoming.isNone then mark .silent else (mark .done).decision m
  | .knife => (mark .done).knifeCrossing m

/-- R14: the crossing c of a mark fires. -/
def State.fire (s : State) (m : Mark) (c : Cross) : State :=
  match m, c with
  | .change x, c => s.fireChange x c
  | .joint x, .glue g => (s.jointCrossDone x.uid c).jointAt g
  | _, _ => s

/-! ### Retirement and re-base (R18, R19) -/

/-- R18: the mark's end has passed the knife with its clearance. -/
def State.retires (s : State) (m : Mark) : Bool :=
  match m.stop with
  | some e => reached s.odometer (plusMm (shiftBy e (knOffset s.config)) Config.knifeClearance)
  | none => false

/-- R18, R73: a mark leaves the table; a cull zone first rebases the planner's count. -/
def State.retire (s : State) (m : Mark) : State :=
  match m.cullZone with
  | some (a, b) => (s.countRebase a b).dropMark m.uid
  | none => s.dropMark m.uid

/-- R19: 2^30 mm and 2^29 mm. -/
def rebaseAfter : Nat := 1073741824
def rebaseBehind : Nat := 536870912

/-- R19: an open run-out mark is due for re-basing. -/
def State.rebaseDue (s : State) (m : ChangeMark) : Bool :=
  m.state == .runOut && (match m.outgoing with
    | some o => reached s.odometer (plusMm o.start rebaseAfter)
    | none => false)

/-- R19: the re-base of an open run-out mark. -/
def State.rebase (s : State) (m : ChangeMark) : State :=
  match m.outgoing with
  | some o =>
    let behind := shiftBy s.odometer (-(rebaseBehind : Int))
    let p := plusMm m.p (stepsTo m.p behind o.cutLength * o.cutLength)
    s.replaceChange { m with p := p, outgoing := some { o with start := p } }
  | none => s

/-! ### The count-down (R95) -/

/-- R95: one count of a running reel at a take-up: the residue and what it takes from the remaining length. -/
def Paper.counted (r : Paper) (takeUp : Nat) : Paper :=
  let t := r.residue + takeUp
  { r with residue := t % 4096, remaining := r.remaining - t / 4096 }

/-- R95: the running reel of stand k after one count. -/
def State.countDown (s : State) (k : Stand) : State :=
  match s.runningPos k with
  | none => s
  | some p =>
    match (s.slot k p).reel with
    | .running r st t =>
      s.setSlot k p { s.slot k p with reel := .running (r.counted (takeUpOf s.config k)) st t }
    | _ => s

/-! ### The events of one count -/

/-- What a forward count can bring about, each a separate event at the block it concerns (R1, R14, R18, R19, R96, R97,
R107, R108, R142, R146, R167). -/
inductive CountEvent
  | fire (mark : Nat) (c : Cross)
  | retire (mark : Nat)
  | rebase (mark : Nat)
  | low (k : Stand)
  | runOut (k : Stand)
  | bumpEnd (g : GlueUnit)
  | due (k : Stand)
  | check (k : Stand)
  | owner
  | overdue
  deriving DecidableEq, Repr

def State.findMark (s : State) (uid : Nat) : Option Mark := s.marks.find? fun m => m.uid == uid

/-- One event of a count, taken where its condition still holds. -/
def State.countEvent (e : CountEvent) (s : State) : State :=
  match e with
  | .fire u c =>
    match s.findMark u with
    | some m => if (s.firing m).contains c then s.fire m c else s
    | none => s
  | .retire u =>
    match s.findMark u with
    | some m => if s.retires m then s.retire m else s
    | none => s
  | .rebase u =>
    match s.findChange u with
    | some m => if s.rebaseDue m then s.rebase m else s
    | none => s
  | .low k => s.lowReelIfLow k
  | .runOut k => s.runOutIfEmpty k
  | .bumpEnd g => s.endBump g
  | .due k => s.dueCheck k
  | .check k => s.recheck k
  | .owner => s.passOwner
  | .overdue => s.overdueTest

/-- R107: an ARMED stand whose due odometer has been reached. -/
def State.isDue (s : State) (k : Stand) : Bool :=
  match (s.seq k).state, (s.seq k).splice with
  | .armed, some sp => reached s.odometer sp.due
  | _, _ => false

/-- R146: the current nominal cut is overdue. -/
def State.cutOverdue (s : State) : Bool :=
  s.knife.owner != .unassigned && (match s.knife.grid with
    | some g => overdueAt g (knifeCoord s)
    | none => false)

/-- The events of a count, from the state before it, and the state after its count-downs. -/
def countEvents (old s : State) : List CountEvent :=
  s.marks.flatMap (fun m => (s.firing m).map (CountEvent.fire m.uid))
    ++ (s.marks.filter s.retires).map (fun m => CountEvent.retire m.uid)
    ++ (s.changes.filter s.rebaseDue).map (fun m => CountEvent.rebase m.uid)
    ++ (Stand.all.filter fun k => s.low k && !old.low k).map CountEvent.low
    ++ (Stand.all.filter s.runOutDue).map CountEvent.runOut
    ++ (GlueUnit.all.filter s.bumpDue).map CountEvent.bumpEnd
    ++ (Stand.all.filter s.isDue).map CountEvent.due
    ++ (Stand.all.filter fun k => (s.seq k).state.waitsForReel).map CountEvent.check
    ++ (if s.ownerDue then [.owner] else [])
    ++ (if s.cutOverdue then [.overdue] else [])

/-- R1: odometer and Δ take the count, and a run of reverse counts ends. -/
def State.advance (s : State) : State :=
  { s with odometer := s.odometer + 1#32, delta := s.delta + 1, reverseRun := false }

/-- R95: the count-downs of all stands. -/
def State.countDownAll (s : State) : State := Stand.all.foldl State.countDown s

/-- R1: a forward count. -/
def State.forwardCount (s : State) : State :=
  let t := s.advance.countDownAll
  takeEvents State.countEvent (countEvents s t) t

/-- R2: a reverse count. -/
def State.reverseCount (s : State) : State :=
  if s.reverseRun then s else ({ s with reverseRun := true } : State).raise .reverseMotion .none

/-! ### The close of a speed window (R3, R4) -/

/-- R3: the line speed of a window with advance Δ, in 0.1 m/min. -/
def speedOf (delta : Nat) : Nat := min 9999 (6 * delta)

/-- R4: the zero-window count after a close. -/
def zeroAfter (delta z : Nat) : Nat := if delta = 0 then min 20 (z + 1) else 0

/-- R4: the stopped condition after a close. -/
def stoppedAfter (delta z : Nat) (before? : Bool) : Bool :=
  if delta = 0 then before? || decide (zeroAfter delta z = 20) else false

/-- R3, R4: speed, Δ, z and the condition at a close. -/
def State.closeWindow (s : State) : State :=
  { s with
    speed := speedOf s.delta
    delta := 0
    windowMs := 0
    zeroWindows := zeroAfter s.delta s.zeroWindows
    stopped := stoppedAfter s.delta s.zeroWindows s.stopped }

/-- What the speed and the condition of a close bring about at the splice controller and the reel monitor (R3). -/
inductive CloseEvent
  | go (k : Stand)
  | cap
  | stale (k : Stand)
  deriving DecidableEq, Repr

/-- R110: the speed cap at a close with some stand in WAIT_GO. -/
def State.capAtClose (s : State) : State := if s.someStand (· == .waitGo) then s.capRequest else s

def State.closeEvent (e : CloseEvent) (s : State) : State :=
  match e with
  | .go k => s.goTest k
  | .cap => s.capAtClose
  | .stale k => s.staleTest k

/-- R98: the timers advance at a close after which the line is running. -/
def State.staleAdvanceAll (s : State) : State := if s.stopped then s else Stand.all.foldl State.staleAdvance s

/-- R98: the stand's reel goes stale. -/
def State.staleDue (s : State) (k : Stand) : Bool :=
  match s.runningPos k with
  | none => false
  | some p =>
    match (s.slot k p).reel with
    | .running _ false t => decide (staleLimit s.config < t)
    | _ => false

/-- The events of a close. -/
def closeEvents (s : State) : List CloseEvent :=
  (Stand.all.filter fun k => (s.seq k).state == .waitGo).map CloseEvent.go
    ++ (if s.someStand (· == .waitGo) then [.cap] else [])
    ++ (if s.stopped then [] else (Stand.all.filter s.staleDue).map CloseEvent.stale)

/-- R164: the slew steps, the final action of the speed handling, each a separate event. -/
def State.slewAll (s : State) : State :=
  takeEvents State.slewStep (Stand.all.filter fun k => (s.preheaters.get k).active.isSome) s

/-- R3: the close of a speed window. -/
def State.windowClose (s : State) : State :=
  let t := s.closeWindow.staleAdvanceAll
  (takeEvents State.closeEvent (closeEvents t) t).slewAll

/-! ### The commands -/

/-- R184, R187: a high period of ENC_CNT with ENC_DIR at a level, and the low after it. It gives one count; where ENC_CNT is
high already, as it can be when a reset ends, it has to go low first and the period gives none (log entry 37). -/
def State.encoderPeriod (s : State) (dir : Bool) (act : State → State) : State :=
  let t : State := { s with inputs := { s.inputs with encCnt := false, encDir := dir } }
  if s.inputs.encCnt then t else act t

/-- FORWARD_COUNT (R1, R184). -/
def execForwardCount (s : State) : Host.Outcome State Fault Refusal := .next (s.encoderPeriod true State.forwardCount)

/-- REVERSE_COUNT (R2, R184). -/
def execReverseCount (s : State) : Host.Outcome State Fault Refusal := .next (s.encoderPeriod false State.reverseCount)

/-- SPEED_WINDOW_CLOSE (R3, R4). -/
def execSpeedWindowClose (s : State) : Host.Outcome State Fault Refusal := .next s.windowClose

/-- LINE_STOPPED (R4): the line is stopped once z stands at 20. -/
def execLineStopped (s : State) : Host.Outcome State Fault Refusal :=
  .next (if s.zeroWindows = 20 then { s with stopped := true } else s)

/-- R187: the levels that the inputs hold when a reset ends, which the part does not know before: free values, from the d-th
on (log entry 37). -/
def levelsAtReset (d : Nat) : InputLevels :=
  ⟨Config.freeBit d, Config.freeBit (d + 1), Config.freeBit (d + 2), Config.freeBit (d + 3), Config.freeBit (d + 4),
    Config.freeBit (d + 5), Config.freeBit (d + 6), Config.freeBit (d + 7)⟩

/-- DEVICE_RESET: every record takes its value after device reset, the input filters the levels that their inputs then hold
(R187). The command queue and the count of free values are the model's own: the queue stays, the count goes on by the eight
levels drawn here (log entry 28). -/
def execDeviceReset (s : State) : Host.Outcome State Fault Refusal :=
  .next { State.reset with inputs := levelsAtReset s.draws, draws := s.draws + 8, pending := s.pending }

end Sys2Proof.Machine
end

