-- ==== Sys2Proof/Machine/Dispatch.lean ====
section
/-! DEFINITION. The meaning of every command, one arm per row of the opcode table. -/

namespace Sys2Proof.Machine

open Sys2Proof

def exec (i : Instr) (s : State) : Host.Outcome State Fault Refusal :=
  match i with
  | .null body => Sys2Proof.Machine.execNull body s
  | .readLine body => Sys2Proof.Machine.execReadLine body s
  | .configure body => Sys2Proof.Machine.execConfigure body s
  | .readConfig body => Sys2Proof.Machine.execReadConfig body s
  | .lineReset body => Sys2Proof.Machine.execLineReset body s
  | .readErrors body => Sys2Proof.Machine.execReadErrors body s
  | .setErrorPolicy body => Sys2Proof.Machine.execSetErrorPolicy body s
  | .clearErrors body => Sys2Proof.Machine.execClearErrors body s
  | .releaseHold body => Sys2Proof.Machine.execReleaseHold body s
  | .collect body => Sys2Proof.Machine.execCollect body s
  | .enterOrder body => Sys2Proof.Machine.execEnterOrder body s
  | .amendOrder body => Sys2Proof.Machine.execAmendOrder body s
  | .scheduleOrder body => Sys2Proof.Machine.execScheduleOrder body s
  | .unscheduleOrder body => Sys2Proof.Machine.execUnscheduleOrder body s
  | .rushOrder body => Sys2Proof.Machine.execRushOrder body s
  | .cancelOrder body => Sys2Proof.Machine.execCancelOrder body s
  | .retireOrder body => Sys2Proof.Machine.execRetireOrder body s
  | .readOrder body => Sys2Proof.Machine.execReadOrder body s
  | .readSequence body => Sys2Proof.Machine.execReadSequence body s
  | .enterGrade body => Sys2Proof.Machine.execEnterGrade body s
  | .amendGrade body => Sys2Proof.Machine.execAmendGrade body s
  | .retireGrade body => Sys2Proof.Machine.execRetireGrade body s
  | .readGrade body => Sys2Proof.Machine.execReadGrade body s
  | .placeCull body => Sys2Proof.Machine.execPlaceCull body s
  | .readMarks body => Sys2Proof.Machine.execReadMarks body s
  | .announceReel body => Sys2Proof.Machine.execAnnounceReel body s
  | .withdrawReel body => Sys2Proof.Machine.execWithdrawReel body s
  | .threadReel body => Sys2Proof.Machine.execThreadReel body s
  | .unthreadReel body => Sys2Proof.Machine.execUnthreadReel body s
  | .readReel body => Sys2Proof.Machine.execReadReel body s
  | .requestSplice body => Sys2Proof.Machine.execRequestSplice body s
  | .clearStand body => Sys2Proof.Machine.execClearStand body s
  | .readStand body => Sys2Proof.Machine.execReadStand body s
  | .clearStation body => Sys2Proof.Machine.execClearStation body s
  | .readSlitter body => Sys2Proof.Machine.execReadSlitter body s
  | .readKnife body => Sys2Proof.Machine.execReadKnife body s
  | .refreshBond body => Sys2Proof.Machine.execRefreshBond body s
  | .readBond body => Sys2Proof.Machine.execReadBond body s
  | .readStationQueues body => Sys2Proof.Machine.execReadStationQueues body s
  | .forwardCount => Sys2Proof.Machine.execForwardCount s
  | .reverseCount => Sys2Proof.Machine.execReverseCount s
  | .speedWindowClose => Sys2Proof.Machine.execSpeedWindowClose s
  | .lineStopped => Sys2Proof.Machine.execLineStopped s
  | .cutPulse => Sys2Proof.Machine.execCutPulse s
  | .jointPulse stand => Sys2Proof.Machine.execJointPulse stand s
  | .deviceReset => Sys2Proof.Machine.execDeviceReset s
  | .reelLoaded stand pos readId => Sys2Proof.Machine.execReelLoaded stand pos readId s
  | .reelRemoved stand pos => Sys2Proof.Machine.execReelRemoved stand pos s
  | .diameter stand pos d => Sys2Proof.Machine.execDiameter stand pos d s
  | .setPositions station measured => Sys2Proof.Machine.execSetPositions station measured s
  | .stackTaken => Sys2Proof.Machine.execStackTaken s
  | .malformedReport levels => Sys2Proof.Machine.execMalformedReport levels s
  | .reportFrameTimeout => Sys2Proof.Machine.execReportFrameTimeout s
  | .spliceTimeout stand => Sys2Proof.Machine.execSpliceTimeout stand s
  | .setTimeout station => Sys2Proof.Machine.execSetTimeout station s
  | .diameterStale stand => Sys2Proof.Machine.execDiameterStale stand s
  | .runOut stand => Sys2Proof.Machine.execRunOut stand s
  | .bumpEnd unit => Sys2Proof.Machine.execBumpEnd unit s
  | .arbiterTake => Sys2Proof.Machine.execArbiterTake s
  | .spliceGo => Sys2Proof.Machine.execSpliceGo s
  | .speedCap => Sys2Proof.Machine.execSpeedCap s
  | .knifeSchedule => Sys2Proof.Machine.execKnifeSchedule s
  | .slitterSet => Sys2Proof.Machine.execSlitterSet s
  | .slitterExchange => Sys2Proof.Machine.execSlitterExchange s
  | .stackChange => Sys2Proof.Machine.execStackChange s
  | .bondSetpoint => Sys2Proof.Machine.execBondSetpoint s
  | .requestFrameRefused bits => Sys2Proof.Machine.execRequestFrameRefused bits s

end Sys2Proof.Machine
end

