-- ==== Sys2Proof/Machine/Tick.lean ====
section
/-! DEFINITION. One millisecond of the reference clock, which a step on an empty command queue lets pass (log entry 1): the
speed window (R3), the splice and set timers (R111, R129), and a frame in reception whose bytes have stopped (R174). -/

namespace Sys2Proof.Machine

open Sys2Proof

/-- R3: the speed window in ms. -/
def windowLength : Nat := 100

/-- R111, R129: a running timer advances; it stands still once it has exceeded its limit. -/
def Timer.advance (t : Timer) : Timer := { t with ms := min (t.limit + 1) (t.ms + 1) }

def Sequencer.tick (q : Sequencer) : Sequencer := { q with timer := q.timer.map Timer.advance }

def SlitterStation.tick (x : SlitterStation) : SlitterStation := { x with timer := x.timer.map Timer.advance }

/-- The timers and the window one millisecond later. -/
def State.millisecond (s : State) : State :=
  let q := s.seqs
  { s with
    windowMs := if windowLength ≤ s.windowMs + 1 then 0 else s.windowMs + 1
    seqs := ⟨q.l1.tick, q.m1.tick, q.l2.tick, q.m2.tick, q.l3.tick⟩
    stations := ⟨s.stations.a.tick, s.stations.b.tick⟩ }

/-- The events that the millisecond brings about: the close of the window, the timers that have newly expired, the end of a
frame in reception, to which no byte has come for longer than 100 µs (R174). -/
def tickEvents (old new : State) : List Instr :=
  (if windowLength ≤ old.windowMs + 1 then [.speedWindowClose] else [])
    ++ (Stand.all.filter fun k => new.spliceExpired k && !old.spliceExpired k).map Instr.spliceTimeout
    ++ ([Station.a, Station.b].filter fun st => new.setExpired st && !old.setExpired st).map Instr.setTimeout
    ++ (if old.receiver.isSome then [.reportFrameTimeout] else [])

/-- One event joins the command queue. -/
def State.queueEvent (i : Instr) (s : State) : State := { s with pending := s.pending ++ [i] }

/-- The tick: a millisecond passes, and what it brings about waits in the command queue, in a free order. -/
def State.tick (s : State) : State := takeEvents State.queueEvent (tickEvents s s.millisecond) s.millisecond

end Sys2Proof.Machine
end

