-- ==== Sys2Proof/Safety.lean ====
section
/-! DEFINITION. What counts as a safe state of the part: the bounds the manual gives its records, each a property of one
kind of state; and what counts as a consistent one: what the manual says of its tables together. -/

namespace Sys2Proof.Machine

open Sys2Proof

/-- R203: the line is in HOLD while a status is set, unmasked and FATAL. -/
def State.HoldsOnFatal (s : State) : Prop := s.errors.fatalSet = true → s.errors.hold = true

/-- R180: no class queue holds more than 8 commands. -/
def State.QueuesBounded (s : State) : Prop := ∀ c : LinkClass, (s.link.queue c).length ≤ 8

/-- R9: the mark table holds at most 48 marks. -/
def State.MarksBounded (s : State) : Prop := s.marks.length ≤ 48

/-- R33: the suspension stack holds at most 3 entries. -/
def State.StackBounded (s : State) : Prop := s.suspended.length ≤ 3

/-- R24, R47: the order table holds at most 64 records, the grade table at most 32 entries. -/
def State.TablesBounded (s : State) : Prop := s.orders.length ≤ 64 ∧ s.grades.length ≤ 32

/-- R125: the two slitter stations are never both ENGAGED. -/
def State.OneEngaged (s : State) : Prop := ¬ ((s.station .a).state = .engaged ∧ (s.station .b).state = .engaged)

/-- R141: at most 2 stack changes are outstanding and the lag list holds at most 4 entries. -/
def State.KnifeBounded (s : State) : Prop := s.knife.outstanding ≤ 2 ∧ s.knife.lag.length ≤ 4

/-- R3, R4: the line speed and the zero-window count keep their ranges. -/
def State.SpeedBounded (s : State) : Prop := s.speed ≤ 9999 ∧ s.zeroWindows ≤ 20

/-- R160, R161: every preheater output lies in 0..1,000 and every target that is present with it. -/
def State.OutputsBounded (s : State) : Prop :=
  ∀ k : Stand, (s.preheaters.get k).output ≤ 1000 ∧ ∀ t, (s.preheaters.get k).target = some t → t ≤ 1000

/-- R8, R193: the store has 40 items, each in its range with F at or above its minimum, and keeps the offset ordering. -/
def State.ConfigSafe (s : State) : Prop := configInRange s.config = true ∧ offsetsOrdered s.config = true

/-- A safe state: every bound above. -/
def State.Safe (s : State) : Prop :=
  s.HoldsOnFatal ∧ s.QueuesBounded ∧ s.MarksBounded ∧ s.StackBounded ∧ s.TablesBounded ∧ s.OneEngaged
    ∧ s.KnifeBounded ∧ s.SpeedBounded ∧ s.OutputsBounded ∧ s.ConfigSafe

/-! ### The consistency of the tables -/

/-- The marks of the table carry distinct serial numbers, all of them given out already (log entry 2). -/
def State.MarksKeyed (s : State) : Prop := (s.marks.map Mark.uid).Nodup ∧ ∀ m ∈ s.marks, m.uid < s.serial

/-- R24, R47: no two orders share a number or a slot, and no two grades do. -/
def State.KeysDistinct (s : State) : Prop :=
  (s.orders.map (·.fields.number)).Nodup ∧ (s.orders.map (·.slot)).Nodup
    ∧ (s.grades.map (·.fields.number)).Nodup ∧ (s.grades.map (·.slot)).Nodup

/-- R31: the run sequence holds exactly the QUEUED orders, each once. -/
def State.SequenceIsQueued (s : State) : Prop :=
  s.runSeq.Nodup ∧ ∀ n, n ∈ s.runSeq ↔ ∃ o ∈ s.orders, o.fields.number = n ∧ o.state = .queued

/-- R49: every order names a grade of the table; the reference count of a grade is the number of orders that name it, its
active count the number of those that are RUNNING or SUSPENDED. -/
def State.CountsAgree (s : State) : Prop :=
  (∀ o ∈ s.orders, ∃ g ∈ s.grades, g.fields.number = o.fields.grade)
    ∧ ∀ g ∈ s.grades,
        g.refs = (s.orders.filter fun o => o.fields.grade == g.fields.number).length
          ∧ g.active = (s.orders.filter fun o => o.fields.grade == g.fields.number
              && (o.state == .running || o.state == .suspended)).length

/-- R83: at most one slot of a stand is in the running role. -/
def State.OneRole (s : State) : Prop :=
  ∀ k : Stand, ¬ ((s.slot k .a).reel.inRole = true ∧ (s.slot k .b).reel.inRole = true)

/-- R161: the gap of every glue unit lies in 0..1,500, with the base gaps it is formed from (R48). -/
def State.GapsBounded (s : State) : Prop :=
  ∀ u : GlueUnit, (s.glue.get u).gap ≤ 1500
    ∧ (∀ a, (s.glue.get u).active = some a → a.values.base ≤ 1500)
    ∧ ∀ g ∈ s.grades, (g.fields.glue.get u).base ≤ 1500

/-- A consistent state: the tables agree with each other. -/
def State.Consistent (s : State) : Prop :=
  s.MarksKeyed ∧ s.KeysDistinct ∧ s.SequenceIsQueued ∧ s.CountsAgree ∧ s.OneRole ∧ s.GapsBounded

/-- Two states of one event of the splice controller: nothing but the sequencers, the cap flag, the link, the error unit and
the model's two counters differs. -/
def SpliceFrame (s t : State) : Prop :=
  t = { s with seqs := t.seqs, capFlag := t.capFlag, link := t.link, errors := t.errors, serial := t.serial,
               draws := t.draws }

end Sys2Proof.Machine
end

