-- ==== Sys2Proof/Certificates/Slice0/Obligations.lean ====
section
/-! DEFINITION. The statements about the part. A request is taken when exec answers the next state with its response
pending; `respond` writes nothing but the pending response (R191). -/

open Sys2Proof Sys2Proof.Machine

/-! ### The command queue and the clock -/

/-- A step runs the command at the front of the queue on the state with the queue's rest. The queue is the model's own
(log entries 1, 12 and 35): the manual knows no queue of commands, only steps that are each whole and indivisible. -/
def Obligations.StepRunsFrontCommand : Prop :=
  ∀ (c : Instr) (rest : List Instr) (s : State),
    step { s with pending := c :: rest } = exec c { s with pending := rest }

/-- With no command waiting, a step lets one millisecond of the reference clock pass: the window in progress is a
millisecond older, every running splice and set timer too, until it stands 1 ms above its limit; what the millisecond
brings about joins the queue: the close of the window at 100 ms, SPLICE_TIMEOUT and SET_TIMEOUT of a timer that now exceeds
its limit, REPORT_FRAME_TIMEOUT of a frame in reception, whose bytes have then stopped for longer than 100 µs. The tick and
the queue are the model's choice (log entry 1); the window of 100 ms is R3's, the timers are R111's and R129's, the 100 µs
R174's. -/
def Obligations.IdleStepIsAMillisecond : Prop :=
  ∀ s : State, s.pending = [] →
    (∃ t, step s = .next t
      ∧ t = { s with windowMs := t.windowMs, seqs := t.seqs, stations := t.stations, draws := t.draws,
                     pending := t.pending }
      ∧ t.windowMs = (if s.windowMs + 1 < 100 then s.windowMs + 1 else 0)
      ∧ (∀ k, t.seq k = { s.seq k with
          timer := (s.seq k).timer.map fun x => { x with ms := min (x.limit + 1) (x.ms + 1) } })
      ∧ (∀ st, t.station st = { s.station st with
          timer := (s.station st).timer.map fun x => { x with ms := min (x.limit + 1) (x.ms + 1) } })
      ∧ t.pending.Nodup
      ∧ ∀ i, i ∈ t.pending ↔ (i = .speedWindowClose ∧ 100 ≤ s.windowMs + 1)
          ∨ (∃ k x, i = .spliceTimeout k ∧ (s.seq k).state = .splicing ∧ (s.seq k).timer = some x ∧ x.ms = x.limit)
          ∨ (∃ st x, i = .setTimeout st ∧ (s.station st).state = .setting ∧ (s.station st).timer = some x
              ∧ x.ms = x.limit)
          ∨ (i = .reportFrameTimeout ∧ s.receiver ≠ none))
    ∧ ((∀ k, (s.seq k).timer = none) → (∀ st, (s.station st).timer = none) → s.receiver = none →
        step s = .next
          (if s.windowMs + 1 < 100 then { s with windowMs := s.windowMs + 1 }
           else { s with windowMs := 0, pending := [.speedWindowClose] }))

/-! ### The request port (R189 to R192) -/

/-- R189, R190, R192: the frame of a well-formed request, followed by any further bytes, is read back as that request, and
so is an exchange whose bits are those of the frame and of further bytes, most significant bit first, with the bits of an
incomplete last byte behind them. That the command which takes exchanges takes it as the request itself would be taken is
the model's choice (log entry 7). -/
def Obligations.RequestFrameReadsBack : Prop :=
  ∀ (i : Instr) (kind : Nat) (body extra : List Byte) (last : List Bool) (s : State),
    requestParts i = some (kind, body) → i.bodyLengthOk = true → last.length < 8 →
      parseFrame (requestFrame kind body ++ extra) = some i
        ∧ exec (.requestFrameRefused (bitsOfBytes (requestFrame kind body ++ extra) ++ last)) s = exec i s

/-- R192's table of kinds. -/
def requestKinds : List Nat :=
  [0x00, 0x01, 0x02, 0x03, 0x04, 0x08, 0x09, 0x0A, 0x0B, 0x0C, 0x10, 0x11, 0x12, 0x13, 0x14, 0x15, 0x16, 0x17, 0x18,
   0x20, 0x21, 0x22, 0x23, 0x28, 0x29, 0x30, 0x31, 0x32, 0x33, 0x34, 0x38, 0x39, 0x3A, 0x40, 0x41, 0x48, 0x50, 0x51,
   0x58]

/-- R189, R190: an exchange of fewer than eight edges changes nothing, and one whose bits complete bytes depends on those
bytes alone: bit j of a byte is the one sampled at its edge 7 - j, and the bits of an incomplete last byte are discarded. A
frame of one byte, a declared length above 124, a frame shorter than its declared length, an unknown kind and a wrong body
length are each refused with FORMAT, which changes nothing but the pending response. The kind byte of the answer is the
model's reading (log entry 25). -/
def Obligations.BadFramesAreRefusedWithFormat : Prop :=
  ∀ (s : State) (last : List Bool), last.length < 8 →
    exec (.requestFrameRefused last) s = .next s
    ∧ (∀ bits : List Bool, bits.length % 8 = 0 →
        exec (.requestFrameRefused (bits ++ last)) s = exec (.requestFrameRefused bits) s
        ∧ (bytesOfBits (bits ++ last)).length = bits.length / 8
        ∧ ∀ i j, i < bits.length / 8 → j < 8 →
            ((bytesOfBits (bits ++ last)).getD i 0#8).getLsbD j = bits.getD (8 * i + (7 - j)) false)
    ∧ (∀ kind : Byte, exec (.requestFrameRefused (bitsOfBytes [kind] ++ last)) s = .next (s.respond kind .format []))
    ∧ (∀ (kind len : Byte) (rest : List Byte),
        124 < len.toNat ∨ rest.length < len.toNat ∨ kind.toNat ∉ requestKinds
          ∨ (∃ make, requestOf kind.toNat = some make ∧ (make (rest.take len.toNat)).bodyLengthOk = false) →
        exec (.requestFrameRefused (bitsOfBytes (kind :: len :: rest) ++ last)) s
          = .next (s.respond kind .format []))

/-- R191: a request answered with neither OK nor CLAMPED leaves every record as it was, except that it replaces the pending
response, whose body is empty. -/
def Obligations.RefusedRequestChangesOnlyThePort : Prop :=
  ∀ (i : Instr) (kind : Nat) (body : List Byte) (s : State), requestParts i = some (kind, body) →
    ∃ t : State, exec i s = .next t ∧
      (t.port.status ≠ .ok → t.port.status ≠ .clamped →
        t = s.respond (BitVec.ofNat 8 kind) t.port.status [])

/-- R190: NULL changes no record. R42, R43, R53, R21, R92, R121, R202: READ ORDER answers with the order's record, READ
SEQUENCE with the length, the head's rush flag, the stack and up to 60 entries beyond those skipped, READ GRADE with the
entry named or the one with the lowest number above, READ MARKS with up to 8 of the marks that start at or after X, READ
REEL with the slot's record, READ STAND with the stand's items, READ ERRORS with the unit. R138, R157, R170, R183: READ
SLITTER answers with both stations and up to 8 entries of the decision list, READ KNIFE with the knife counter, READ BOND
with the speed and the eight channels, READ STATION QUEUES with the command in the place, the five lengths and the commands
of the class named; the statement RecordsFollowTheirLayouts gives the items one by one. R195, R196: READ CONFIG and READ
LINE are answered OK too, with what their own statements say. None changes anything. Three conventions are the model's: how
the marks at or after X are told is log entry 39, the layouts that R192 does not give are log entries 4 and 54, and that the
stack of READ SEQUENCE takes as many two-byte entries as its depth says is a reading of R43 (log entry 6). -/
def Obligations.ReadsAreAnsweredAndChangeNothing : Prop :=
  ∀ (s : State) (b : List Byte),
    exec (.null []) s = .next (s.respond 0x00#8 .ok [])
    ∧ (∃ r, exec (.readLine []) s = .next (s.respond 0x01#8 .ok r))
    ∧ (∃ r, exec (.readConfig []) s = .next (s.respond 0x03#8 .ok r))
    ∧ exec (.readErrors []) s = .next (s.respond 0x08#8 .ok (statusSet s.errors.status ++ statusSet s.errors.mask
        ++ statusSet s.errors.severity ++ [if s.errors.hold then 1#8 else 0#8] ++ errorRecord s.errors.first))
    ∧ (b.length = 2 → ∀ o, s.findOrder (field b 0 2) = some o →
        exec (.readOrder b) s = .next (s.respond 0x17#8 .ok (orderRecord s o)))
    ∧ (b.length = 1 → field b 0 1 ≤ 63 →
        let shown := (s.runSeq.drop (field b 0 1)).take 60
        ∃ rush : Bool, (rush = true ↔ ∃ h o, s.runSeq.head? = some h ∧ s.findOrder h = some o ∧ o.rush = true)
          ∧ exec (.readSequence b) s = .next (s.respond 0x18#8 .ok (byteOf s.runSeq.length ++ byteOf shown.length
              ++ [if rush then 1#8 else 0#8] ++ byteOf s.suspended.length
              ++ s.suspended.flatMap (bytesOf 2) ++ shown.flatMap (bytesOf 2))))
    ∧ (b.length = 3 → field b 0 2 ≤ 9999 → field b 2 1 = 0 → ∀ g, s.findGrade (field b 0 2) = some g →
        exec (.readGrade b) s = .next (s.respond 0x23#8 .ok (1#8 :: gradeBytes g)))
    ∧ (b.length = 3 → field b 0 2 ≤ 9999 → field b 2 1 = 1 →
        (∀ g ∈ s.grades, field b 0 2 < g.fields.number →
          (∀ h ∈ s.grades, field b 0 2 < h.fields.number → h ≠ g → g.fields.number < h.fields.number) →
          exec (.readGrade b) s = .next (s.respond 0x23#8 .ok (1#8 :: gradeBytes g)))
        ∧ ((∀ g ∈ s.grades, g.fields.number ≤ field b 0 2) →
            exec (.readGrade b) s = .next (s.respond 0x23#8 .ok (List.replicate 108 0#8))))
    ∧ (b.length = 5 → sdist s.odometer (coordField b 0) ≠ -2147483648 → field b 4 1 ≤ 47 →
        let found := s.marks.filter fun m => decide (sdist s.odometer (coordField b 0) ≤ sdist s.odometer m.start)
        let shown := (found.drop (field b 4 1)).take 8
        exec (.readMarks b) s = .next (s.respond 0x29#8 .ok (byteOf s.marks.length ++ byteOf shown.length
          ++ [if field b 4 1 + 8 < found.length then 1#8 else 0#8] ++ shown.flatMap markRecord)))
    ∧ (b.length = 2 → ∀ k p, placeOf b = some (k, p) →
        exec (.readReel b) s = .next (s.respond 0x34#8 .ok (reelRecord s k p)))
    ∧ (b.length = 1 → ∀ k, standOf (field b 0 1) = some k →
        exec (.readStand b) s = .next (s.respond 0x3A#8 .ok (standBytes s k)))
    ∧ exec (.readSlitter []) s = .next (s.respond 0x41#8 .ok (stationBytes s .a ++ stationBytes s .b
        ++ byteOf s.decisions.length ++ byteOf (s.decisions.take 8).length
        ++ (s.decisions.take 8).flatMap (decisionBytes s)))
    ∧ exec (.readKnife []) s = .next (s.respond 0x48#8 .ok (coordBytes (shiftBy s.odometer (-(knOffset s.config)))
        ++ ownerBytes s
        ++ (match s.knife.grid with
            | some g => 1#8 :: gridPosBytes s g.pos
                ++ 1#8 :: (coordBytes g.n ++ bytesOf 2 g.sheet ++ [if g.spoiled then 1#8 else 0#8])
            | none => List.replicate 14 0#8)
        ++ byteOf s.knife.outstanding
        ++ (match s.knife.postponed with
            | some p => 1#8 :: postponedBytes p
            | none => List.replicate 10 0#8)
        ++ byteOf s.knife.split.length ++ byteOf s.knife.lag.length
        ++ s.knife.lag.flatMap fun e => coordBytes e.start ++ coordBytes e.stop))
    ∧ exec (.readBond []) s = .next (s.respond 0x51#8 .ok (bytesOf 2 s.speed
        ++ preheaterBytes s .l1 ++ preheaterBytes s .m1 ++ preheaterBytes s .l2 ++ preheaterBytes s .m2
        ++ preheaterBytes s .l3 ++ channelBytes s .g1 ++ channelBytes s .g2 ++ channelBytes s .g3))
    ∧ (b.length = 1 → ∀ queue, (field b 0 1, queue) ∈ [(1, s.link.splice), (2, s.link.knife), (3, s.link.slitter),
          (4, s.link.stacker), (5, s.link.bond)] →
        exec (.readStationQueues b) s = .next (s.respond 0x58#8 .ok ((match s.link.place with
            | some c => 1#8 :: (commandBytes c ++ List.replicate (45 - (commandBytes c).length) 0#8)
            | none => List.replicate 46 0#8)
          ++ byteOf s.link.splice.length ++ byteOf s.link.knife.length ++ byteOf s.link.slitter.length
          ++ byteOf s.link.stacker.length ++ byteOf s.link.bond.length ++ queue.flatMap commandBytes)))
    ∧ (b.length = 1 → field b 0 1 = 0 ∨ 5 < field b 0 1 →
        exec (.readStationQueues b) s = .next (s.respond 0x58#8 .range []))

/-- R196: the 26 bytes READ LINE answers with, read back item by item: odometer, knife coordinate, line speed, zero-window
count, the seven line flags, free slots, depths, the change state, the provisional end, the statuses that are set and
unmasked. A table of CHANGE marks of which none is provisional and none an open run-out has no change state in R196 (log
entry 4). -/
def Obligations.ReadLineReportsTheLine : Prop :=
  ∀ s : State, s.speed ≤ 9999 → s.zeroWindows ≤ 20 → s.orders.length ≤ 64 → s.grades.length ≤ 32 →
      s.marks.length ≤ 48 → s.runSeq.length ≤ 64 → s.suspended.length ≤ 3 →
    ∃ b, exec (.readLine []) s = .next (s.respond 0x01#8 .ok b) ∧ b.length = 26
      ∧ coordField b 0 = s.odometer ∧ coordField b 4 = shiftBy s.odometer (-(knOffset s.config))
      ∧ field b 8 2 = s.speed ∧ field b 10 1 = s.zeroWindows
      ∧ (field b 11 1).testBit 0 = s.stopped ∧ (field b 11 1).testBit 1 = s.reverseRun
      ∧ (field b 11 1).testBit 2 = s.errors.hold ∧ (field b 11 1).testBit 3 = s.errors.hold
      ∧ ((field b 11 1).testBit 4 = true ↔ (∃ o ∈ s.orders, o.attention = true)
          ∨ (∃ k p, (s.slot k p).attention = true)
          ∨ (∃ e : ErrorKind, e.isIn s.errors.status = true ∧ e.isIn s.errors.mask = false)
          ∨ ∃ f, s.errors.first = some f ∧ f.unreported = true)
      ∧ (field b 11 1).testBit 5 = s.errors.first.isSome
      ∧ ((field b 11 1).testBit 6 = true ↔ ∃ f, s.errors.first = some f ∧ f.unreported = true)
      ∧ field b 12 1 = 64 - s.orders.length ∧ field b 13 1 = 32 - s.grades.length
      ∧ field b 14 1 = 48 - s.marks.length ∧ field b 15 1 = s.runSeq.length ∧ field b 16 1 = s.suspended.length
      ∧ (s.changes = [] → field b 17 1 = 0)
      ∧ (s.provisional.isSome → field b 17 1 = 1)
      ∧ (s.provisional = none → (∃ m ∈ s.changes, m.state = .runOut) → field b 17 1 = 2)
      ∧ (s.provisionalEnd = none → field b 18 5 = 0)
      ∧ (∀ p, s.provisionalEnd = some p → field b 18 1 = 1 ∧ coordField b 19 = p)
      ∧ (∀ e : ErrorKind, (field b 23 3).testBit (e.number - 1) = (e.isIn s.errors.status && !e.isIn s.errors.mask))

/-- The ranges of the fields of an order record (R24, R25, R28). -/
def orderInRange (o : Order) : Prop :=
  o.slot < 64 ∧ o.fields.valid = true ∧ o.segments ≤ 3 ∧ o.goodCuts ≤ 16777215 ∧ o.cullCuts ≤ 16777215
    ∧ o.byReason.change ≤ 16777215 ∧ o.byReason.gap ≤ 16777215 ∧ o.byReason.joint ≤ 16777215
    ∧ o.byReason.host ≤ 16777215 ∧ o.byReason.deviation ≤ 16777215 ∧ o.stacksClosed ≤ 65535 ∧ o.stackFill ≤ 2000

/-- R17, R192: the code of the first crossing still pending, in the order of R14's table; 0 for none. -/
def isNextCrossing (es : List CrossEntry) (code : Nat) : Prop :=
  (∀ before e after, es = before ++ e :: after → (e.status = .pending ∨ e.status = .rearmed) →
      (∀ x ∈ before, x.status = .done ∨ x.status = .silent) →
      code = (match e.name with
        | .freeze => 1
        | .ph .l1 => 2 | .ph .m1 => 3 | .ph .l2 => 4 | .ph .m2 => 5 | .ph .l3 => 6
        | .glue .g1 => 7 | .glue .g2 => 8 | .glue .g3 => 9
        | .decision => 10
        | .knife => 11))
    ∧ ((∀ x ∈ es, x.status = .done ∨ x.status = .silent) → code = 0)

/-- R192, R191, R189, R17: the order record, the CHANGE, JOINT, GAP and HOST mark records, the reel record and the error
record, read back item by item at the offsets of R192's table; the response frame as kind, status code, body length and
body; what SDO shifts out, that frame from its first byte and then zero bytes, most significant bit first, and driven only
while CSn is low. Each for fields in their ranges. The items of READ STAND, of a station and an entry of READ SLITTER, of
the owner, the grid and the postponed change of READ KNIFE, of the channels of READ BOND and of the commands of READ
STATION QUEUES stand one after the other as R121, R138, R157, R170 and R179 list them, each optional one behind its
presence byte (log entry 4; a set timer that does not run is absent, log entry 43). An entry of READ GRADE carries the items
of R53; their order and widths, the glue values in pairs of base gap and joint bump, are the model's choice (log entry
54). -/
def Obligations.RecordsFollowTheirLayouts : Prop :=
  ∀ s : State,
    (∀ o : Order, orderInRange o → (∀ n ∈ s.runSeq, n ≤ 65535) →
      let b := orderRecord s o
      b.length = 51 + 2 * (o.fields.pattern.slits.length + o.fields.pattern.scores.length)
      ∧ field b 0 1 = o.slot ∧ field b 1 2 = o.fields.number ∧ field b 3 2 = o.fields.grade
      ∧ field b 5 2 = o.fields.cutLength ∧ field b 7 3 = o.fields.quantity ∧ field b 10 1 = o.fields.allowance
      ∧ field b 11 2 = o.fields.stackSize
      ∧ field b 13 1 = (match o.state with
          | .entered => 0 | .queued => 1 | .running => 2 | .suspended => 3 | .done => 4)
      ∧ field b 14 1 = (match o.outcome with
          | none | some .complete => 0 | some .short => 1 | some .cancelled => 2 | some .aborted => 3)
      ∧ (field b 15 1).testBit 0 = o.rush ∧ (field b 15 1).testBit 1 = o.cancel
      ∧ (field b 15 1).testBit 2 = o.stacked ∧ (field b 15 1).testBit 3 = o.attention
      ∧ (field b 15 1).testBit 4 = o.outcome.isSome
      ∧ (o.state ≠ .queued → (field b 15 1).testBit 5 = false ∧ field b 16 2 = 0)
      ∧ (o.state = .queued → ∀ before rest next, s.runSeq = before ++ o.fields.number :: next :: rest →
          o.fields.number ∉ before → (field b 15 1).testBit 5 = true ∧ field b 16 2 = next)
      ∧ field b 18 1 = o.segments ∧ field b 19 3 = o.goodCuts ∧ field b 22 3 = o.cullCuts
      ∧ field b 25 3 = o.byReason.change ∧ field b 28 3 = o.byReason.gap ∧ field b 31 3 = o.byReason.joint
      ∧ field b 34 3 = o.byReason.host ∧ field b 37 3 = o.byReason.deviation
      ∧ field b 40 2 = o.stacksClosed ∧ field b 42 2 = o.stackFill
      ∧ field b 44 4 = o.goodCuts * (o.fields.pattern.slits.length - 1)
      ∧ field b 48 1 = o.fields.pattern.slits.length - 1
      ∧ field b 49 1 = o.fields.pattern.slits.length ∧ field b 50 1 = o.fields.pattern.scores.length
      ∧ ∀ i, i < (o.fields.pattern.slits ++ o.fields.pattern.scores).length →
          field b (51 + 2 * i) 2 = (o.fields.pattern.slits ++ o.fields.pattern.scores).getD i 0)
    ∧ (∀ m : ChangeMark, m.extensions ≤ 65535 → m.waste ≤ 16777215 → (∀ n, m.incoming = some n → n ≤ 65535) →
        (∀ o, m.outgoing = some o → o.order ≤ 65535 ∧ o.cutLength ≤ 65535) →
        let b := markRecord (.change m)
        b.length = 30 ∧ field b 0 1 = 1
        ∧ field b 1 1 % 4 = (match m.state with
            | .provisional => 0 | .frozen => 1 | .runOut => 2)
        ∧ (field b 1 1).testBit 2 = m.pinned ∧ (field b 1 1).testBit 3 = m.length.isSome
        ∧ (field b 1 1).testBit 4 = m.outgoing.isSome ∧ (field b 1 1).testBit 5 = m.incoming.isSome
        ∧ coordField b 2 = m.p
        ∧ coordField b 6 = (match m.length with
            | some g => plusMm m.p g
            | none => 0#32)
        ∧ field b 10 2 = (m.outgoing.map (·.order)).getD 0 ∧ coordField b 12 = (m.outgoing.map (·.start)).getD 0#32
        ∧ field b 16 2 = (m.outgoing.map (·.cutLength)).getD 0 ∧ field b 18 2 = m.incoming.getD 0
        ∧ coordField b 20 = m.xEx ∧ field b 24 2 = m.extensions ∧ field b 26 3 = m.waste
        ∧ isNextCrossing m.crossings (field b 29 1))
    ∧ (∀ m : JointMark, m.cullBefore ≤ 5000 → m.cullAfter ≤ 5000 →
        let b := markRecord (.joint m)
        b.length = 30 ∧ field b 0 1 = 2 ∧ field b 1 1 = 8
        ∧ coordField b 2 = m.joint - BitVec.ofNat 32 m.cullBefore
        ∧ coordField b 6 = m.joint + BitVec.ofNat 32 m.cullAfter
        ∧ coordField b 10 = m.joint ∧ standOf (field b 14 1) = some m.stand ∧ field b 15 2 = m.cullBefore
        ∧ field b 17 2 = m.cullAfter ∧ isNextCrossing m.crossings (field b 19 1) ∧ field b 20 10 = 0)
    ∧ (∀ m : GapMark, m.length ≤ 1000000 →
        let b := markRecord (.gap m)
        b.length = 30 ∧ field b 0 1 = 3 ∧ field b 1 1 = 8 ∧ coordField b 2 = m.start
        ∧ coordField b 6 = m.start + BitVec.ofNat 32 m.length ∧ field b 10 4 = m.length
        ∧ standOf (field b 14 1) = some m.stand ∧ field b 15 15 = 0)
    ∧ (∀ m : HostMark, m.length ≤ 1000000 →
        let b := markRecord (.host m)
        b.length = 30 ∧ field b 0 1 = 4 ∧ field b 1 1 = 8 ∧ coordField b 2 = m.start
        ∧ coordField b 6 = m.start + BitVec.ofNat 32 m.length ∧ field b 10 4 = m.length ∧ field b 14 16 = 0)
    ∧ (∀ (k : Stand) (p : Pos),
        let r := (s.slot k p).reel
        let b := reelRecord s k p
        b.length = 36
        ∧ field b 0 1 = 2 * k.idx + p.idx
        ∧ field b 1 1 = (match r with
            | .empty _ => 0 | .loaded _ _ => 1 | .announced _ => 2 | .verified _ => 3 | .mismatch _ _ _ => 4
            | .running _ _ _ => 5 | .unidentified _ _ => 6 | .exhausted _ => 7)
        ∧ field b 2 1 = (if s.runningPos k = some p then 1 else if s.runningPos k = some p.other then 2 else 0)
        ∧ (field b 3 1).testBit 3 = (s.slot k p).attention
        ∧ (∀ q stale n, r = .running q stale n → q.readId < 4294967296 → q.ann.id < 4294967296 → q.ann.code ≤ 65535 →
            q.ann.caliper ≤ 65535 → q.ann.core ≤ 65535 → q.diameter ≤ 65535 → q.remaining ≤ 16777215 →
            q.residue ≤ 65535 → n ≤ 16777215 →
            (field b 3 1).testBit 0 = q.limited ∧ (field b 3 1).testBit 1 = stale ∧ (field b 3 1).testBit 2 = false
            ∧ field b 4 1 = 31 ∧ field b 5 4 = q.readId ∧ field b 9 4 = q.ann.id ∧ field b 13 2 = q.ann.code
            ∧ field b 15 2 = q.ann.caliper ∧ field b 17 2 = q.ann.core ∧ field b 19 2 = q.diameter
            ∧ field b 21 3 = q.remaining ∧ field b 24 2 = q.residue ∧ field b 26 3 = n ∧ field b 29 7 = 0)
        ∧ (∀ id a d, r = .mismatch id a d → id < 4294967296 → a.id < 4294967296 → d ≤ 65535 →
            (field b 3 1).testBit 0 = false ∧ (field b 3 1).testBit 1 = false ∧ (field b 3 1).testBit 2 = a.force
            ∧ field b 4 1 = 7 ∧ field b 5 4 = id ∧ field b 9 4 = a.id ∧ field b 19 2 = d ∧ field b 21 15 = 0)
        ∧ (∀ x, r = .empty (some x) → x.id < 4294967296 → x.length ≤ 16777215 →
            field b 4 1 = 32 ∧ field b 5 24 = 0 ∧ field b 29 4 = x.id ∧ field b 33 3 = x.length)
        ∧ (r = .empty none → field b 4 32 = 0)
        ∧ (∀ id d, (r = .loaded id d ∨ r = .unidentified id d) → id < 4294967296 → d ≤ 65535 →
            field b 3 1 % 8 = 0 ∧ field b 4 1 = 5 ∧ field b 5 4 = id ∧ field b 9 10 = 0 ∧ field b 19 2 = d
            ∧ field b 21 15 = 0)
        ∧ (∀ a, r = .announced a → a.id < 4294967296 → a.code ≤ 65535 → a.caliper ≤ 65535 → a.core ≤ 65535 →
            field b 3 1 % 4 = 0 ∧ (field b 3 1).testBit 2 = a.force ∧ field b 4 1 = 2 ∧ field b 5 4 = 0
            ∧ field b 9 4 = a.id ∧ field b 13 2 = a.code ∧ field b 15 2 = a.caliper ∧ field b 17 2 = a.core
            ∧ field b 19 17 = 0)
        ∧ (∀ q, (r = .verified q ∨ r = .exhausted q) → q.readId < 4294967296 → q.ann.id < 4294967296 →
            q.diameter ≤ 65535 → q.remaining ≤ 16777215 → q.residue ≤ 65535 →
            (field b 3 1).testBit 0 = q.limited ∧ (field b 3 1).testBit 1 = false ∧ (field b 3 1).testBit 2 = false
            ∧ field b 4 1 = 15 ∧ field b 5 4 = q.readId ∧ field b 9 4 = q.ann.id ∧ field b 19 2 = q.diameter
            ∧ field b 21 3 = q.remaining ∧ field b 24 2 = q.residue ∧ field b 26 10 = 0))
    ∧ (∀ e : FirstError, (∀ n, e.object = .order n → n ≤ 65535) → (∀ n, e.object = .address n → n ≤ 65535) →
        let b := errorRecord (some e)
        b.length = 9 ∧ field b 0 1 = e.kind.number ∧ (field b 1 1).testBit 0 = true
        ∧ (field b 1 1).testBit 1 = e.unreported ∧ (field b 1 1).testBit 2 = e.overflow
        ∧ (match e.object with
            | .none => field b 2 3 = 0
            | .order n => field b 2 1 = 1 ∧ field b 3 2 = n
            | .stand k => field b 2 1 = 2 ∧ standOf (field b 3 2) = some k
            | .station st => field b 2 1 = 3 ∧ stationOf (field b 3 2) = some st
            | .address n => field b 2 1 = 4 ∧ field b 3 2 = n)
        ∧ coordField b 5 = e.odometer)
    ∧ errorRecord none = List.replicate 9 0#8
    ∧ (∀ k : Stand,
        let q := s.seq k
        let b := standBytes s k
        b.length = 40 ∧ standOf (field b 0 1) = some k
        ∧ b.getD 1 0#8 = Config.enumCode .sequencerState (sequencerIndex q.state)
        ∧ (∀ x, q.splice = some x → field b 2 1 = 1 ∧ b.getD 3 0#8 = Config.enumCode .spliceKind (kindIndex x.kind)
            ∧ coordField b 4 = x.due)
        ∧ (q.splice = none → field b 2 6 = 0)
        ∧ (∀ n, q.required = some (.code n) → n ≤ 65535 → field b 8 1 = 1 ∧ field b 9 2 = n)
        ∧ (q.required = some .any → field b 8 1 = 1 ∧ field b 9 2 = Config.anyGradeCode.toNat)
        ∧ (q.required = none → field b 8 3 = 0)
        ∧ (∀ x, q.plan = some x → x.code ≤ 65535 →
            field b 11 1 = 1 ∧ field b 12 2 = x.code ∧ coordField b 14 = x.due ∧ coordField b 18 = x.p
            ∧ (∀ m g, s.findChange x.mark = some m → m.length = some g → g ≤ 4294967295 →
                field b 22 1 = 1 ∧ field b 23 4 = g)
            ∧ ((∀ m, s.findChange x.mark = some m → m.length = none) → field b 22 5 = 0))
        ∧ (q.plan = none → field b 11 16 = 0)
        ∧ (∀ x, q.deferred = some x → x.code ≤ 65535 → field b 27 1 = 1 ∧ field b 28 2 = x.code)
        ∧ (q.deferred = none → field b 27 3 = 0)
        ∧ (∀ x, q.timer = some x → x.ms ≤ 65535 → field b 30 1 = 1 ∧ field b 31 2 = x.ms)
        ∧ (q.timer = none → field b 30 3 = 0)
        ∧ (∀ x, q.runningJoint = some x → field b 33 1 = 1 ∧ coordField b 34 = x.joint
            ∧ b.getD 38 0#8 = Config.enumCode .jointOrigin (if x.planned then 0 else 1))
        ∧ (q.runningJoint = none → field b 33 6 = 0)
        ∧ field b 39 1 = (if s.capFlag then 1 else 0))
    ∧ (∀ g : Grade, g.fields.number ≤ 65535 → g.slot ≤ 255 → g.refs ≤ 255 → g.active ≤ 255 →
        let b := gradeBytes g
        b.length = 107 ∧ field b 0 2 = g.fields.number ∧ field b 2 1 = g.slot
        ∧ (∀ k : Stand, g.fields.codes.get k ≤ 65535 → field b (3 + 2 * k.idx) 2 = g.fields.codes.get k)
        ∧ (∀ (k : Stand) (i : Nat) (x : Breakpoint), x.speed ≤ 65535 → x.wrap ≤ 65535 →
            (let c := g.fields.curves.get k
             [c.b0, c.b1, c.b2, c.b3][i]? = some x) →
            field b (13 + 16 * k.idx + 4 * i) 2 = x.speed ∧ field b (15 + 16 * k.idx + 4 * i) 2 = x.wrap)
        ∧ (∀ u : GlueUnit, (g.fields.glue.get u).base ≤ 65535 → (g.fields.glue.get u).bump ≤ 65535 →
            field b (93 + 4 * u.idx) 2 = (g.fields.glue.get u).base
            ∧ field b (95 + 4 * u.idx) 2 = (g.fields.glue.get u).bump)
        ∧ field b 105 1 = g.refs ∧ field b 106 1 = g.active)
    ∧ (∃ code : Nat, s.port.frame = s.port.kind :: BitVec.ofNat 8 code :: BitVec.ofNat 8 s.port.body.length :: s.port.body
        ∧ code = (match s.port.status with
          | .ok => 0 | .clamped => 1 | .format => 2 | .range => 3 | .noSuch => 4 | .exists => 5 | .full => 6
          | .state => 7 | .inUse => 8 | .tooLate => 9))
    ∧ (∀ n i, i < n → (s.shiftedOut n).length = n ∧ (s.shiftedOut n).getD i 0#8 = s.port.frame.getD i 0#8)
    ∧ (∀ edge, s.sdo false edge = none
        ∧ s.sdo true edge = some ((s.port.frame.getD (edge / 8) 0#8).getLsbD (7 - edge % 8)))
    ∧ (∀ st : Station,
        let x := s.station st
        let b := stationBytes s st
        (∀ n, x.order = some n → n ≤ 65535) → x.retry ≤ 255 → (∀ y, x.timer = some y → y.ms ≤ 16777215) →
        (∀ p, x.pattern = some p → p.slits.length + p.scores.length ≤ 20) →
        b.length = 59
        ∧ b.getD 0 0#8 = Config.enumCode .stationState (stationIndex x.state)
        ∧ (∀ n, x.order = some n → field b 1 1 = 1 ∧ field b 2 2 = n) ∧ (x.order = none → field b 1 3 = 0)
        ∧ (∀ mark m, x.served = some mark → s.findChange mark = some m → field b 4 1 = 1 ∧ coordField b 5 = m.p)
        ∧ (x.served = none → field b 4 5 = 0)
        ∧ (∀ p, x.pattern = some p → field b 9 1 = 1 ∧ field b 10 1 = p.slits.length ∧ field b 11 1 = p.scores.length
            ∧ ∀ i y, (p.slits ++ p.scores)[i]? = some y → y ≤ 65535 → field b (12 + 2 * i) 2 = y)
        ∧ (x.pattern = none → field b 9 43 = 0)
        ∧ field b 52 1 = x.retry
        ∧ (∀ y, x.timer = some y → field b 53 1 = 1 ∧ field b 54 3 = y.ms) ∧ (x.timer = none → field b 53 4 = 0)
        ∧ (∀ sent, x.exchangeSent = some sent → field b 57 1 = 1 ∧ field b 58 1 = if sent then 1 else 0)
        ∧ (x.exchangeSent = none → field b 57 2 = 0))
    ∧ (∀ (d : Decision) (m : ChangeMark), s.findChange d.mark = some m → (∀ n, m.incoming = some n → n ≤ 65535) →
        m.extensions ≤ 65535 →
        let b := decisionBytes s d
        b.length = 13 ∧ coordField b 0 = m.p ∧ field b 4 2 = m.incoming.getD 0
        ∧ b.getD 6 0#8 = Config.enumCode .decisionStatus (decisionIndex d.status)
        ∧ coordField b 7 = m.xEx ∧ field b 11 2 = m.extensions)
    ∧ (let b := ownerBytes s
       b.length = 9
        ∧ (s.knife.owner = .unassigned → b.getD 0 0#8 = Config.enumCode .knifeOwner 0 ∧ field b 1 8 = 0)
        ∧ (∀ mark m, s.knife.owner = .zone mark → s.findChange mark = some m →
            b.getD 0 0#8 = Config.enumCode .knifeOwner 1 ∧ field b 1 3 = 0 ∧ field b 4 1 = 1 ∧ coordField b 5 = m.p)
        ∧ (∀ mark m out, s.knife.owner = .segment mark → s.findChange mark = some m → m.outgoing = some out →
            out.order ≤ 65535 →
            b.getD 0 0#8 = Config.enumCode .knifeOwner 2 ∧ field b 1 1 = 1 ∧ field b 2 2 = out.order
              ∧ field b 4 1 = 1 ∧ coordField b 5 = m.p))
    ∧ (∀ (mark : Nat) (m : ChangeMark), s.findChange mark = some m →
        gridPosBytes s (.lead mark) = Config.enumCode .gridPosition 0 :: coordBytes m.p
        ∧ gridPosBytes s (.zone mark) = Config.enumCode .gridPosition 1 :: coordBytes m.p
        ∧ gridPosBytes s (.segment mark) = Config.enumCode .gridPosition 2 :: coordBytes m.p)
    ∧ (∀ p : Postponed, p.order ≤ 65535 → p.stack ≤ 65536 → (∀ n, p.closed = some n → n ≤ 65535) →
        let b := postponedBytes p
        b.length = 9 ∧ field b 0 2 = p.order ∧ field b 2 3 = p.stack
        ∧ b.getD 5 0#8 = Config.enumCode .postponedKind (if p.closed.isSome then 1 else 0)
        ∧ (∀ n, p.closed = some n → field b 6 1 = 1 ∧ field b 7 2 = n) ∧ (p.closed = none → field b 6 3 = 0))
    ∧ (∀ k : Stand,
        let c := s.preheaters.get k
        let b := preheaterBytes s k
        (∀ t, c.target = some t → t ≤ 65535) → c.output ≤ 65535 → (∀ v, c.lastSent = some v → v ≤ 65535) →
        (∀ a, c.active = some a → a.grade ≤ 65535 ∧ ∀ x ∈ [a.curve.b0, a.curve.b1, a.curve.b2, a.curve.b3],
          x.speed ≤ 65535 ∧ x.wrap ≤ 65535) →
        b.length = 29
        ∧ (∀ a, c.active = some a → field b 0 1 = 1 ∧ field b 1 2 = a.grade ∧ field b 3 1 = 1
            ∧ ∀ i x, [a.curve.b0, a.curve.b1, a.curve.b2, a.curve.b3][i]? = some x →
                field b (4 + 4 * i) 2 = x.speed ∧ field b (6 + 4 * i) 2 = x.wrap)
        ∧ (c.active = none → field b 0 20 = 0)
        ∧ (∀ t, c.target = some t → field b 20 1 = 1 ∧ field b 21 2 = t) ∧ (c.target = none → field b 20 3 = 0)
        ∧ field b 23 2 = c.output
        ∧ field b 25 1 ≤ 1 ∧ (field b 25 1 = 1 ↔ ∃ v, Command.bondSetpoint (.ph k) v ∈ s.link.bond)
        ∧ (∀ v, c.lastSent = some v → field b 26 1 = 1 ∧ field b 27 2 = v) ∧ (c.lastSent = none → field b 26 3 = 0))
    ∧ (∀ g : GlueUnit,
        let c := s.glue.get g
        let b := channelBytes s g
        c.gap ≤ 65535 → (∀ v, c.lastSent = some v → v ≤ 65535) →
        (∀ a, c.active = some a → a.grade ≤ 65535 ∧ a.values.base ≤ 65535 ∧ a.values.bump ≤ 65535) →
        b.length = 20
        ∧ (∀ a, c.active = some a → field b 0 1 = 1 ∧ field b 1 2 = a.grade ∧ field b 3 1 = 1
            ∧ field b 4 2 = a.values.base ∧ field b 6 1 = 1 ∧ field b 7 2 = a.values.bump)
        ∧ (c.active = none → field b 0 9 = 0)
        ∧ (∀ x, c.bumpEnd = some x → field b 9 1 = 1 ∧ coordField b 10 = x) ∧ (c.bumpEnd = none → field b 9 5 = 0)
        ∧ field b 14 2 = c.gap
        ∧ field b 16 1 ≤ 1 ∧ (field b 16 1 = 1 ↔ ∃ v, Command.bondSetpoint (.glue g) v ∈ s.link.bond)
        ∧ (∀ v, c.lastSent = some v → field b 17 1 = 1 ∧ field b 18 2 = v) ∧ (c.lastSent = none → field b 17 3 = 0))
    ∧ (∀ c : Command, commandBytes c = Config.enumCode .commandKind (match c with
          | .spliceGo _ _ _ => 0 | .speedCap _ => 1 | .knifeSchedule _ _ _ => 2 | .slitterSet _ _ _ => 3
          | .slitterExchange _ _ _ _ => 4 | .stackChange _ _ _ _ => 5 | .bondSetpoint _ _ => 6)
        :: BitVec.ofNat 8 c.address :: (match c with
          | .spliceGo k p _ => [BitVec.ofNat 8 (k.idx + 1), BitVec.ofNat 8 (p.idx + 1)]
          | .speedCap limit => (match limit with
              | some v => 1#8 :: bytesOf 2 v
              | none => [0#8, 0#8, 0#8])
          | .knifeSchedule x cutLength n => coordBytes x ++ bytesOf 2 cutLength ++ (match n with
              | some v => 1#8 :: bytesOf 2 v
              | none => [0#8, 0#8, 0#8])
          | .slitterSet st p _ => [if st = .a then 1#8 else 2#8, BitVec.ofNat 8 p.slits.length,
                BitVec.ofNat 8 (p.slits.length + p.scores.length)] ++ (p.slits ++ p.scores).flatMap (bytesOf 2)
          | .slitterExchange e lift x _ => (if e = .a then 1#8 else 2#8) :: (match lift with
              | some l => [1#8, if l = .a then 1#8 else 2#8]
              | none => [0#8, 0#8]) ++ (match x with
              | some v => 1#8 :: coordBytes v
              | none => List.replicate 5 0#8)
          | .stackChange o n cuts final => bytesOf 2 o ++ bytesOf 3 n ++ bytesOf 2 cuts
                ++ [if final then 1#8 else 0#8]
          | .bondSetpoint u v => Config.enumCode .commandUnit (match u with
              | .ph k => k.idx
              | .glue g => 5 + g.idx) :: bytesOf 2 v))
    ∧ (∀ n v i, i < n → (bytesOf n v).length = n ∧ ((bytesOf n v).getD i 0#8).toNat = v / 256 ^ (n - 1 - i) % 256)

/-! ### Errors, HOLD and attention (R197 to R206) -/

/-- R198, R199: a raise sets its status and no other; a masked kind does nothing more; an unmasked kind fills a free
first-error record or sets the overflow flag of a held one, and puts the line in HOLD where it is FATAL. -/
def Obligations.RaiseFollowsMaskAndSeverity : Prop :=
  ∀ (s : State) (k : ErrorKind) (o : ErrorObject),
    (∀ j : ErrorKind, j.isIn (s.raise k o).errors.status = (j.isIn s.errors.status || j == k))
    ∧ (k.isIn s.errors.mask = true →
        s.raise k o = { s with errors := { s.errors with status := (s.raise k o).errors.status } })
    ∧ (k.isIn s.errors.mask = false →
        s.raise k o = { s with errors := { s.errors with
          status := (s.raise k o).errors.status
          first := match s.errors.first with
            | none => some ⟨k, o, s.odometer, true, false⟩
            | some f => some { f with overflow := true }
          hold := s.errors.hold || k.isIn s.errors.severity } })

/-- R200: SET ERROR POLICY replaces every mask and every severity, and puts the line in HOLD where some status is then set,
unmasked and FATAL. -/
def Obligations.SetErrorPolicyReplacesMasksAndSeverities : Prop :=
  ∀ (b : List Byte) (s : State),
    (b.length ≠ 6 → exec (.setErrorPolicy b) s = .next (s.respond 0x09#8 .format []))
    ∧ (b.length = 6 → ∃ hold : Bool,
      exec (.setErrorPolicy b) s = .next (({ s with errors := { s.errors with
        mask := BitVec.ofNat 18 (field b 0 3)
        severity := BitVec.ofNat 18 (field b 3 3)
        hold := hold } } : State).respond 0x09#8 .ok [])
      ∧ (hold = true ↔ s.errors.hold = true ∨ ∃ k : ErrorKind, k.isIn s.errors.status = true
          ∧ k.isIn (BitVec.ofNat 18 (field b 0 3)) = false ∧ k.isIn (BitVec.ofNat 18 (field b 3 3)) = true))

/-- R201: CLEAR ERRORS clears the named statuses, releases a held record of a named kind and leaves the line state. -/
def Obligations.ClearErrorsClearsTheNamed : Prop :=
  ∀ (b : List Byte) (s : State),
    (b.length ≠ 3 → exec (.clearErrors b) s = .next (s.respond 0x0A#8 .format []))
    ∧ (b.length = 3 → ∃ (status : BitVec 18) (first : Option FirstError) (r : List Byte),
      exec (.clearErrors b) s = .next
        (({ s with errors := { s.errors with status := status, first := first } } : State).respond 0x0A#8 .ok r)
      ∧ (∀ k : ErrorKind, k.isIn status = (k.isIn s.errors.status && !k.isIn (BitVec.ofNat 18 (field b 0 3))))
      ∧ (∀ f, s.errors.first = some f →
          first = if f.kind.isIn (BitVec.ofNat 18 (field b 0 3)) then none else some f)
      ∧ (s.errors.first = none → first = none)
      ∧ r.length = 3 ∧ field r 0 3 = status.toNat)

/-- R204, R109: RELEASE HOLD is refused with STATE while some status is set, unmasked and FATAL. Otherwise, here with
nothing to launch, the line is in RUN afterwards, and every stand in WAIT_GO at a permitted speed with a ready slot goes at
once, each on its own. A launch that it makes is stated in ScheduleOrderMakesALineStart. The widths and the order of the
answer's two items are the model's choice (log entry 4). -/
def Obligations.ReleaseHoldReturnsToRun : Prop :=
  ∀ s : State,
    (s.errors.fatalSet = true → exec (.releaseHold []) s = .next (s.respond 0x0B#8 .state []))
    ∧ (s.errors.fatalSet = false → s.runSeq = [] → s.suspended = [] → s.link.splice.length ≤ 3 →
        ∃ t : State, exec (.releaseHold []) s = .next (t.respond 0x0B#8 .ok [0#8, 0#8, 0#8, 0#8])
          ∧ SpliceFrame s t ∧ t.errors = { s.errors with hold := false }
          ∧ ∀ k, s.errors.hold = true → s.speed ≤ spliceSpeedLimit s.config → (s.seq k).state = .waitGo →
              (s.readyPos k).isSome → (t.seq k).state = .splicing)

/-- R206: COLLECT returns and clears the first item that waits, in the order first-error record, orders by slot, reel slots
by number, and otherwise returns type 0 and clears nothing. That the record returned shows its flag still set is the
model's reading (log entry 29), the width of the item type its choice (log entry 4). -/
def Obligations.CollectTakesByPreference : Prop :=
  ∀ s : State,
    (∀ f, s.errors.first = some f → f.unreported = true →
      exec (.collect []) s = .next (({ s with errors := { s.errors with
        first := some { f with unreported := false } } } : State).respond 0x0C#8 .ok
          (byteOf 1 ++ statusSet s.errors.unmasked ++ errorRecord (some f))))
    ∧ (s.errors.unreported = false → ∀ o ∈ s.orders, o.attention = true →
        (∀ r ∈ s.orders, r.attention = true → r ≠ o → o.slot < r.slot) →
        exec (.collect []) s = .next ((s.updateOrder o.fields.number fun r => { r with attention := false }).respond
          0x0C#8 .ok (byteOf 2 ++ statusSet s.errors.unmasked ++ orderRecord s o)))
    ∧ (s.errors.unreported = false → (∀ o ∈ s.orders, o.attention = false) → ∀ (k : Stand) (p : Pos),
        (s.slot k p).attention = true →
        (∀ (j : Stand) (q : Pos), 2 * j.idx + q.idx < 2 * k.idx + p.idx → (s.slot j q).attention = false) →
        exec (.collect []) s = .next ((s.setSlot k p { s.slot k p with attention := false }).respond
          0x0C#8 .ok (byteOf 3 ++ statusSet s.errors.unmasked ++ reelRecord s k p)))
    ∧ (s.errors.unreported = false → (∀ o ∈ s.orders, o.attention = false) →
        (∀ (k : Stand) (p : Pos), (s.slot k p).attention = false) →
        exec (.collect []) s = .next (s.respond 0x0C#8 .ok (byteOf 0 ++ statusSet s.errors.unmasked)))

/-- R203: no command but RELEASE HOLD (sent as itself or as a frame) and device reset takes the line out of HOLD. -/
def Obligations.HoldIsLeftOnlyByReleaseHold : Prop :=
  ∀ (c : Instr) (s t : State), exec c s = .next t → s.errors.hold = true → t.errors.hold = false →
    (∃ b, c = .releaseHold b) ∨ c = .deviceReset
      ∨ ∃ bits b, c = .requestFrameRefused bits ∧ parseFrame (bytesOfBits bits) = some (.releaseHold b)

/-! ### The order book (R32 to R41, R64, R69, R75 to R78) -/

/-- R34: the tests of ENTER ORDER in their order, each with the status it refuses with; one that passes them all adds a
record ENTERED in the lowest free slot, and its grade's reference count rises by 1 (R49). The widths and the order of the
answer's two items are the model's choice (log entry 4). -/
def Obligations.EnterOrderTestsAndAdds : Prop :=
  ∀ (b : List Byte) (s : State),
    (orderBodyLengthOk b = false → exec (.enterOrder b) s = .next (s.respond 0x10#8 .format []))
    ∧ (orderBodyLengthOk b = true → ((readOrderBody b).valid = false ∨ (readOrderBody b).spanOk = false) →
        exec (.enterOrder b) s = .next (s.respond 0x10#8 .range []))
    ∧ (orderBodyLengthOk b = true → (readOrderBody b).valid = true → (readOrderBody b).spanOk = true →
        (s.findGrade (readOrderBody b).grade = none → exec (.enterOrder b) s = .next (s.respond 0x10#8 .noSuch []))
        ∧ ((s.findGrade (readOrderBody b).grade).isSome →
            ((s.findOrder (readOrderBody b).number).isSome →
              exec (.enterOrder b) s = .next (s.respond 0x10#8 .exists []))
            ∧ (s.findOrder (readOrderBody b).number = none → 64 ≤ s.orders.length →
                exec (.enterOrder b) s = .next (s.respond 0x10#8 .full []))
            ∧ (s.findOrder (readOrderBody b).number = none → s.orders.length < 64 →
                ∃ slot, slot < 64 ∧ slot ∉ s.orders.map (·.slot) ∧ (∀ k < slot, k ∈ s.orders.map (·.slot))
                  ∧ exec (.enterOrder b) s = .next (({ s with
                      orders := s.orders ++ [Order.entered slot (readOrderBody b)]
                      grades := s.grades.map fun g =>
                        if g.fields.number == (readOrderBody b).grade then { g with refs := g.refs + 1 } else g
                      } : State).respond 0x10#8 .ok (byteOf slot ++ byteOf (63 - s.orders.length))))))

/-- R37: AMEND ORDER on an ENTERED or QUEUED order replaces its defining fields, moves its reference to the grade it now
names, and leaves everything else but what the repeated reel checks do. R38: of a RUNNING or SUSPENDED order only Q and
the stack size change: any other difference is refused with STATE. A DONE order refuses with STATE. R75: a changed Q of a
RUNNING order whose latest segment ends at the provisional mark, where that mark is not pinned, gives the planner a new
base B (the start of the sheet under the knife where the grid is in that segment, else S) and a new count M (the need
without that segment, and the allowance, at least 1), and puts the end at the M-th clean cut from B or at the floor C where
C is greater; every other accepted amend leaves the end where it is. That an accepted amend which leaves Q as it was moves
no end is the model's reading of R38 and R75 (DEDUCED, log entry 16). -/
def Obligations.AmendOrderActsByState : Prop :=
  ∀ (b : List Byte) (s : State) (o : Order), orderBodyLengthOk b = true →
    s.findOrder (readOrderBody b).number = some o →
    let d := readOrderBody b
    let amended : State :=
      { s with orders := s.orders.map fun r => if r.fields.number == d.number then { r with fields := d } else r }
    let sameOthers := { d with quantity := o.fields.quantity, stackSize := o.fields.stackSize } = o.fields
    let accepted := sameOthers ∧ 1 ≤ d.quantity ∧ d.quantity ≤ 999999 ∧ 5 ≤ d.stackSize ∧ d.stackSize ≤ 2000
      ∧ d.spanOk = true
    (o.state = .done → exec (.amendOrder b) s = .next (s.respond 0x11#8 .state []))
    ∧ ((o.state = .entered ∨ o.state = .queued) → d.valid = true → d.spanOk = true → (s.findGrade d.grade).isSome →
        ∃ t : State, exec (.amendOrder b) s = .next (t.respond 0x11#8 .ok [])
          ∧ SpliceFrame { amended with
              grades := if d.grade = o.fields.grade then s.grades
                else s.grades.map fun g =>
                  if g.fields.number == d.grade then { g with refs := g.refs + 1 }
                  else if g.fields.number == o.fields.grade then { g with refs := g.refs - 1 } else g } t)
    ∧ ((o.state = .running ∨ o.state = .suspended) → ¬ sameOthers →
        exec (.amendOrder b) s = .next (s.respond 0x11#8 .state []))
    ∧ (o.state = .suspended → accepted →
        ∃ t : State, exec (.amendOrder b) s = .next (t.respond 0x11#8 .ok []) ∧ SpliceFrame amended t)
    ∧ (o.state = .running → accepted →
        (d.quantity = o.fields.quantity ∨ (∀ pr m x, s.provisional = some (pr, m) → m.outgoing = some x →
            x.order = d.number → m.pinned = true) →
          ∃ t : State, exec (.amendOrder b) s = .next (t.respond 0x11#8 .ok []) ∧ SpliceFrame amended t)
        ∧ (d.quantity ≠ o.fields.quantity → ∀ pr m x, s.provisional = some (pr, m) → m.outgoing = some x →
            x.order = d.number → m.pinned = false →
            let base : Coord := match s.knife.grid with
              | some g => if g.pos = .segment m.uid then g.n - BitVec.ofNat 32 g.sheet else x.start
              | none => x.start
            let count := max 1 (amended.need { o with fields := d } (some m.uid) + d.allowance)
            let p := laterOf (cleanEnd s.cullZones x.cutLength count base) (s.floorEnd x)
            ∃ t : State, exec (.amendOrder b) s = .next (t.respond 0x11#8 .ok [])
              ∧ SpliceFrame { amended with planner := some ⟨m.uid, base, count⟩, marks := t.marks } t
              ∧ t.marks.length = s.marks.length
              ∧ ∃ y, Mark.change y ∈ t.marks ∧ y = { m with p := p, xEx := if p = m.p then m.xEx else p }))

/-- R35, R32: SCHEDULE ORDER links or moves an ENTERED or QUEUED order to the head, the tail, or behind a QUEUED order; it
becomes QUEUED without rush flag. In HOLD nothing is launched (R61), so this is all it does. R36: UNSCHEDULE ORDER takes a
QUEUED order out of the run sequence; it becomes ENTERED without rush flag. An absent order is refused with NO_SUCH, any
other state with STATE. The widths and the order of SCHEDULE ORDER's answer items are the model's choice (log entry 4). -/
def Obligations.ScheduleAndUnscheduleMoveInTheSequence : Prop :=
  (∀ (b : List Byte) (s : State) (o : Order), b.length = 5 → s.errors.hold = true →
    s.findOrder (field b 0 2) = some o → (o.state = .entered ∨ o.state = .queued) →
    (field b 2 1 ≤ 1 ∨ (field b 2 1 = 2 ∧ field b 3 2 ≠ 0 ∧ field b 3 2 ≠ field b 0 2
      ∧ ∃ p, s.findOrder (field b 3 2) = some p ∧ p.state = .queued)) →
      ∃ (line : List Nat) (r : List Byte),
        exec (.scheduleOrder b) s = .next (({ s with
          runSeq := line
          orders := s.orders.map fun x => if x.fields.number == field b 0 2 then { x with rush := false, state := .queued }
            else x } : State).respond 0x12#8 .ok r)
        ∧ r = byteOf 1 ++ byteOf line.length
        ∧ (field b 2 1 = 0 → line = field b 0 2 :: s.runSeq.filter (· != field b 0 2))
        ∧ (field b 2 1 = 1 → line = s.runSeq.filter (· != field b 0 2) ++ [field b 0 2])
        ∧ (field b 2 1 = 2 →
            line = insertAfter (field b 3 2) (field b 0 2) (s.runSeq.filter (· != field b 0 2))))
  ∧ ∀ (b : List Byte) (s : State), b.length = 2 →
    (s.findOrder (field b 0 2) = none → exec (.unscheduleOrder b) s = .next (s.respond 0x13#8 .noSuch []))
    ∧ ∀ o, s.findOrder (field b 0 2) = some o →
    (o.state = .queued →
      exec (.unscheduleOrder b) s = .next (({ s with
        runSeq := s.runSeq.filter (· != field b 0 2)
        orders := s.orders.map fun x =>
          if x.fields.number == field b 0 2 then { x with state := .entered, rush := false } else x } : State).respond
        0x13#8 .ok []))
    ∧ (o.state ≠ .queued → exec (.unscheduleOrder b) s = .next (s.respond 0x13#8 .state []))

/-- R63: the need of order i at a launch, ceil(max(0, Q - good sheets - expectation) / outs); the expectation is outs for each
clean, uncut cut of the order's segments on the machine. -/
def launchNeed (s : State) (i : Order) : Nat :=
  let outs := i.fields.pattern.slits.length - 1
  let cuts := (s.changes.filter fun m => m.outgoing.map (·.order) == some i.fields.number).map s.openCuts
  ceilDiv (i.fields.quantity - i.goodCuts * outs - outs * cuts.sum) outs

/-- R63, R64: the planned count M of a launch, need and allowance, at least 1. -/
def launchCount (s : State) (i : Order) : Nat := max 1 (launchNeed s i + i.fields.allowance)

/-- R64, R60: e is the smallest start + k × length such that [start, e) holds n clean cuts: n cuts beyond the start where no
cull zone is live, otherwise the end of the k-th cut where that is the n-th clean one. -/
def EndsSpan (s : State) (length n : Nat) (start e : Coord) : Prop :=
  (s.cullZones = [] → e = plusMm start (n * length))
    ∧ ∀ k, 1 ≤ k → k ≤ n + dirtyBound s.cullZones length →
        countCuts s.cullZones length (fun _ => true) k start = n →
        cleanCut s.cullZones (plusMm start ((k - 1) * length)) (plusMm start (k * length)) = true →
        e = plusMm start (k * length)

/-- R64: order i has been launched with start S: the base B is S and the count M; the new provisional mark takes i from S to
the M-th clean cut, with every crossing pending; the order is RUNNING with a segment more and no rush flag. The end is stated
where the zone in front of S is shorter than 2^31 mm, so that no gap in front of that zone reaches round to the segment. -/
def Launched (s t : State) (i : Order) (start : Coord) (zone : Nat) : Prop :=
  (∃ y : ChangeMark, Mark.change y ∈ t.marks ∧ s.serial ≤ y.uid
    ∧ t.planner = some ⟨y.uid, start, launchCount s i⟩
    ∧ y.outgoing = some ⟨i.fields.number, start, i.fields.cutLength⟩ ∧ y.incoming = none ∧ y.length = none
    ∧ y.state = .provisional ∧ y.pinned = false ∧ y.xEx = y.p ∧ y.extensions = 0 ∧ y.waste = 0
    ∧ y.crossings.map (·.name) = [.freeze, .ph .l1, .ph .m1, .ph .l2, .ph .m2, .ph .l3, .glue .g1, .glue .g2, .glue .g3,
        .decision, .knife]
    ∧ (∀ e ∈ y.crossings, e.status = .pending)
    ∧ (zone < 2147483648 → EndsSpan s i.fields.cutLength (launchCount s i) start y.p))
  ∧ t.findOrder i.fields.number
      = some { i with state := .running, segments := min 3 (i.segments + 1), rush := false }

/-- R49: the grades with the active count of order i's grade raised by 1. -/
def activeUp (s : State) (i : Order) : List Grade :=
  s.grades.map fun g => if g.fields.number == i.fields.grade then { g with active := g.active + 1 } else g

/-- R114: what the event from s to t did with the gap [a, b) of stand k, where at least `slots` slots were free before it: an
empty gap is not placed; any other raises GRADE_GAP and is placed as one GAP mark, shortened at its start to 1,000,000 mm. -/
def GapHandled (s t : State) (slots : Nat) (k : Stand) (a b : Coord) : Prop :=
  (sdist a b ≤ 0 → ∀ x, Mark.gap x ∈ t.marks → x.stand = k → Mark.gap x ∈ s.marks)
    ∧ (0 < sdist a b → ErrorKind.gradeGap.isIn t.errors.status = true
        ∧ (s.marks.length + slots ≤ 48 → ∃ x, Mark.gap x ∈ t.marks ∧ Mark.gap x ∉ s.marks ∧ x.stand = k
            ∧ x.length = min (sdist a b).toNat 1000000 ∧ x.start = shiftBy b (-(x.length : Int))))

/-- R114: the event from s to t placed no GAP mark of stand k. -/
def NoGap (s t : State) (k : Stand) : Prop := ∀ x, Mark.gap x ∈ t.marks → x.stand = k → Mark.gap x ∈ s.marks

/-- R104: where the gap of the abandoned plan begins: at the later of the end of its change's zone and the knife kn, or at the
knife where that change's mark has retired. -/
def AbandonedFrom (s : State) (old : Plan) (kn start : Coord) : Prop :=
  (∃ m g, s.findChange old.mark = some m ∧ m.length = some g ∧ start = laterOf (plusMm old.p g) kn)
    ∨ (s.findChange old.mark = none ∧ start = kn)

/-- R103, R104: stand k has taken the plan pl, which arrived at the odometer `now` and which its running reel does not meet.
SPLICING holds it as the deferred plan. Elsewhere it becomes pending: IDLE arms GRADE for it; FAULT, and ARMED for a splice
of another kind, go on as they were; ARMED for the GRADE of a pending plan is armed for the new one. A plan that it replaces,
pending or deferred, is abandoned with its gap up to the P of the new one; where it replaces none, none is placed. -/
def PlanTaken (s t : State) (now : Coord) (slots : Nat) (k : Stand) (pl : Plan) : Prop :=
  let q := s.seq k
  let replaces (old : Plan) : Prop := old.mark ≠ pl.mark → old.mark < s.serial → ∀ start,
    AbandonedFrom s old (shiftBy now (-(knOffset s.config))) start → GapHandled s t slots k start pl.p
  let armed : Sequencer := { q with state := .armed, splice := some ⟨.grade, pl.due⟩, required := none, plan := some pl }
  let goesOn : Prop := q.state = .fault ∨ (q.state = .armed ∧ ∃ sp, q.splice = some sp ∧ sp.kind ≠ .grade)
  (q.state = .splicing → t.seq k = { q with deferred := some pl } ∧ (q.deferred = none → NoGap s t k)
    ∧ ∀ old, q.deferred = some old → replaces old)
  ∧ (s.runningCode k ≠ some pl.code →
      (q.state = .idle → q.plan = none → reached now pl.due = false → t.seq k = armed ∧ NoGap s t k)
      ∧ (goesOn → t.seq k = { q with plan := some pl } ∧ (q.plan = none → NoGap s t k)
        ∧ ∀ old, q.plan = some old → replaces old)
      ∧ (∀ due old, q.state = .armed → q.splice = some ⟨.grade, due⟩ → q.plan = some old → reached now pl.due = false →
          t.seq k = armed ∧ replaces old))

/-- R55, R69, R71: the plans of a line start or a closing whose mark has the given uid and P, with the grade point at which
the paper of order i is wanted. A stand whose running reel, RUNNING or EXHAUSTED, carries another code than i's gets a plan
for i's code, due at the grade point + a - path; every other stand is left alone, but that one which waits repeats its reel
check. -/
def StartPlansHanded (s t : State) (slots mark : Nat) (p gradePoint : Coord) (i : Order) : Prop :=
  ∀ gi, s.findGrade i.fields.grade = some gi → ∀ k : Stand,
    let pl : Plan := ⟨gi.fields.codes.get k,
      shiftBy gradePoint ((jointAim s.config : Int) - (pathOf s.config k : Int)), mark, p⟩
    (∀ c, s.runningCode k = some c → c ≠ pl.code → PlanTaken s t s.odometer slots k pl)
    ∧ ((∀ c, s.runningCode k = some c → c = pl.code) → NoGap s t k
      ∧ ((s.seq k).state ≠ .waitReel → (s.seq k).state ≠ .waitGo → t.seq k = s.seq k))

/-- R71, R16: order i has closed the open run-out zone of mark m, whose outgoing segment is `out`. The zone is the smallest
whole number of outgoing cuts, at least one, that reaches P + G_min and odometer + F; its end is the start S_I of the launch.
The mark is frozen with the incoming order, and the crossings that were done without a call are pending again, the decision
at S_I. The knife drive gets a schedule at S_I, the knife counter the closing start, the stands the plans of the grade
difference, whose grade point is the start of the last zone of ordinary length before S_I, the slitter exchange the mark. -/
def ClosesRunOut (s t : State) (m : ChangeMark) (out : Outgoing) (i : Order) : Prop :=
  let zone := max 1 (max (ceilDiv (gMin s.config) out.cutLength)
    (stepsTo m.p (plusMm s.odometer (freezeDistance s.config)) out.cutLength)) * out.cutLength
  let start := plusMm m.p zone
  Launched s t i start zone ∧ t.grades = activeUp s i
    ∧ (∃ x : ChangeMark, Mark.change x ∈ t.marks
        ∧ x = { m with
            length := some zone
            incoming := some i.fields.number
            state := .frozen
            xEx := if ⟨.decision, .silent⟩ ∈ m.crossings then start else m.xEx
            crossings := x.crossings }
        ∧ ∀ e ∈ m.crossings,
            (e.status ≠ .silent → e ∈ x.crossings)
            ∧ (e.status = .silent → (∃ k, e.name = .ph k) ∨ (∃ u, e.name = .glue u) → ⟨e.name, .rearmed⟩ ∈ x.crossings)
            ∧ (e = ⟨.decision, .silent⟩ → ⟨.decision, .pending⟩ ∈ x.crossings))
    ∧ ⟨m.uid, start⟩ ∈ t.knife.split
    ∧ Command.knifeSchedule start i.fields.cutLength (some i.fields.number) ∈ t.link.knife
    ∧ StartPlansHanded s t 6 m.uid m.p
        (start - BitVec.ofNat 32 (ceilDiv (gMin s.config) out.cutLength * out.cutLength)) i
    ∧ ∃ d ∈ t.decisions, d.mark = m.uid

/-- R61, R64, R69, R71: a launch by request, with an empty stack. A SCHEDULE ORDER in RUN that finds no CHANGE mark and places
its order at the head launches it as a line start at odometer + F, and each stand whose running reel carries another code
than the order's gets a plan for that point (R55, R69, StartPlansHanded). With an open run-out in the table, SCHEDULE ORDER and
RUSH ORDER in RUN, of an order that comes to stand at the head, and RELEASE HOLD, with the order that stands there, close
the run-out with it (ClosesRunOut). The widths and the order of the answers' items are the model's choice (log entry 4). -/
def Obligations.ScheduleOrderMakesALineStart : Prop :=
  (∀ (b : List Byte) (s : State) (o : Order), b.length = 5 → s.errors.hold = false →
    s.findOrder (field b 0 2) = some o → (o.state = .entered ∨ o.state = .queued) → s.changes = [] → 2 ≤ s.freeMarks →
    (field b 2 1 = 0 ∨ (field b 2 1 = 1 ∧ s.runSeq.filter (· != field b 0 2) = [])) → s.suspended = [] →
      let start := plusMm s.odometer (freezeDistance s.config)
      let line := s.runSeq.filter (· != field b 0 2)
      ∃ t : State, exec (.scheduleOrder b) s = .next (t.respond 0x12#8 .ok (byteOf 2 ++ byteOf line.length))
        ∧ (∃ m ∈ t.changes, m.p = start ∧ m.length = some 0 ∧ m.xEx = start
            ∧ m.outgoing = none ∧ m.incoming = some (field b 0 2) ∧ m.state = .frozen
            ∧ (s.MarksKeyed → StartPlansHanded s t 7 m.uid start start o)
            ∧ ∃ d ∈ t.decisions, d.mark = m.uid)
        ∧ Launched s t o start 0 ∧ t.grades = activeUp s o ∧ t.runSeq = line
        ∧ (s.link.knife.length < 8 →
            Command.knifeSchedule start o.fields.cutLength (some (field b 0 2)) ∈ t.link.knife))
  ∧ ∀ (s : State) (m : ChangeMark) (out : Outgoing), s.openRunOut = some m → m.outgoing = some out → s.MarksKeyed →
    s.marks.length < 48 → s.suspended = [] → s.link.knife.length < 8 →
      (∀ (b : List Byte) (o : Order), s.errors.hold = false → s.findOrder (field b 0 2) = some o →
        (o.state = .entered ∨ o.state = .queued) →
        let line := s.runSeq.filter (· != field b 0 2)
        (b.length = 5 → (field b 2 1 = 0 ∨ (field b 2 1 = 1 ∧ line = [])) →
          ∃ t : State, exec (.scheduleOrder b) s = .next (t.respond 0x12#8 .ok (byteOf 2 ++ byteOf line.length))
            ∧ ClosesRunOut s t m out o ∧ t.runSeq = line)
        ∧ (b.length = 2 → s.planner = none →
          ∃ (t : State) (p : Coord), exec (.rushOrder b) s = .next (t.respond 0x14#8 .ok
              (byteOf 2 ++ byteOf 0 ++ byteOf 1 ++ coordBytes p))
            ∧ t.provisional.map (·.2.p) = some p ∧ ClosesRunOut s t m out o ∧ t.runSeq = line))
      ∧ (∀ n rest i, s.errors.fatalSet = false → s.link.splice.length ≤ 3 → s.runSeq = n :: rest →
          s.findOrder n = some i → i.state = .queued →
          ∃ t : State, exec (.releaseHold []) s = .next (t.respond 0x0B#8 .ok
              ([if t.errors.hold then 1#8 else 0#8] ++ byteOf 1 ++ bytesOf 2 n))
            ∧ ClosesRunOut s t m out i ∧ t.runSeq = rest.filter (· != n))

/-- R77, R78: RUSH ORDER refuses an absent order with NO_SUCH, one that is neither ENTERED nor QUEUED with STATE, and with
FULL where its curtail would push an order onto a full stack. Otherwise it puts the order at the head of the run sequence
with its rush flag, in HOLD and in RUN. An unpinned provisional mark that ends beyond the floor C is curtailed: its end
moves to C and is pinned there with X_ex at the same coordinate, and the outgoing order is pushed onto the suspension stack
unless it holds an entry; the answer says so and gives the new end. A pinned mark, or one that ends at C or before it,
stays, and the answer gives its end. With a provisional mark, or in HOLD, nothing is launched, so that this is all that
happens but what the repeated reel checks do; the launch is stated in ScheduleOrderMakesALineStart. The widths and the order
of the answer's items are the model's choice (log entry 4). -/
def Obligations.RushOrderPutsItsOrderFirst : Prop :=
  ∀ (b : List Byte) (s : State), b.length = 2 →
    (s.findOrder (field b 0 2) = none → exec (.rushOrder b) s = .next (s.respond 0x14#8 .noSuch []))
    ∧ ∀ ord, s.findOrder (field b 0 2) = some ord →
    (ord.state ≠ .entered → ord.state ≠ .queued → exec (.rushOrder b) s = .next (s.respond 0x14#8 .state []))
    ∧ ((ord.state = .entered ∨ ord.state = .queued) →
      let n := field b 0 2
      let first : State := { s with
        runSeq := n :: s.runSeq.filter (· != n)
        orders := s.orders.map fun x => if x.fields.number == n then { x with state := .queued, rush := true } else x }
      (s.errors.hold = true → s.planner = none →
        exec (.rushOrder b) s = .next (first.respond 0x14#8 .ok
          (byteOf 1 ++ byteOf 0 ++ byteOf 0 ++ [0#8, 0#8, 0#8, 0#8])))
      ∧ ∀ (pr : Provisional) (m : ChangeMark), s.provisional = some (pr, m) →
        let beyond (o : Outgoing) : Prop := m.outgoing = some o ∧ m.pinned = false ∧ before (s.floorEnd o) m.p = true
        (∀ o, beyond o → o.order ∉ s.suspended → 3 ≤ s.suspended.length →
          exec (.rushOrder b) s = .next (s.respond 0x14#8 .full []))
        ∧ (s.errors.hold = true ∨ s.openRunOut = none →
          ((∀ o, ¬ beyond o) → exec (.rushOrder b) s = .next (first.respond 0x14#8 .ok
            (byteOf 1 ++ byteOf 0 ++ byteOf 1 ++ coordBytes m.p)))
          ∧ (∀ o, beyond o → (o.order ∈ s.suspended ∨ s.suspended.length < 3) → s.MarksKeyed →
            let moved : ChangeMark := { m with p := s.floorEnd o, xEx := s.floorEnd o, pinned := true }
            ∃ t : State, exec (.rushOrder b) s = .next (t.respond 0x14#8 .ok
                (byteOf 1 ++ byteOf 1 ++ byteOf 1 ++ coordBytes (s.floorEnd o)))
              ∧ SpliceFrame { first with
                  marks := t.marks
                  suspended := if o.order ∈ s.suspended then s.suspended else o.order :: s.suspended
                  orders := if o.order ∈ s.suspended then first.orders
                    else first.orders.map fun x => if x.fields.number == o.order then { x with stacked := true } else x } t
              ∧ Mark.change moved ∈ t.marks ∧ t.marks.length = s.marks.length
              ∧ ∀ x ∈ s.marks, x ≠ .change m → x ∈ t.marks)))

/-- R39: CANCEL ORDER on an ENTERED, QUEUED or SUSPENDED order makes it DONE, CANCELLED, with attention; it leaves the run
sequence or the stack, and the active count of a SUSPENDED order's grade falls by 1 (R49). On a DONE order it is refused.
R40: on a RUNNING order it is refused with STATE where the cancel flag is set, with TOO_LATE where neither measure acts;
otherwise measure (a) takes its entry off the stack, measure (b) moves the end of its latest segment, where that is the
unpinned provisional mark, to the floor C if C lies before it, and pins it in both cases; the cancel flag is set and the
order stays RUNNING, its grade active. -/
def Obligations.CancelOrderActsByState : Prop :=
  ∀ (b : List Byte) (s : State) (o : Order), b.length = 2 → s.findOrder (field b 0 2) = some o →
    (o.state = .done → exec (.cancelOrder b) s = .next (s.respond 0x15#8 .state []))
    ∧ ((o.state = .entered ∨ o.state = .queued ∨ o.state = .suspended) →
        ∃ t : State, exec (.cancelOrder b) s = .next (t.respond 0x15#8 .ok [])
          ∧ t = { s with
              orders := t.orders
              runSeq := if o.state = .queued then s.runSeq.filter (· != field b 0 2) else s.runSeq
              suspended := if o.state = .suspended then s.suspended.filter (· != field b 0 2) else s.suspended
              grades := if o.state = .suspended then s.grades.map fun g =>
                  if g.fields.number == o.fields.grade then { g with active := g.active - 1 } else g
                else s.grades }
          ∧ t.orders.length = s.orders.length
          ∧ (∃ x, t.findOrder (field b 0 2) = some x ∧ x.state = .done ∧ x.outcome = some .cancelled
              ∧ x.attention = true ∧ x.stacked = false ∧ x.fields = o.fields ∧ x.goodCuts = o.goodCuts
              ∧ x.cullCuts = o.cullCuts)
          ∧ (∀ r ∈ s.orders, r.fields.number ≠ field b 0 2 → r ∈ t.orders))
    ∧ (o.state = .running →
        let ends (m : ChangeMark) : Prop := ∃ pr x, s.provisional = some (pr, m) ∧ m.outgoing = some x
          ∧ x.order = field b 0 2 ∧ m.pinned = false
        (o.cancel = true → exec (.cancelOrder b) s = .next (s.respond 0x15#8 .state []))
        ∧ (o.cancel = false → o.stacked = false → (∀ m, ¬ ends m) →
            exec (.cancelOrder b) s = .next (s.respond 0x15#8 .tooLate []))
        ∧ (o.cancel = false → (o.stacked = true ∨ ∃ m, ends m) →
            ∃ t : State, exec (.cancelOrder b) s = .next (t.respond 0x15#8 .ok [])
              ∧ SpliceFrame { s with orders := t.orders, suspended := t.suspended, marks := t.marks } t
              ∧ t.suspended = (if o.stacked then s.suspended.filter (· != field b 0 2) else s.suspended)
              ∧ t.findOrder (field b 0 2) = some { o with cancel := true, stacked := false }
              ∧ (∀ r ∈ s.orders, r.fields.number ≠ field b 0 2 → r ∈ t.orders)
              ∧ ((∀ m, ¬ ends m) → t.marks = s.marks)
              ∧ t.marks.length = s.marks.length
              ∧ (∀ m x, ends m → m.outgoing = some x →
                  ∃ y, Mark.change y ∈ t.marks ∧ y = (if before (s.floorEnd x) m.p then
                    { m with p := s.floorEnd x, xEx := s.floorEnd x, pinned := true } else { m with pinned := true }))))

/-- R41: RETIRE ORDER frees the slot of a DONE order and its grade's reference; any other state refuses it with STATE, an
absent order with NO_SUCH. A postponed stack change of the order counts in no record from now on (R154). The width of the
answer's item is the model's choice (log entry 4). -/
def Obligations.RetireOrderFreesItsSlot : Prop :=
  ∀ (b : List Byte) (s : State), b.length = 2 →
    (s.findOrder (field b 0 2) = none → exec (.retireOrder b) s = .next (s.respond 0x16#8 .noSuch []))
    ∧ ∀ o, s.findOrder (field b 0 2) = some o →
    (o.state ≠ .done → exec (.retireOrder b) s = .next (s.respond 0x16#8 .state []))
    ∧ (o.state = .done →
        ∃ t : State, exec (.retireOrder b) s = .next (t.respond 0x16#8 .ok
            (byteOf (64 - (s.orders.filter fun r => r.fields.number != field b 0 2).length)))
          ∧ SpliceFrame { s with
              orders := s.orders.filter fun r => r.fields.number != field b 0 2
              grades := s.grades.map fun g =>
                if g.fields.number == o.fields.grade then { g with refs := g.refs - 1 } else g
              knife := { s.knife with
                postponed := s.knife.postponed.map fun p =>
                  if p.order = field b 0 2 then { p with retired := true } else p } } t)

/-! ### The grade table (R50 to R52) -/

/-- R50: an ENTER GRADE that passes its tests adds an entry in the lowest free slot with both counts 0. The widths and the
order of the answer's two items are the model's choice (log entry 4). R51, R52: AMEND GRADE replaces an entry that no
RUNNING or SUSPENDED order names, RETIRE GRADE removes one that no order names; a count above 0 refuses either with
IN_USE. -/
def Obligations.GradeTableByItsCounts : Prop :=
  (∀ (b : List Byte) (s : State), b.length = 104 → 1 ≤ field b 0 2 → field b 0 2 ≤ 9999 →
    (readGradeBody b).valuesOk = true → s.findGrade (field b 0 2) = none → s.grades.length < 32 →
      ∃ slot, slot < 32 ∧ slot ∉ s.grades.map (·.slot) ∧ (∀ k < slot, k ∈ s.grades.map (·.slot))
        ∧ exec (.enterGrade b) s = .next (({ s with
            grades := s.grades ++ [⟨slot, readGradeBody b, 0, 0⟩] } : State).respond
            0x20#8 .ok (byteOf slot ++ byteOf (31 - s.grades.length))))
  ∧ ∀ (s : State) (g : Grade),
    (∀ b : List Byte, b.length = 104 → 1 ≤ field b 0 2 → field b 0 2 ≤ 9999 → s.findGrade (field b 0 2) = some g →
      (readGradeBody b).valuesOk = true →
        (0 < g.active → exec (.amendGrade b) s = .next (s.respond 0x21#8 .inUse []))
        ∧ (g.active = 0 → ∃ t : State, exec (.amendGrade b) s = .next (t.respond 0x21#8 .ok [])
            ∧ SpliceFrame { s with grades := s.grades.map fun x =>
                if x.fields.number == field b 0 2 then { x with fields := readGradeBody b } else x } t))
    ∧ (∀ b : List Byte, b.length = 2 → 1 ≤ field b 0 2 → field b 0 2 ≤ 9999 → s.findGrade (field b 0 2) = some g →
        (0 < g.refs → exec (.retireGrade b) s = .next (s.respond 0x22#8 .inUse []))
        ∧ (g.refs = 0 → ∃ (t : State) (r : List Byte), exec (.retireGrade b) s = .next (t.respond 0x22#8 .ok r)
            ∧ SpliceFrame { s with grades := s.grades.filter fun x => x.fields.number != field b 0 2 } t))

/-! ### The web tracker (R1 to R4, R12 to R21) and the span planner at a count (R64 to R73) -/

/-- R72, R13, R59: the cull zone [a, b) has been granted. Where it overlaps the segment of a provisional mark that is not
pinned, that mark ends at the M-th clean cut from B with the new zone counted, in no case before its end so far (log entry
41), X_ex with it; a pinned mark and one whose segment the zone does not touch stay as they are. B and M stay, and so does
every other mark. -/
def CullCounted (s t : State) (a b : Coord) : Prop :=
  t.planner = s.planner
  ∧ (∀ pr m o, s.provisional = some (pr, m) → m.outgoing = some o →
      (m.pinned = false → overlaps o.start m.p a b = true →
        ∃ e, EndsSpan t o.cutLength pr.count pr.base e
          ∧ Mark.change (if laterOf e m.p = m.p then m else { m with p := laterOf e m.p, xEx := laterOf e m.p }) ∈ t.marks
          ∧ ∀ x ∈ s.marks, x ≠ .change m → x ∈ t.marks)
      ∧ (m.pinned = true ∨ overlaps o.start m.p a b = false → ∀ x ∈ s.marks, x ∈ t.marks))
  ∧ (s.planner = none → ∀ x ∈ s.marks, x ∈ t.marks)

/-- R20, R12, R72, R13: a PLACE CULL that passes its tests places one HOST mark and hands its zone to the span planner, which
moves the end of an unpinned provisional mark whose segment it overlaps (CullCounted); nothing else changes but what the
repeated reel checks do. The answer gives the free slots, in a width that is the model's choice (log entry 4). The end is
compared by its signed distance modulo 2^32, also where it wraps past 2^31 ahead of the odometer (log entry 50). -/
def Obligations.PlaceCullPlacesAHostMark : Prop :=
  ∀ (b : List Byte) (s : State), b.length = 8 → 1 ≤ field b 4 4 → field b 4 4 ≤ 100000 →
    sdist s.odometer (coordField b 0) ≠ -2147483648 →
    sdist s.odometer (plusMm (coordField b 0) (field b 4 4)) ≤ 1073741824 →
    reached (shiftBy s.odometer (-(knOffset s.config))) (coordField b 0) = false → s.marks.length ≤ 40 →
      ∃ (t : State) (uid : Nat), exec (.placeCull b) s = .next (t.respond 0x28#8 .ok (byteOf (47 - s.marks.length)))
        ∧ t.marks.length = s.marks.length + 1
        ∧ Mark.host ⟨uid, coordField b 0, field b 4 4⟩ ∈ t.marks
        ∧ (∀ m ∈ s.marks, m.asChange = none → m ∈ t.marks)
        ∧ CullCounted s t (coordField b 0) (plusMm (coordField b 0) (field b 4 4))
        ∧ SpliceFrame { s with marks := t.marks } t

/-- R1, R184: a forward count adds 1 to the odometer modulo 2^32 and to Δ and ends a run of reverse counts; speed, window,
z, the condition, the configuration, the pending response and the masks stay. R187: where ENC_CNT is high already, the
period gives no count (log entry 37). R95: on an empty mark table, with every sequencer idle, no bump and the knife
unassigned, it does nothing but advance and pay out the running reels: each adds its take-up to the residue and gives
whole millimetres off the remaining length, here of reels that stay above their reserve. -/
def Obligations.ForwardCountAdvancesAndPaysOut : Prop :=
  ∀ s : State,
    (s.inputs.encCnt = true →
      exec .forwardCount s = .next { s with inputs := { s.inputs with encCnt := false, encDir := true } })
    ∧ (s.inputs.encCnt = false → ∃ t : State, exec .forwardCount s = .next t
      ∧ t.odometer = s.odometer + 1#32 ∧ t.delta = s.delta + 1 ∧ t.reverseRun = false
      ∧ t.speed = s.speed ∧ t.windowMs = s.windowMs ∧ t.zeroWindows = s.zeroWindows ∧ t.stopped = s.stopped
      ∧ t.config = s.config ∧ t.port = s.port ∧ t.errors.mask = s.errors.mask ∧ t.errors.severity = s.errors.severity
      ∧ t.inputs = { s.inputs with encDir := true } ∧ t.receiver = s.receiver)
    ∧ (s.inputs.encCnt = false → s.marks = [] → (∀ k, (s.seq k).state = .idle) →
      (∀ g, (s.glue.get g).bumpEnd = none) → s.knife.owner = .unassigned →
      (∀ k p r st t, s.runningPos k = some p → (s.slot k p).reel = .running r st t →
        reserveOf s.config k + 2 < r.remaining ∧ takeUpOf s.config k ≤ 8192 ∧ r.residue < 4096) →
        ∃ t : State, exec .forwardCount s = .next t
          ∧ t = { s with odometer := s.odometer + 1#32, delta := s.delta + 1, reverseRun := false, reels := t.reels,
                         inputs := { s.inputs with encDir := true } }
          ∧ (∀ k p, s.runningPos k ≠ some p → t.slot k p = s.slot k p)
          ∧ (∀ k p, s.runningPos k = some p → (∀ r st n, (s.slot k p).reel ≠ .running r st n) →
              t.slot k p = s.slot k p)
          ∧ (∀ k p r st n, s.runningPos k = some p → (s.slot k p).reel = .running r st n →
              t.slot k p = ⟨.running { r with
                residue := (r.residue + takeUpOf s.config k) % 4096
                remaining := r.remaining - (r.residue + takeUpOf s.config k) / 4096 } st n, (s.slot k p).attention⟩))

/-- R2: a reverse count leaves odometer and Δ; the first of a run sets the flag and raises REVERSE_MOTION with object none,
a later one changes nothing; the next forward count and device reset clear the flag, LINE RESET leaves it. Each count
leaves ENC_DIR at its level; where ENC_CNT is high already the period gives no count (R187, log entry 37). -/
def Obligations.ReverseCountRaisesOnce : Prop :=
  ∀ s : State,
    let low : State := { s with inputs := { s.inputs with encCnt := false, encDir := false } }
    (s.inputs.encCnt = true → exec .reverseCount s = .next low)
    ∧ (s.inputs.encCnt = false → s.reverseRun = true → exec .reverseCount s = .next low)
    ∧ (s.inputs.encCnt = false → s.reverseRun = false → exec .reverseCount s = .next { low with
        reverseRun := true, errors := s.errors.raised .reverseMotion .none s.odometer })
    ∧ (s.inputs.encCnt = false → ∃ t, exec .forwardCount s = .next t ∧ t.reverseRun = false)
    ∧ (∃ t, exec .deviceReset s = .next t ∧ t.reverseRun = false)
    ∧ (∃ t, exec (.lineReset []) s = .next t ∧ t.reverseRun = s.reverseRun)

/-- The state of a forward count once odometer, Δ and the count-downs are done and before the separate events of the count
(R1, R95). -/
def advanced (s : State) : State :=
  (State.advance { s with inputs := { s.inputs with encCnt := false, encDir := true } }).countDownAll

/-- The event is the only one that a forward count from s brings about, of a table whose marks carry distinct serial
numbers. -/
def SoleEvent (s : State) (e : CountEvent) : Prop :=
  s.inputs.encCnt = false ∧ s.MarksKeyed ∧ countEvents s (advanced s) = [e]

/-- R7, R14, R16: x is the point of a crossing of a CHANGE mark, from the mark's fields as they stand. -/
def isCrossingPoint (c : List Int) (m : ChangeMark) (e : CrossEntry) (x : Coord) : Prop :=
  let bond (offset : Int) : Prop :=
    (e.status = .pending ∧ x = shiftBy m.p offset)
      ∨ (e.status = .rearmed ∧ ∃ g, m.length = some g ∧ x = shiftBy (plusMm m.p g) offset)
  match e.name with
  | .freeze => m.state = .provisional ∧ x = shiftBy m.p (-(freezeDistance c : Int))
  | .ph k => bond (phOffset c k)
  | .glue g => bond (glueOffset c g)
  | .decision => x = shiftBy m.xEx (ssOffset c - plungeLead c)
  | .knife => ∃ g, m.length = some g ∧ x = shiftBy (plusMm m.p g) (knOffset c)

/-- R14: a crossing of a CHANGE mark fires exactly while it is pending and the odometer has reached its point; a JOINT
mark's at its glue units, J + o; a GAP or HOST mark has none. The count's crossings are exactly those of the live marks.
R15: a bond or decision crossing that fires without an incoming order is done without a call. R16: a closing makes exactly
the crossings that were done without a call pending again, a bond crossing at the incoming start P + G as the mark then
stands (DEDUCED from R16 and section 1.6, log entry 17), the decision at its X_ex, which the closing sets to that start. The
commands that close a run-out are stated in ScheduleOrderMakesALineStart. -/
def Obligations.CrossingsFireAtTheirPoints : Prop :=
  ∀ s : State,
    (∀ (m : ChangeMark) (c : Cross), c ∈ s.firing (.change m) ↔ ∃ e ∈ m.crossings, e.name = c
        ∧ (e.status = .pending ∨ e.status = .rearmed)
        ∧ ∃ x, isCrossingPoint s.config m e x ∧ atOrAfter s.odometer x = true)
    ∧ (∀ (m : JointMark) (c : Cross), c ∈ s.firing (.joint m) ↔ ∃ e ∈ m.crossings, e.name = c ∧ e.status = .pending
        ∧ ∃ g, c = .glue g ∧ atOrAfter s.odometer (shiftBy m.joint (glueOffset s.config g)) = true)
    ∧ (∀ m, s.firing (.gap m) = []) ∧ (∀ m, s.firing (.host m) = [])
    ∧ (∀ u c, CountEvent.fire u c ∈ countEvents s (advanced s) ↔
        ∃ m ∈ s.marks, m.uid = u ∧ c ∈ (advanced s).firing m)
    ∧ (∀ (m : ChangeMark) (c : Cross), SoleEvent s (.fire m.uid c) → s.findMark m.uid = some (.change m) →
        m.incoming = none → c ≠ .freeze → c ≠ .knife →
        exec .forwardCount s = .next ((advanced s).updateChange m.uid fun x => x.setCross c .silent))
    ∧ (∀ (m : ChangeMark) (n g : Nat) (start : Coord), ∀ e ∈ m.crossings,
        (e.status ≠ .silent → e ∈ (m.closed n g start).crossings)
        ∧ (e.status = .silent → (∃ k, e.name = .ph k) ∨ (∃ u, e.name = .glue u) →
            ⟨e.name, .rearmed⟩ ∈ (m.closed n g start).crossings)
        ∧ (e = ⟨.decision, .silent⟩ →
            ⟨.decision, .pending⟩ ∈ (m.closed n g start).crossings ∧ (m.closed n g start).xEx = start))

/-- R62: the suspension stack gives no candidate: it is empty, or its top order has 3 segments on the machine. -/
def StackPassed (s : State) : Prop :=
  s.suspended = [] ∨ ∃ top below c, s.suspended = top :: below ∧ s.findOrder top = some c ∧ 3 ≤ c.segments

/-- R62, R29: what the record of a dropped continuation becomes. -/
def droppedRecord (c : Order) : Order :=
  if c.state = .suspended then
    { c with state := .done, outcome := some .complete, attention := true, stacked := false }
  else { c with attention := true, stacked := false }

/-- R55, R68, R103, R104: what the plans of a freeze do to the stands. Mark m changes the paper from that of the outgoing order
to that of order i; a stand whose code differs gets a plan for the new code, due at P + a - path, and every other is left
alone. A plan that the running reel meets is cleared at once, with the gap from the later of running joint and knife up to P;
of any other PlanTaken says what becomes of it. -/
def PlansHanded (s t : State) (m : ChangeMark) (o : Outgoing) (i : Order) : Prop :=
  ∀ out go gi, s.findOrder o.order = some out → s.findGrade out.fields.grade = some go →
    s.findGrade i.fields.grade = some gi → ∀ k : Stand,
    let q := s.seq k
    let pl : Plan := ⟨gi.fields.codes.get k,
      shiftBy m.p ((jointAim s.config : Int) - (pathOf s.config k : Int)), m.uid, m.p⟩
    let kn := shiftBy (s.odometer + 1#32) (-(knOffset s.config))
    (go.fields.codes.get k = gi.fields.codes.get k → t.seq k = q ∧ NoGap s t k)
    ∧ (go.fields.codes.get k ≠ gi.fields.codes.get k → PlanTaken s t (s.odometer + 1#32) 6 k pl
      ∧ (s.runningCode k = some pl.code → (q.state = .idle ∨ q.state = .fault) → q.plan = none →
        t.seq k = q ∧ GapHandled s t 6 k (match q.runningJoint with
          | some x => laterOf x.joint kn
          | none => kn) m.p))

/-- R66, R67, R68: the freeze of mark m has launched order i behind it: the mark is frozen with i and a zone of whole incoming
cuts at least G_min long, i is launched from the zone's end, and the knife drive, the stands and the slitter exchange have
been told. -/
def LaunchedBehind (s t : State) (m : ChangeMark) (o : Outgoing) (i : Order) : Prop :=
  let g := ceilDiv (gMin s.config) i.fields.cutLength * i.fields.cutLength
  (∃ x, Mark.change x ∈ t.marks ∧ x.uid = m.uid ∧ x.state = .frozen ∧ x.p = m.p ∧ x.length = some g
      ∧ x.outgoing = m.outgoing ∧ x.incoming = some i.fields.number)
    ∧ Launched s t i (plusMm m.p g) g
    ∧ Command.knifeSchedule m.p i.fields.cutLength (some i.fields.number) ∈ t.link.knife
    ∧ PlansHanded s t m o i
    ∧ ∃ d ∈ t.decisions, d.mark = m.uid

/-- R62 to R68, R103, R104: the freeze of a provisional mark, as the count's only event. In HOLD, with the mark table full, or
without a candidate, it becomes the mark of an open run-out and the knife drive gets a schedule without an order; QUEUE_DRY
is raised but in HOLD. Otherwise the candidate is launched behind it (LaunchedBehind). R62: the candidate is the head of the
run sequence where that has the rush flag or the stack gives none; else the top of the stack, which is popped, where it has
a need; one without a need is dropped with attention, a SUSPENDED one DONE and COMPLETE, and the head, if there is one,
follows (stated for a stack of one). -/
def Obligations.FreezeLaunchesOrRunsOut : Prop :=
  ∀ (s : State) (m : ChangeMark) (o : Outgoing), SoleEvent s (.fire m.uid .freeze) →
    s.findMark m.uid = some (.change m) → m.outgoing = some o → s.link.knife.length < 8 →
    ∃ t, exec .forwardCount s = .next t
      ∧ (let ranOut : Prop := t.planner = none ∧ t.runSeq = s.runSeq ∧ t.decisions = s.decisions
          ∧ Command.knifeSchedule m.p o.cutLength none ∈ t.link.knife
          ∧ (∃ x, Mark.change x ∈ t.marks ∧ x.uid = m.uid ∧ x.state = .runOut ∧ x.p = m.p ∧ x.length = m.length
              ∧ x.outgoing = m.outgoing ∧ x.incoming = m.incoming ∧ ⟨.freeze, .done⟩ ∈ x.crossings)
         ((s.errors.hold = true ∨ 48 ≤ s.marks.length ∨ (s.runSeq = [] ∧ StackPassed s)) →
            ranOut ∧ t.orders = s.orders ∧ t.suspended = s.suspended
            ∧ (s.errors.hold = false → ErrorKind.queueDry.isIn t.errors.status = true)
            ∧ (s.errors.hold = true →
                ErrorKind.queueDry.isIn t.errors.status = ErrorKind.queueDry.isIn s.errors.status))
         ∧ (s.errors.hold = false → s.marks.length < 48 →
            (∀ n rest i, s.runSeq = n :: rest → s.findOrder n = some i → i.state = .queued →
              (i.rush = true ∨ StackPassed s) →
              LaunchedBehind s t m o i ∧ t.runSeq = rest.filter (· != n) ∧ t.suspended = s.suspended
              ∧ t.grades = activeUp s i)
            ∧ ∀ top below c, s.suspended = top :: below → s.findOrder top = some c → c.segments < 3 →
                (c.state = .running ∨ c.state = .suspended) →
                (∀ h x, s.runSeq.head? = some h → s.findOrder h = some x → x.rush = false) →
                (0 < launchNeed s c → LaunchedBehind s t m o { c with stacked := false } ∧ t.runSeq = s.runSeq
                  ∧ t.suspended = below ∧ t.grades = s.grades)
                ∧ (launchNeed s c = 0 → below = [] → t.suspended = []
                  ∧ t.findOrder top = some (droppedRecord c)
                  ∧ (s.runSeq = [] → ranOut ∧ ErrorKind.queueDry.isIn t.errors.status = true
                      ∧ t.grades = if c.state = .suspended then s.grades.map fun x =>
                          if x.fields.number == c.fields.grade then { x with active := x.active - 1 } else x
                        else s.grades)
                  ∧ ∀ n rest i, s.runSeq = n :: rest → n ≠ top → s.findOrder n = some i → i.state = .queued →
                      LaunchedBehind s t m o i ∧ t.runSeq = rest.filter (· != n))))

/-- R18: a mark whose end has passed the knife by the clearance of 9,000 mm, and no other, retires at the count; it leaves
the table and nothing else changes, but that R73 rebases the planner's count where a cull zone overlaps [B, P): the base
moves to the first cut end of the segment at or after the zone's end, and the count loses the clean cuts before it. R19: an
open run-out mark whose segment start lies 2^30 mm behind the odometer is re-based: P and S move to the first cut end at or
after 2^29 mm behind the odometer. Each as the count's only event. -/
def Obligations.MarksRetireAndRebase : Prop :=
  ∀ s : State,
    (∀ u, CountEvent.retire u ∈ countEvents s (advanced s) ↔ ∃ m ∈ s.marks, m.uid = u ∧ ∃ e, m.stop = some e
        ∧ atOrAfter (s.odometer + 1#32) (plusMm (shiftBy e (knOffset s.config)) 9000) = true)
    ∧ (∀ m : Mark, SoleEvent s (.retire m.uid) → s.findMark m.uid = some m →
        ∃ t, exec .forwardCount s = .next t
          ∧ t = { advanced s with marks := s.marks.filter (·.uid != m.uid), planner := t.planner }
          ∧ (m.cullZone = none ∨ s.provisional = none → t.planner = s.planner)
          ∧ ∀ a b pr pm o, m.cullZone = some (a, b) → s.provisional = some (pr, pm) → pm.outgoing = some o →
              (overlaps pr.base pm.p a b = false → t.planner = s.planner)
              ∧ (overlaps pr.base pm.p a b = true →
                  let base := plusMm o.start (stepsTo o.start b o.cutLength * o.cutLength)
                  t.planner = some { pr with
                    base := base
                    count := pr.count - countCuts s.cullZones o.cutLength (fun _ => true)
                      (cutsIn pr.base base o.cutLength) pr.base }))
    ∧ (∀ u, CountEvent.rebase u ∈ countEvents s (advanced s) ↔ ∃ m ∈ s.changes, m.uid = u ∧ m.state = .runOut
        ∧ ∃ o, m.outgoing = some o ∧ atOrAfter (s.odometer + 1#32) (plusMm o.start 1073741824) = true)
    ∧ (∀ (m : ChangeMark) (o : Outgoing), SoleEvent s (.rebase m.uid) → s.findMark m.uid = some (.change m) →
        m.outgoing = some o →
        let p := plusMm m.p (stepsTo m.p (s.odometer + 1#32 - 536870912#32) o.cutLength * o.cutLength)
        ∃ t, exec .forwardCount s = .next t ∧ t = { advanced s with marks := t.marks }
          ∧ t.marks.length = s.marks.length
          ∧ Mark.change { m with p := p, outgoing := some { o with start := p } } ∈ t.marks)

/-- R3, R4: the close of a speed window sets v to 6 × Δ saturating at 9,999, Δ to 0, z and the condition as R4's table says.
LINE_STOPPED finds the line stopped once z stands at 20; that the row changes nothing while z stands elsewhere is the
model's choice (log entry 9). -/
def Obligations.WindowCloseSetsSpeedAndCondition : Prop :=
  ∀ s : State,
    (∃ t : State, exec .speedWindowClose s = .next t
      ∧ t.speed = min 9999 (6 * s.delta) ∧ t.delta = 0
      ∧ (s.delta = 0 → t.zeroWindows = min 20 (s.zeroWindows + 1)
          ∧ (t.zeroWindows = 20 → t.stopped = true) ∧ (t.zeroWindows ≠ 20 → t.stopped = s.stopped))
      ∧ (0 < s.delta → t.zeroWindows = 0 ∧ t.stopped = false)
      ∧ t.odometer = s.odometer ∧ t.reverseRun = s.reverseRun ∧ t.config = s.config ∧ t.port = s.port)
    ∧ (s.zeroWindows = 20 → exec .lineStopped s = .next { s with stopped := true })
    ∧ (s.zeroWindows ≠ 20 → exec .lineStopped s = .next s)

/-- R164: at a window close every preheater with an active grade takes the target of its curve at the new speed, moves its
output toward it by at most the slew, and queues an output that has changed, where the BOND class has room for the five
units; one without an active grade stays. R163: the target of a valid curve lies within 0..1,000: outside the breakpoints
the wrap of the first or last; between two of them the straight line at the new speed, rounded to the nearest 0.1 %,
half-way upward. -/
def Obligations.WindowCloseSlewsThePreheaters : Prop :=
  ∀ (s : State) (k : Stand), ∃ t : State, exec .speedWindowClose s = .next t
    ∧ ((s.preheaters.get k).active = none → t.preheaters.get k = s.preheaters.get k)
    ∧ (∀ a, (s.preheaters.get k).active = some a →
        t.preheaters.get k = { s.preheaters.get k with
          target := some (a.curve.target (min 9999 (6 * s.delta)))
          output :=
            if (s.preheaters.get k).output < a.curve.target (min 9999 (6 * s.delta)) then
              min ((s.preheaters.get k).output + wrapSlew s.config) (a.curve.target (min 9999 (6 * s.delta)))
            else max ((s.preheaters.get k).output - wrapSlew s.config) (a.curve.target (min 9999 (6 * s.delta))) })
    ∧ ((t.preheaters.get k).output ≠ (s.preheaters.get k).output → s.link.bond.length ≤ 3 →
        Command.bondSetpoint (.ph k) (t.preheaters.get k).output ∈ t.link.bond)
    ∧ (∀ a, (s.preheaters.get k).active = some a → a.curve.valid = true →
        let v := min 9999 (6 * s.delta)
        ∃ w, (t.preheaters.get k).target = some w ∧ w ≤ 1000
          ∧ (v ≤ 10 * a.curve.b0.speed → w = a.curve.b0.wrap)
          ∧ (10 * a.curve.b3.speed ≤ v → w = a.curve.b3.wrap)
          ∧ (∀ p q : Breakpoint,
              (p, q) ∈ [(a.curve.b0, a.curve.b1), (a.curve.b1, a.curve.b2), (a.curve.b2, a.curve.b3)] →
              10 * p.speed ≤ v → v < 10 * q.speed →
                let span : Int := 10 * q.speed - 10 * p.speed
                let line : Int := p.wrap * span + (q.wrap - p.wrap) * (v - 10 * p.speed)
                2 * line - span < 2 * span * w ∧ 2 * span * w ≤ 2 * line + span))

/-! ### The reel monitor (R82 to R98) -/

/-- R88, R87: an ANNOUNCE REEL that passes its tests stores the announcement on an EMPTY or ANNOUNCED slot and makes the
identity check on a slot that holds a reel; a check that ends in MISMATCH sets attention and raises REEL_MISMATCH. A
VERIFIED slot announced again may keep LIMITED (log entry 13). The width of the answer's item is the model's choice (log
entry 4). -/
def Obligations.AnnounceReelActsByState : Prop :=
  ∀ (b : List Byte) (s : State) (k : Stand) (p : Pos) (a : Announcement), b.length = 13 → placeOf b = some (k, p) →
    announcementOf b = some a →
      (((s.slot k p).reel.inRole = true ∨ s.splicingReady k p = true) →
        exec (.announceReel b) s = .next (s.respond 0x30#8 .state []))
      ∧ ((s.slot k p).reel.inRole = false → s.splicingReady k p = false →
          ∃ t : State, exec (.announceReel b) s = .next (t.respond 0x30#8 .ok (byteOf (reelStateCode (t.slot k p).reel)))
            ∧ ((∃ sp, (s.slot k p).reel = .empty sp) ∨ (∃ old, (s.slot k p).reel = .announced old) →
                SpliceFrame (s.setSlot k p { s.slot k p with reel := .announced a }) t)
            ∧ (∀ id d, ((s.slot k p).reel = .loaded id d ∨ ∃ old, (s.slot k p).reel = .mismatch id old d) →
                if a.force = true ∨ (id ≠ 0 ∧ id = a.id) then
                  SpliceFrame (s.setSlot k p { s.slot k p with reel := .verified (verifiedPaper id d a) }) t
                else
                  SpliceFrame (s.setSlot k p ⟨.mismatch id { a with force := false } d, true⟩) t
                    ∧ ErrorKind.reelMismatch.isIn t.errors.status = true)
            ∧ (∀ r, (s.slot k p).reel = .verified r →
                if a.force = true ∨ (r.readId ≠ 0 ∧ r.readId = a.id) then
                  ∃ limited : Bool,
                    SpliceFrame (s.setSlot k p { s.slot k p with
                      reel := .verified { verifiedPaper r.readId r.diameter a with limited := limited } }) t
                    ∧ ((verifiedPaper r.readId r.diameter a).limited = true → limited = true)
                    ∧ (limited = true → r.limited = true ∨ (verifiedPaper r.readId r.diameter a).limited = true)
                else
                  SpliceFrame (s.setSlot k p ⟨.mismatch r.readId { a with force := false } r.diameter, true⟩) t
                    ∧ ErrorKind.reelMismatch.isIn t.errors.status = true))

/-- R89: WITHDRAW REEL drops the host data of an ANNOUNCED, VERIFIED or MISMATCH slot; every other slot, and the ready slot
of a SPLICING stand, refuses it with STATE. -/
def Obligations.WithdrawReelDropsHostData : Prop :=
  ∀ (b : List Byte) (s : State) (k : Stand) (p : Pos), b.length = 2 → placeOf b = some (k, p) →
    (s.splicingReady k p = true ∨ (s.slot k p).reel.inRole = true ∨ (∃ sp, (s.slot k p).reel = .empty sp)
        ∨ (∃ id d, (s.slot k p).reel = .loaded id d) →
      exec (.withdrawReel b) s = .next (s.respond 0x31#8 .state []))
    ∧ (s.splicingReady k p = false →
        (∀ a, (s.slot k p).reel = .announced a → ∃ t : State,
          exec (.withdrawReel b) s = .next (t.respond 0x31#8 .ok [])
            ∧ SpliceFrame (s.setSlot k p { s.slot k p with reel := .empty none }) t)
        ∧ (∀ r, (s.slot k p).reel = .verified r → ∃ t : State,
          exec (.withdrawReel b) s = .next (t.respond 0x31#8 .ok [])
            ∧ SpliceFrame (s.setSlot k p { s.slot k p with reel := .loaded r.readId r.diameter }) t)
        ∧ (∀ id a d, (s.slot k p).reel = .mismatch id a d → ∃ t : State,
          exec (.withdrawReel b) s = .next (t.respond 0x31#8 .ok [])
            ∧ SpliceFrame (s.setSlot k p { s.slot k p with reel := .loaded id d }) t))

/-- R90, R83, R120: THREAD REEL at a stand without a running role takes a VERIFIED slot to RUNNING with STALE clear and the
stale timer at 0, a LOADED or MISMATCH slot to UNIDENTIFIED, and clears the running joint. The VERIFIED case is stated for
a reel above its reserve that does not meet a pending plan. R91: UNTHREAD REEL on a stopped line at a stand in IDLE or FAULT
empties the running slot, records the spent reel and clears the running joint; in every other case it is refused with
STATE. -/
def Obligations.ReelsEnterAndLeaveTheRunningRole : Prop :=
  (∀ (b : List Byte) (s : State) (k : Stand) (p : Pos), b.length = 2 → placeOf b = some (k, p) →
    ((s.runningPos k).isSome ∨ (∃ sp, (s.slot k p).reel = .empty sp) ∨ (∃ a, (s.slot k p).reel = .announced a) →
      exec (.threadReel b) s = .next (s.respond 0x32#8 .state []))
    ∧ (s.runningPos k = none → ∀ r, (s.slot k p).reel = .verified r → reserveOf s.config k < r.remaining →
        (∀ pl, (s.seq k).plan = some pl → pl.code ≠ r.ann.code) →
        ∃ t : State, exec (.threadReel b) s = .next (t.respond 0x32#8 .ok [])
          ∧ SpliceFrame (s.setSlot k p { s.slot k p with reel := .running r false 0 }) t
          ∧ (t.seq k).runningJoint = none ∧ (∀ j, j ≠ k → t.seq j = s.seq j))
    ∧ (s.runningPos k = none → ∀ id d, ((s.slot k p).reel = .loaded id d ∨ ∃ a, (s.slot k p).reel = .mismatch id a d) →
        ∃ t : State, exec (.threadReel b) s = .next (t.respond 0x32#8 .ok [])
          ∧ SpliceFrame (s.setSlot k p { s.slot k p with reel := .unidentified id d }) t
          ∧ (t.seq k).runningJoint = none ∧ (∀ j, j ≠ k → t.seq j = s.seq j)))
  ∧ ∀ (b : List Byte) (s : State) (k : Stand), b.length = 1 → standOf (field b 0 1) = some k →
    ((s.runningPos k = none ∨ s.stopped = false ∨ ((s.seq k).state ≠ .idle ∧ (s.seq k).state ≠ .fault)) →
      exec (.unthreadReel b) s = .next (s.respond 0x33#8 .state []))
    ∧ (∀ p, s.runningPos k = some p → s.stopped = true → ((s.seq k).state = .idle ∨ (s.seq k).state = .fault) →
        ∃ spent : SpentReel,
          exec (.unthreadReel b) s = .next
            (((s.setSlot k p { s.slot k p with reel := .empty (some spent) }).setSeq k
              { s.seq k with runningJoint := none }).respond 0x33#8 .ok [])
          ∧ (∀ r st n, (s.slot k p).reel = .running r st n → spent = ⟨r.ann.id, r.remaining⟩)
          ∧ (∀ id d, (s.slot k p).reel = .unidentified id d → spent = ⟨id, 0⟩)
          ∧ (∀ r, (s.slot k p).reel = .exhausted r → spent = ⟨r.ann.id, 0⟩))

/-- R84, R85: the reports REEL_LOADED and REEL_REMOVED by the slot's state; a report invalid for its slot raises
REPORT_INVALID and nothing else. -/
def Obligations.ReelReportsActByState : Prop :=
  ∀ (s : State) (k : Stand) (p : Pos),
    (∀ id, id ≤ 99999999 →
      ((s.slot k p).reel.inRole = true →
        exec (.reelLoaded k p id) s = .next (s.raise .reportInvalid (.stand k)))
      ∧ (((∃ sp, (s.slot k p).reel = .empty sp) ∨ ∃ old d, (s.slot k p).reel = .loaded old d) →
          ∃ t, exec (.reelLoaded k p id) s = .next t ∧ SpliceFrame (s.setSlot k p ⟨.loaded id 0, true⟩) t)
      ∧ (∀ a, ((s.slot k p).reel = .announced a ∨ (∃ r, (s.slot k p).reel = .verified r ∧ r.ann = a)
            ∨ ∃ old d, (s.slot k p).reel = .mismatch old a d) →
          ∃ t, exec (.reelLoaded k p id) s = .next t
            ∧ (if a.force = true ∨ (id ≠ 0 ∧ id = a.id) then
                SpliceFrame (s.setSlot k p { s.slot k p with
                  reel := .verified ⟨id, { a with force := false }, 0, 0, 0, false⟩ }) t
              else
                SpliceFrame (s.setSlot k p ⟨.mismatch id { a with force := false } 0, true⟩) t
                  ∧ ErrorKind.reelMismatch.isIn t.errors.status = true)))
    ∧ (((s.slot k p).reel.inRole = true ∨ (∃ sp, (s.slot k p).reel = .empty sp) ∨ ∃ a, (s.slot k p).reel = .announced a) →
        exec (.reelRemoved k p) s = .next (s.raise .reportInvalid (.stand k)))
    ∧ (∀ id d, (s.slot k p).reel = .loaded id d →
        ∃ t, exec (.reelRemoved k p) s = .next t
          ∧ SpliceFrame (s.setSlot k p { s.slot k p with reel := .empty none }) t)
    ∧ (∀ a, ((∃ r, (s.slot k p).reel = .verified r ∧ r.ann = a) ∨ ∃ id d, (s.slot k p).reel = .mismatch id a d) →
        ∃ t, exec (.reelRemoved k p) s = .next t
          ∧ SpliceFrame (s.setSlot k p { s.slot k p with reel := .announced { a with force := false } }) t)

/-- R86, R93: DIAMETER stores D by the slot's state and recomputes the remaining length of a VERIFIED or RUNNING slot in
R93's arithmetic, and outside the running reel it does nothing more; a D above 20,000 raises DIAMETER_RANGE alone, and an
EMPTY or ANNOUNCED slot REPORT_INVALID alone. A RUNNING slot of length 0 is then EXHAUSTED (R97); one above its reserve
changes nothing else. -/
def Obligations.DiameterRecomputesTheLength : Prop :=
  ∀ (s : State) (k : Stand) (p : Pos) (d : Nat), d ≤ 65535 →
    let measured (r : Paper) : Nat :=
      if d ≤ r.ann.core then 0 else (d * d - r.ann.core * r.ann.core) * 32170 / (4096 * r.ann.caliper)
    let recomputed (r : Paper) : Paper :=
      { r with diameter := d, remaining := min (measured r) 16777215, residue := 0
               limited := r.limited || decide (16777215 < measured r) }
    let becomes (reel : Reel) : Prop :=
      exec (.diameter k p d) s = .next (s.setSlot k p { s.slot k p with reel := reel })
    (((∃ sp, (s.slot k p).reel = .empty sp) ∨ ∃ a, (s.slot k p).reel = .announced a) →
      exec (.diameter k p d) s = .next (s.raise .reportInvalid (.stand k)))
    ∧ (20000 < d → (∀ sp, (s.slot k p).reel ≠ .empty sp) → (∀ a, (s.slot k p).reel ≠ .announced a) →
        exec (.diameter k p d) s = .next (s.raise .diameterRange (.stand k)))
    ∧ (d ≤ 20000 →
        (∀ id e, (s.slot k p).reel = .loaded id e → becomes (.loaded id d))
        ∧ (∀ id a e, (s.slot k p).reel = .mismatch id a e → becomes (.mismatch id a d))
        ∧ (∀ id e, (s.slot k p).reel = .unidentified id e → becomes (.unidentified id d))
        ∧ (∀ r, (s.slot k p).reel = .exhausted r → becomes (.exhausted { r with diameter := d }))
        ∧ (∀ r, (s.slot k p).reel = .verified r → becomes (.verified (recomputed r)))
        ∧ (∀ r st n, (s.slot k p).reel = .running r st n → s.runningPos k = some p →
            ∃ t, exec (.diameter k p d) s = .next t
              ∧ ((recomputed r).remaining ≠ 0 →
                  t.slot k p = { s.slot k p with reel := .running (recomputed r) false 0 })
              ∧ ((recomputed r).remaining = 0 → t.slot k p = ⟨.exhausted (recomputed r), true⟩)
              ∧ (reserveOf s.config k < (recomputed r).remaining →
                  t = s.setSlot k p { s.slot k p with reel := .running (recomputed r) false 0 })))

/-- R97, R98: a RUNNING slot at length 0 becomes EXHAUSTED with attention, RUN_OUT is raised and its stand enters FAULT; a
window close on a running line adds 100 ms to the stale timer of a RUNNING slot; a timer above the limit sets STALE and
raises DIAMETER_STALE. The two event rows act only where their condition holds (log entry 9). -/
def Obligations.RunOutAndStaleReels : Prop :=
  ∀ (s : State) (k : Stand) (p : Pos) (r : Paper) (st : Bool) (n : Nat), s.runningPos k = some p →
    (s.slot k p).reel = .running r st n →
      (r.remaining ≠ 0 → exec (.runOut k) s = .next s)
      ∧ (r.remaining = 0 →
          ∃ t, exec (.runOut k) s = .next t
            ∧ t.slot k p = ⟨.exhausted r, true⟩ ∧ (t.seq k).state = .fault ∧ (t.seq k).timer = none
            ∧ ErrorKind.runOut.isIn t.errors.status = true
            ∧ (ErrorKind.runOut.isIn s.errors.mask = false → ErrorKind.runOut.isIn s.errors.severity = true →
                t.errors.hold = true)
            ∧ ((s.seq k).deferred = none → SpliceFrame (s.setSlot k p ⟨.exhausted r, true⟩) t))
      ∧ (st = false → staleLimit s.config < n →
          exec (.diameterStale k) s = .next ((s.setSlot k p { s.slot k p with reel := .running r true n }).raise
            .diameterStale (.stand k)))
      ∧ ((st = true ∨ n ≤ staleLimit s.config) → exec (.diameterStale k) s = .next s)
      ∧ (st = false → 0 < s.delta → n + 100 ≤ staleLimit s.config → staleLimit s.config ≤ 120000 →
          ∃ t, exec .speedWindowClose s = .next t
            ∧ t.slot k p = { s.slot k p with reel := .running r false (n + 100) })

/-! ### The splice controller (R106 to R119) -/

/-- R106, R108: REQUEST SPLICE arms a MANUAL splice due now at a stand in IDLE or ARMED with a running role and makes the
reel check at once; a pending plan stays. In every other state it is refused with STATE. The code of the state in
the answer is left open by the manual (log entry 4). -/
def Obligations.RequestSpliceArmsAndChecks : Prop :=
  ∀ (b : List Byte) (s : State) (k : Stand), b.length = 1 → standOf (field b 0 1) = some k →
    ((s.runningPos k = none ∨ ((s.seq k).state ≠ .idle ∧ (s.seq k).state ≠ .armed)) →
      exec (.requestSplice b) s = .next (s.respond 0x38#8 .state []))
    ∧ ((s.runningPos k).isSome → ((s.seq k).state = .idle ∨ (s.seq k).state = .armed) →
        ∃ t : State, exec (.requestSplice b) s = .next (t.respond 0x38#8 .ok (t.sequencerByte k))
          ∧ SpliceFrame s t
          ∧ (t.seq k).splice = some ⟨.manual, s.odometer⟩
          ∧ (t.seq k).plan = (s.seq k).plan
          ∧ (t.seq k).state = (if (s.checkPasses k .manual).isSome then
              (if s.speed ≤ spliceSpeedLimit s.config ∧ s.errors.hold = false then .splicing else .waitGo)
              else .waitReel)
          ∧ (∀ j, j ≠ k → t.seq j = s.seq j))

/-- R119, R115: CLEAR STAND takes a stand out of FAULT unless its running reel is EXHAUSTED: to ARMED for a pending plan
whose point lies ahead, to a LOW_REEL splice due now for a low running reel without a plan, otherwise to IDLE.
The code of the state in the answer is left open by the manual (log entry 4). -/
def Obligations.ClearStandTakesTheNextState : Prop :=
  ∀ (b : List Byte) (s : State) (k : Stand), b.length = 1 → standOf (field b 0 1) = some k →
    (((s.seq k).state ≠ .fault ∨ ∃ p r, s.runningPos k = some p ∧ (s.slot k p).reel = .exhausted r) →
      exec (.clearStand b) s = .next (s.respond 0x39#8 .state []))
    ∧ ((s.seq k).state = .fault → (∀ p r, s.runningPos k = some p → (s.slot k p).reel ≠ .exhausted r) →
        ∃ t : State, exec (.clearStand b) s = .next (t.respond 0x39#8 .ok (t.sequencerByte k))
          ∧ SpliceFrame s t ∧ (∀ j, j ≠ k → t.seq j = s.seq j)
          ∧ ((s.seq k).plan = none → s.low k = false →
              (t.seq k).state = .idle ∧ (t.seq k).splice = none ∧ (t.seq k).timer = none)
          ∧ ((s.seq k).plan = none → s.low k = true →
              (t.seq k).splice = some ⟨.lowReel, s.odometer⟩ ∧ (t.seq k).state ≠ .fault)
          ∧ (∀ pl, (s.seq k).plan = some pl → s.low k = false → reached s.odometer pl.due = false →
              (t.seq k).state = .armed ∧ (t.seq k).splice = some ⟨.grade, pl.due⟩))

/-- R112, R113, R115: a joint pulse places the JOINT mark at J = odometer + path with the configured culls, or raises
MARK_OVERFLOW, and hands the mark's zone to the span planner (R72, CullCounted, log entry 41; stated where no plan can ask
for a gap); it empties the running slot with its spent reel and attention and brings the other slot into the running role;
the running joint is J, planned where the stand was SPLICING; a stand in FAULT stays there, and one that was SPLICING without a plan for a reel above its reserve is IDLE without timer or queued SPLICE_GO. That none is left also where
two were queued is the model's choice (DESIGN CHOICE, log entry 47). R113: at a stand without a running role the one slot
that holds a reported reel enters the role and nothing is spent; where none does, or both, the slots stay. R114: a pending
plan whose code the new running reel carries is cleared, with the gap [J, P) for a joint before P of a mark with an outgoing
order, none for one in the zone, and one from the later of P + G and the knife to J for one behind it; a retired mark gives
the gap from the knife. Any other plan stays and places none. R187: where the joint input is low already, the low period
gives no pulse (log entry 37). -/
def Obligations.JointPulseSwapsTheRoles : Prop :=
  ∀ (s : State) (k : Stand),
    let j := plusMm s.odometer (pathOf s.config k)
    (jointLevel s.inputs k = false → exec (.jointPulse k) s = .next { s with inputs := jointHigh s.inputs k })
    ∧ (jointLevel s.inputs k = true → s.runningPos k = none →
        ∃ t, exec (.jointPulse k) s = .next t
          ∧ (s.marks.length < 48 → ∃ m, Mark.joint m ∈ t.marks ∧ m.joint = j ∧ m.stand = k)
          ∧ (t.seq k).runningJoint = some ⟨j, (s.seq k).state == .splicing⟩
          ∧ (∀ p : Pos, (s.slot k p).reel.reported = true → (s.slot k p.other).reel.reported = false →
              t.slot k p.other = s.slot k p.other
              ∧ (∀ r, (s.slot k p).reel = .verified r → 0 < r.remaining →
                  t.slot k p = { s.slot k p with reel := .running r false 0 })
              ∧ (∀ id d, ((s.slot k p).reel = .loaded id d ∨ ∃ a, (s.slot k p).reel = .mismatch id a d) →
                  t.slot k p = { s.slot k p with reel := .unidentified id d }))
          ∧ ((s.slot k .a).reel.reported = (s.slot k .b).reel.reported → t.reels = s.reels))
    ∧ ∀ p : Pos, jointLevel s.inputs k = true → s.runningPos k = some p →
    ∃ t, exec (.jointPulse k) s = .next t
      ∧ (s.marks.length < 48 → ∃ m, Mark.joint m ∈ t.marks ∧ m.joint = plusMm s.odometer (pathOf s.config k)
          ∧ m.stand = k ∧ m.cullBefore = jointCullBefore s.config ∧ m.cullAfter = jointCullAfter s.config)
      ∧ (48 ≤ s.marks.length → ErrorKind.markOverflow.isIn t.errors.status = true)
      ∧ (s.marks.length < 48 → (s.seq k).plan = none → (s.seq k).deferred = none →
          CullCounted s t (shiftBy j (-(jointCullBefore s.config : Int))) (plusMm j (jointCullAfter s.config)))
      ∧ (∃ spent, t.slot k p = ⟨.empty (some spent), true⟩
          ∧ (∀ r st n, (s.slot k p).reel = .running r st n → spent = ⟨r.ann.id, r.remaining⟩)
          ∧ (∀ id d, (s.slot k p).reel = .unidentified id d → spent = ⟨id, 0⟩)
          ∧ (∀ r, (s.slot k p).reel = .exhausted r → spent = ⟨r.ann.id, 0⟩))
      ∧ (∀ r, (s.slot k p.other).reel = .verified r → 0 < r.remaining →
          t.slot k p.other = { s.slot k p.other with reel := .running r false 0 })
      ∧ (∀ id d, ((s.slot k p.other).reel = .loaded id d ∨ ∃ a, (s.slot k p.other).reel = .mismatch id a d) →
          t.slot k p.other = { s.slot k p.other with reel := .unidentified id d })
      ∧ (((∃ sp, (s.slot k p.other).reel = .empty sp) ∨ ∃ a, (s.slot k p.other).reel = .announced a) →
          t.slot k p.other = { s.slot k p.other with reel := .unidentified 0 0 })
      ∧ (t.seq k).runningJoint = some ⟨plusMm s.odometer (pathOf s.config k), (s.seq k).state == .splicing⟩
      ∧ ((s.seq k).state = .fault → (t.seq k).state = .fault)
      ∧ (∀ r, (s.seq k).state = .splicing → (s.seq k).plan = none → (s.seq k).deferred = none →
          (s.slot k p.other).reel = .verified r → reserveOf s.config k < r.remaining →
          (t.seq k).state = .idle ∧ (t.seq k).timer = none ∧ (t.seq k).splice = none
            ∧ ∀ q tag, Command.spliceGo k q tag ∉ t.link.splice)
      ∧ (∀ r pl, (s.slot k p.other).reel = .verified r → 0 < r.remaining → (s.seq k).deferred = none →
          (s.seq k).plan = some pl → s.MarksKeyed →
          (r.ann.code ≠ pl.code → (t.seq k).plan = some pl ∧ NoGap s t k)
          ∧ (r.ann.code = pl.code → (t.seq k).plan = none
            ∧ (s.findChange pl.mark = none → GapHandled s t 2 k (knifeCoord s) j)
            ∧ ∀ m, s.findChange pl.mark = some m →
                (before j pl.p = true → m.outgoing ≠ none → GapHandled s t 2 k j pl.p)
                ∧ (before j pl.p = true → m.outgoing = none → NoGap s t k)
                ∧ ∀ g, m.length = some g → before j pl.p = false →
                    (before (plusMm pl.p g) j = false → NoGap s t k)
                    ∧ (before (plusMm pl.p g) j = true →
                        GapHandled s t 2 k (laterOf (plusMm pl.p g) (knifeCoord s)) j)))
      ∧ t.odometer = s.odometer ∧ t.config = s.config ∧ t.port = s.port ∧ t.glue = s.glue
      ∧ t.preheaters = s.preheaters

/-- R128, R129: t is u after the walk of standby assignment. The walk passes the entries at the head of the list that are
skip, and those that are unassigned with the pattern which the ENGAGED station holds and so become skip; at the end of the
list it is done. An entry served by a station ends it. An unassigned entry of another pattern is given to an IDLE station,
A where both are, which takes order, mark and pattern, with retry 0, and is SETTING with its set queued; with no IDLE station
the entry stays unassigned. Either way the walk ends there, and the entries behind stay as they are. -/
def Walked (u t : State) : Prop :=
  let incoming (d : Decision) (o : Order) : Prop := u.findOrder o.fields.number = some o
    ∧ ∃ m, u.findChange d.mark = some m ∧ m.incoming = some o.fields.number
  let held (p : Pattern) : Prop := ∃ e, u.engaged = some e ∧ (u.station e).pattern = some p
  t = { u with stations := t.stations, decisions := t.decisions, link := t.link, errors := t.errors, serial := t.serial }
  ∧ ∀ passed rest : List Decision, u.decisions = passed ++ rest →
    (∀ d ∈ passed, d.status = .skip ∨ (d.status = .unassigned ∧ ∃ o, incoming d o ∧ held o.fields.pattern)) →
    let list (rest : List Decision) : List Decision := passed.map (fun d => ⟨d.mark, .skip⟩) ++ rest
    (rest = [] → t = { u with decisions := list [] })
    ∧ ∀ d more, rest = d :: more →
      ((∃ st, d.status = .servedBy st) → t = { u with decisions := list rest })
      ∧ ∀ o, d.status = .unassigned → incoming d o → ¬ held o.fields.pattern →
        ((∀ st, (u.station st).state ≠ .idle) → t = { u with decisions := list rest })
        ∧ ∀ st, (u.station st).state = .idle → (st = .b → (u.station .a).state ≠ .idle) → u.link.slitter.length < 8 →
            t = { u.setStation st { u.station st with
                  state := .setting, order := some o.fields.number, served := some d.mark
                  pattern := some o.fields.pattern, retry := 0, timer := none, setTag := some u.serial } with
                decisions := list (⟨d.mark, .servedBy st⟩ :: more)
                serial := u.serial + 1
                link := { u.link with slitter := u.link.slitter ++ [.slitterSet st o.fields.pattern u.serial] } }

/-- R131: station st has entered FAULT: order and mark served are cleared, its timer has stopped, and its entry is unassigned
again; the walk has not been made yet. -/
def stationFaulted (s : State) (st : Station) : State :=
  { s.setStation st { s.station st with state := .fault, order := none, served := none, timer := none, setTag := none } with
    decisions := s.decisions.map fun d => if d.status = .servedBy st then ⟨d.mark, .unassigned⟩ else d }

/-- R111, R131: a splice timer above its limit raises SPLICE_TIMEOUT and puts its stand in FAULT; a set timer above its
limit raises SET_TIMEOUT, puts its station in FAULT without order, mark served or timer, leaves no entry served by it and
makes the walk of R128 (Walked).
The event rows act only where their timer has expired (log entry 9). -/
def Obligations.TimersPutTheirUnitInFault : Prop :=
  ∀ s : State,
    (∀ k, s.spliceExpired k = false → exec (.spliceTimeout k) s = .next s)
    ∧ (∀ (k : Stand) (tm : Timer), (s.seq k).state = .splicing → (s.seq k).timer = some tm → tm.limit < tm.ms →
        ∃ t, exec (.spliceTimeout k) s = .next t ∧ (t.seq k).state = .fault ∧ (t.seq k).timer = none
          ∧ ErrorKind.spliceTimeout.isIn t.errors.status = true
          ∧ ((s.seq k).deferred = none → SpliceFrame s t ∧ ∀ j, j ≠ k → t.seq j = s.seq j))
    ∧ (∀ st, s.setExpired st = false → exec (.setTimeout st) s = .next s)
    ∧ (∀ (st : Station) (tm : Timer), (s.station st).state = .setting → (s.station st).timer = some tm →
        tm.limit < tm.ms →
        ∃ t, exec (.setTimeout st) s = .next t
          ∧ (t.station st).state = .fault ∧ (t.station st).order = none ∧ (t.station st).served = none
          ∧ (t.station st).timer = none ∧ (t.station st).pattern = (s.station st).pattern
          ∧ ErrorKind.setTimeout.isIn t.errors.status = true
          ∧ (∀ d ∈ t.decisions, d.status ≠ .servedBy st)
          ∧ t.decisions.map (·.mark) = s.decisions.map (·.mark)
          ∧ t = { s with stations := t.stations, decisions := t.decisions, link := t.link, errors := t.errors,
                         serial := t.serial }
          ∧ ∃ v, Walked (stationFaulted s st) v ∧ t = v.raise .setTimeout (.station st))

/-! ### The slitter exchange (R127 to R137) -/

/-- R130, R131: a SET_POSITIONS report at a station in SETTING whose set has been sent makes it READY where it lists as many
positions as commanded, each within the tolerance; a first failure queues the set again with retry 1; a second puts the
station in FAULT with VERIFY_FAIL and makes the walk of R128 (Walked). Any other station discards it with REPORT_INVALID. -/
def Obligations.SetPositionsVerifiesTheStation : Prop :=
  ∀ (s : State) (st : Station) (measured : List Nat), measured.length ≤ 20 → (∀ v ∈ measured, v ≤ 65535) →
    let passes (commanded : List Nat) : Prop :=
      measured.length = commanded.length ∧ ∀ q ∈ measured.zip commanded,
        q.1 ≤ q.2 + slitterTolerance s.config ∧ q.2 ≤ q.1 + slitterTolerance s.config
    (((s.station st).state ≠ .setting ∨ (s.station st).timer = none) →
      exec (.setPositions st measured) s = .next (s.raise .reportInvalid (.station st)))
    ∧ ∀ pat tm, (s.station st).state = .setting → (s.station st).timer = some tm →
        (s.station st).pattern = some pat →
          (passes (pat.slits ++ pat.scores) →
            exec (.setPositions st measured) s =
              .next (s.setStation st { s.station st with state := .ready, timer := none }))
          ∧ (¬ passes (pat.slits ++ pat.scores) → (s.station st).retry = 0 → s.link.slitter.length < 8 →
              exec (.setPositions st measured) s = .next { s.setStation st { s.station st with
                  retry := 1, timer := none, setTag := some s.serial } with
                serial := s.serial + 1
                link := { s.link with slitter := s.link.slitter ++ [.slitterSet st pat s.serial] } })
          ∧ (¬ passes (pat.slits ++ pat.scores) → (s.station st).retry ≠ 0 →
              ∃ t, exec (.setPositions st measured) s = .next t
                ∧ (t.station st).state = .fault ∧ (t.station st).order = none ∧ (t.station st).served = none
                ∧ (t.station st).timer = none ∧ ErrorKind.verifyFail.isIn t.errors.status = true
                ∧ t = { s with stations := t.stations, decisions := t.decisions, link := t.link, errors := t.errors,
                               serial := t.serial }
                ∧ ∃ v, Walked (stationFaulted s st) v ∧ t = v.raise .verifyFail (.station st))

/-- R132, R128, R129: CLEAR STATION returns a FAULT station to IDLE with retry 0 and makes the walk of standby assignment
(Walked): entries of the engaged pattern become skip, an entry served by a station ends it, the first other entry gets an
IDLE station, A where both are, which is SETTING for that mark with its set queued. A station in any other state refuses it
with STATE. The code of the state in the answer is left open by the manual (log entry 4). -/
def Obligations.ClearStationReturnsToStandby : Prop :=
  ∀ (b : List Byte) (s : State) (st : Station), b.length = 1 → stationOf (field b 0 1) = some st →
    ((s.station st).state ≠ .fault → exec (.clearStation b) s = .next (s.respond 0x40#8 .state []))
    ∧ ((s.station st).state = .fault →
        ∃ t : State, exec (.clearStation b) s = .next (t.respond 0x40#8 .ok (t.stationByte st))
          ∧ Walked (s.setStation st { s.station st with state := .idle, retry := 0 }) t)

/-- R133 to R137: the decision crossing of a mark with an incoming order, as the count's only event. A mark that does not
stand at the head of the decision list gives no decision. Marked skip, its incoming order becomes that of the ENGAGED
station. Served by a READY station, the exchange is queued with X_ex, that station engages with its exchange not yet sent,
the ENGAGED one is lifted to IDLE. Both take the entry off the list and make the walk (R128, Walked). Otherwise the change is late:
X_ex, G and the later segment's start move by one incoming cut; the first extension raises LATE_CHANGE, the one that carries
G above G_max CHANGE_ABANDONED; an incoming segment that has become void gives its entry up (R137), and any other keeps the
decision pending. R74: a later mark that is frozen or pinned keeps its P. A provisional one that is not pinned gets the new
start as its base B and the end of the M-th clean cut from there, no earlier than before (log entry 41); R136, R80: at
CHANGE_ABANDONED its end goes to the floor C where C lies before it, and is pinned in both cases. Four clauses are the
model's: that P stays where the recompute gives the old one (DESIGN CHOICE, log entry 55), that the first extension of a
zone already longer than G_max raises CHANGE_ABANDONED (DEDUCED, log entry 14), that a mark which is not at the head of the
list gives no decision, and that a skip with no ENGAGED station changes no station (DESIGN CHOICE, log entry 24). -/
def Obligations.DecisionServesSkipsOrExtends : Prop :=
  ∀ (s : State) (m : ChangeMark) (n g : Nat), SoleEvent s (.fire m.uid .decision) →
    s.findMark m.uid = some (.change m) → m.incoming = some n → m.length = some g →
    let decided : State := (advanced s).updateChange m.uid fun x => x.setCross .decision .done
    let others := s.decisions.filter (·.mark != m.uid)
    let walks (u : State) : Prop := exec .forwardCount s = .next u.walk ∧ Walked u u.walk
    ((∀ d rest, s.decisions = d :: rest → d.mark ≠ m.uid) → exec .forwardCount s = .next decided)
    ∧ ∀ d rest, s.decisions = d :: rest → d.mark = m.uid →
      (d.status = .skip →
        (s.engaged = none → walks { decided with decisions := others })
        ∧ (∀ st, s.engaged = some st →
            walks { decided.setStation st { s.station st with order := some n } with decisions := others }))
      ∧ (∀ st, d.status = .servedBy st → (s.station st).state = .ready → s.link.slitter.length < 8 →
          ∃ t : State, walks t
            ∧ t = { decided with stations := t.stations, decisions := others
                                 link := { s.link with slitter := s.link.slitter
                                   ++ [.slitterExchange st s.engaged (some m.xEx) s.serial] }
                                 serial := s.serial + 1 }
            ∧ t.station st = { s.station st with
                state := .engaged, served := none, exchangeSent := some false, timer := none, setTag := none
                exchangeTag := some s.serial }
            ∧ (∀ old, s.engaged = some old →
                t.station old = { s.station old with state := .idle, order := none, exchangeSent := none, exchangeTag := none })
            ∧ (s.engaged = none → t.station st.other = s.station st.other))
      ∧ ((d.status = .unassigned ∨ ∃ st, d.status = .servedBy st ∧ (s.station st).state ≠ .ready) →
          ∀ later o, s.nextChange m.uid = some later → later.outgoing = some o →
          ∃ t : State, exec .forwardCount s = .next t
            ∧ (∃ x, Mark.change x ∈ t.marks ∧ x.uid = m.uid ∧ x.p = m.p ∧ x.xEx = plusMm m.xEx o.cutLength
                ∧ x.length = some (g + o.cutLength) ∧ x.extensions = min 65535 (m.extensions + 1)
                ∧ (s.planner = none → plusMm o.start o.cutLength ≠ later.p → ⟨.decision, .pending⟩ ∈ x.crossings))
            ∧ (∃ y, Mark.change y ∈ t.marks ∧ y.uid = later.uid
                ∧ y.outgoing = some { o with start := plusMm o.start o.cutLength }
                ∧ ((∀ pr, s.planner = some pr → pr.mark ≠ later.uid ∨ later.pinned = true) → t.planner = s.planner
                  ∧ y = { later with outgoing := some { o with start := plusMm o.start o.cutLength } }))
            ∧ (∀ pr, s.planner = some pr → pr.mark = later.uid → later.pinned = false →
                let moved : Outgoing := { o with start := plusMm o.start o.cutLength }
                let floor := (advanced s).floorEnd moved
                t.planner = some { pr with base := moved.start }
                ∧ ∃ (e : Coord) (x y z : ChangeMark), EndsSpan s o.cutLength pr.count moved.start e
                  ∧ y = { later with
                      outgoing := some moved
                      p := laterOf e later.p
                      xEx := if laterOf e later.p = later.p then later.xEx else laterOf e later.p }
                  ∧ Mark.change z ∈ t.marks
                  ∧ (if gMax s.config < g + o.cutLength ∧ (g ≤ gMax s.config ∨ m.extensions = 0) then
                      z = (if before floor y.p then { y with p := floor, xEx := floor, pinned := true }
                        else { y with pinned := true })
                    else z = y)
                  ∧ (moved.start ≠ z.p → t.decisions = s.decisions ∧ t.stations = s.stations
                    ∧ Mark.change x ∈ t.marks ∧ x.uid = m.uid ∧ ⟨.decision, .pending⟩ ∈ x.crossings))
            ∧ (m.extensions = 0 → ErrorKind.lateChange.isIn t.errors.status = true)
            ∧ (gMax s.config < g + o.cutLength → (g ≤ gMax s.config ∨ m.extensions = 0) →
                ErrorKind.changeAbandoned.isIn t.errors.status = true)
            ∧ (s.planner = none → plusMm o.start o.cutLength ≠ later.p →
                t.decisions = s.decisions ∧ t.stations = s.stations)
            ∧ ((∀ pr, s.planner = some pr → pr.mark ≠ later.uid ∨ later.pinned = true) →
                plusMm o.start o.cutLength = later.p →
                (∀ e ∈ t.decisions, e.mark ≠ m.uid)
                ∧ ∀ st, ((s.station st).state = .setting ∨ (s.station st).state = .ready) →
                    (t.station st).served ≠ some m.uid)
            ∧ t.orders = s.orders ∧ t.reels = (advanced s).reels ∧ t.knife = s.knife)

/-! ### The knife counter (R142 to R156) -/

/-- A cut pulse that matches the current nominal cut g (R145). -/
def MatchingCut (s : State) (g : Grid) : Prop :=
  s.inputs.cut = true ∧ s.knife.owner ≠ .unassigned ∧ s.knife.grid = some g ∧ 2 * cutTolerance s.config < g.sheet
    ∧ -(cutTolerance s.config : Int) ≤ sdist g.n (knifeCoord s) ∧ sdist g.n (knifeCoord s) ≤ cutTolerance s.config

/-- The knife counter once the grid has advanced past g to a position with a nominal sheet of the length (R143). -/
def gridAt (s : State) (g : Grid) (pos : GridPos) (len : Nat) : Knife :=
  { s.knife with
    grid := some ⟨pos, plusMm g.n len, len, false⟩
    split := s.knife.split.filter fun e => e.start != g.n
    lag := s.knife.lag.filter fun e => !atOrAfter g.n e.stop }

/-- R148: the sheet that ends at the current nominal cut g is clear of culls: no cull zone of a live mark and no stretch of
the lag list overlaps it. -/
def ClearSheet (s : State) (g : Grid) : Prop :=
  (∀ x ∈ s.marks, ∀ z, x.cullZone = some z → overlaps (g.n - BitVec.ofNat 32 g.sheet) g.n z.1 z.2 = false)
    ∧ ∀ e ∈ s.knife.lag, overlaps (g.n - BitVec.ofNat 32 g.sheet) g.n e.start e.stop = false

/-- R145: a cut pulse on the unassigned knife raises CUT_UNEXPECTED with object none and does nothing else. Of a sheet clear
of culls in a segment, away from its end and from a full stack: a pulse within the tolerance of the nominal cut counts a good
cut, one outside it but within half a sheet culls it for deviation and raises CUT_DEVIATION, and both advance the grid by
one cut; a pulse short of half a sheet raises CUT_UNEXPECTED and spoils the current sheet. R187: where CUT is low already,
the low period gives no pulse (log entry 37). -/
def Obligations.CutPulseJudgesTheSheet : Prop :=
  ∀ s : State,
    (s.inputs.cut = false → exec .cutPulse s = .next { s with inputs := { s.inputs with cut := true } })
    ∧ (s.inputs.cut = true → s.knife.owner = .unassigned → exec .cutPulse s = .next (s.raise .cutUnexpected .none))
    ∧ ∀ (g : Grid) (mark : Nat) (m : ChangeMark) (o : Outgoing), s.inputs.cut = true → s.knife.owner ≠ .unassigned →
        s.knife.grid = some g → g.pos = .segment mark → s.findChange mark = some m → m.outgoing = some o →
        2 * sdist g.n (knifeCoord s) < g.sheet →
          (2 * sdist g.n (knifeCoord s) < -(g.sheet : Int) →
            exec .cutPulse s = .next (({ s with
              knife := { s.knife with grid := some { g with spoiled := true } } } : State).raise .cutUnexpected
                (.order o.order)))
          ∧ (-(g.sheet : Int) ≤ 2 * sdist g.n (knifeCoord s) → g.n ≠ m.p → g.spoiled = false →
              ClearSheet s g →
              (-(cutTolerance s.config : Int) ≤ sdist g.n (knifeCoord s)
                  → sdist g.n (knifeCoord s) ≤ cutTolerance s.config →
                (∀ r, s.findOrder o.order = some r → min 2000 (r.stackFill + 1) < r.fields.stackSize) →
                exec .cutPulse s = .next { s with
                  knife := gridAt s g (.segment mark) o.cutLength
                  orders := s.orders.map fun r => if r.fields.number == o.order then
                    { r with goodCuts := min 16777215 (r.goodCuts + 1), stackFill := min 2000 (r.stackFill + 1) }
                    else r })
              ∧ ((sdist g.n (knifeCoord s) < -(cutTolerance s.config : Int)
                    ∨ (cutTolerance s.config : Int) < sdist g.n (knifeCoord s)) →
                exec .cutPulse s = .next (({ s with
                  knife := gridAt s g (.segment mark) o.cutLength
                  orders := s.orders.map fun r => if r.fields.number == o.order then
                    { r with cullCuts := min 16777215 (r.cullCuts + 1)
                             byReason := { r.byReason with deviation := min 16777215 (r.byReason.deviation + 1) } }
                    else r } : State).raise .cutDeviation (.order o.order))))

/-- R148, R149, R143: the sheet of a matching cut is charged by its place. In a lead or zone it is waste of the CHANGE mark,
and the grid goes on in the zone, or, at its end, into the incoming segment. In a segment it is culled for the first reason
that holds of GAP, JOINT, HOST (a mark of that kind overlaps it), CHANGE (a stretch of the lag list does) and, for a spoiled
sheet, DEVIATION, without an error, for its order; and otherwise good (CutPulseJudgesTheSheet). -/
def Obligations.SheetsAreChargedByPlace : Prop :=
  ∀ (s : State) (g : Grid) (mark : Nat) (m : ChangeMark), MatchingCut s g → s.MarksKeyed →
    s.findChange mark = some m →
    ((g.pos = .zone mark ∨ g.pos = .lead mark) →
      let wasted := s.marks.map fun x => match x with
        | .change c => if c.uid == mark then .change { c with waste := min 16777215 (c.waste + 1) } else x
        | x => x
      (m.stop ≠ some g.n → ∃ len,
        exec .cutPulse s = .next { s with marks := wasted, knife := gridAt s g (.zone mark) len }
          ∧ (m.length = none → ∀ o, m.outgoing = some o → len = o.cutLength)
          ∧ (m.length ≠ none → s.knife.split = [] → ∀ next o, s.nextChange mark = some next → next.outgoing = some o →
              len = o.cutLength))
      ∧ (m.stop = some g.n → ∀ next o, s.nextChange mark = some next → next.outgoing = some o → o.start ≠ next.p →
          exec .cutPulse s = .next { s with marks := wasted, knife := gridAt s g (.segment next.uid) o.cutLength }))
    ∧ (g.pos = .segment mark → g.n ≠ m.p → ∀ o, m.outgoing = some o →
        let hit (f : Mark → Bool) : Prop := ∃ x ∈ s.marks, f x = true ∧ ∃ z, x.cullZone = some z
          ∧ overlaps (g.n - BitVec.ofNat 32 g.sheet) g.n z.1 z.2 = true
        let lagging : Prop := ∃ e ∈ s.knife.lag, overlaps (g.n - BitVec.ofNat 32 g.sheet) g.n e.start e.stop = true
        let culledFor (f : CullCounts → CullCounts) : Prop :=
          exec .cutPulse s = .next { s with
            knife := gridAt s g (.segment mark) o.cutLength
            orders := s.orders.map fun r => if r.fields.number == o.order then
              { r with cullCuts := min 16777215 (r.cullCuts + 1), byReason := f r.byReason } else r }
        (hit Mark.isGap → culledFor fun c => { c with gap := min 16777215 (c.gap + 1) })
        ∧ (¬ hit Mark.isGap → hit Mark.isJoint → culledFor fun c => { c with joint := min 16777215 (c.joint + 1) })
        ∧ (¬ hit Mark.isGap → ¬ hit Mark.isJoint → hit Mark.isHost →
            culledFor fun c => { c with host := min 16777215 (c.host + 1) })
        ∧ (¬ hit Mark.isGap → ¬ hit Mark.isJoint → ¬ hit Mark.isHost → lagging →
            culledFor fun c => { c with change := min 16777215 (c.change + 1) })
        ∧ (¬ hit Mark.isGap → ¬ hit Mark.isJoint → ¬ hit Mark.isHost → ¬ lagging → g.spoiled = true →
            culledFor fun c => { c with deviation := min 16777215 (c.deviation + 1) }))

/-- R153, R154, R155: a good cut that fills the stack issues a STACK_CHANGE with the next stack number and the fill, which
becomes 0, stacks closed and outstanding changes rising by 1; with two changes outstanding it becomes the postponed one and
STACKER_LATE is raised; the open postponed change of the order takes further cuts. R151, R29: at the end of a segment the
stack is closed by a final change, the order has a segment less, and its last one leaves it SUSPENDED where it is stacked
and otherwise DONE with attention: CANCELLED under the cancel flag, COMPLETE where the good sheets reach Q, SHORT elsewhere;
the active count of a DONE order's grade falls by 1 (R49); the grid passes into the zone. Stated for a good sheet clear of
culls. -/
def Obligations.StacksCloseWhenFullAndAtSegmentEnds : Prop :=
  ∀ (s : State) (g : Grid) (mark : Nat) (m : ChangeMark) (o : Outgoing) (r : Order), MatchingCut s g →
    g.pos = .segment mark → s.findChange mark = some m → m.outgoing = some o → s.findOrder o.order = some r →
    g.spoiled = false → ClearSheet s g → s.link.stacker.length < 8 →
    let good := min 16777215 (r.goodCuts + 1)
    let fill := min 2000 (r.stackFill + 1)
    let closed := min 65535 (r.stacksClosed + 1)
    let on (f : Order → Order) : List Order := s.orders.map fun x => if x.fields.number == o.order then f x else x
    (g.n ≠ m.p → r.fields.stackSize ≤ fill →
      (s.knife.outstanding < 2 → (∀ p, s.knife.postponed = some p → p.order ≠ o.order ∨ p.closed ≠ none) →
        ∃ t, exec .cutPulse s = .next t
          ∧ t = { s with
              knife := { gridAt s g (.segment mark) o.cutLength with outstanding := s.knife.outstanding + 1 }
              link := { s.link with
                stacker := s.link.stacker ++ [.stackChange o.order (r.stacksClosed + 1) fill false] }
              orders := t.orders }
          ∧ t.findOrder o.order = some { r with goodCuts := good, stackFill := 0, stacksClosed := closed }
          ∧ ∀ x ∈ s.orders, x.fields.number ≠ o.order → x ∈ t.orders)
      ∧ (2 ≤ s.knife.outstanding → s.knife.postponed = none →
          exec .cutPulse s = .next (({ s with
            knife := { gridAt s g (.segment mark) o.cutLength with
              postponed := some ⟨o.order, r.stacksClosed + 1, none, false⟩ }
            orders := on fun x => { x with
              goodCuts := min 16777215 (x.goodCuts + 1), stackFill := min 2000 (x.stackFill + 1) } } : State).raise
              .stackerLate (.order o.order)))
      ∧ (∀ p, s.knife.postponed = some p → p.order = o.order → p.closed = none →
          exec .cutPulse s = .next { s with
            knife := gridAt s g (.segment mark) o.cutLength
            orders := on fun x => { x with
              goodCuts := min 16777215 (x.goodCuts + 1), stackFill := min 2000 (x.stackFill + 1) } }))
    ∧ (g.n = m.p → m.stop ≠ some g.n → fill < r.fields.stackSize → s.knife.outstanding < 2 → r.state = .running →
        ∃ t, exec .cutPulse s = .next t
          ∧ (∃ len, t.knife = { gridAt s g (.zone mark) len with outstanding := s.knife.outstanding + 1 }
              ∧ (m.length = none → len = o.cutLength))
          ∧ t.link = { s.link with stacker := s.link.stacker ++ [.stackChange o.order (r.stacksClosed + 1) fill true] }
          ∧ (∃ x, t.findOrder o.order = some x ∧ x.fields = r.fields ∧ x.goodCuts = good ∧ x.stackFill = 0
              ∧ x.stacksClosed = closed ∧ x.segments = r.segments - 1 ∧ x.cullCuts = r.cullCuts
              ∧ (2 ≤ r.segments → x.state = .running ∧ x.attention = r.attention ∧ t.grades = s.grades)
              ∧ (r.segments ≤ 1 → r.stacked = true →
                  x.state = .suspended ∧ x.attention = true ∧ t.grades = s.grades)
              ∧ (r.segments ≤ 1 → r.stacked = false → x.state = .done ∧ x.attention = true
                  ∧ x.outcome = some (if r.cancel then .cancelled
                      else if r.fields.quantity ≤ good * (r.fields.pattern.slits.length - 1) then .complete else .short)
                  ∧ t.grades = s.grades.map fun y =>
                      if y.fields.number == r.fields.grade then { y with active := y.active - 1 } else y))
          ∧ (∀ x ∈ s.orders, x.fields.number ≠ o.order → x ∈ t.orders)
          ∧ t.marks = s.marks ∧ t.errors = s.errors)

/-- R142, R143, R146: when a count passes the owner and when it finds a cut overdue, and what each does as the count's only
event. A count passes the owner of the unassigned knife exactly where the knife coordinate has reached the lead point of a
line-start mark, half the cut length that the next mark gives before its P; the owner of a segment exactly where it has
reached that segment's P; it passes the owner of a zone never. A cut is overdue exactly where the knife is assigned and
stands half a sheet or more beyond the nominal cut. The unassigned knife that reaches the lead point of a line-start mark, half an incoming cut before its P, takes that mark's zone, and the grid starts
at P; the owner of a segment passes to the zone of its mark at P; the owner of a zone passes at the mark's knife crossing to
the incoming segment, or past a void one to the zone of the later mark. A nominal cut that half a sheet has passed is
missed: its sheet, here one clear of culls in a segment, is culled for deviation, CUT_DEVIATION is raised and the grid
advances by one cut. -/
def Obligations.KnifeOwnerAndOverdueCuts : Prop :=
  ∀ s : State,
    (s.knife.owner = .unassigned → (CountEvent.owner ∈ countEvents s (advanced s) ↔ ∃ m ∈ s.changes, m.outgoing = none
        ∧ atOrAfter (knifeCoord (advanced s)) (m.p - BitVec.ofNat 32 (s.inCut m.uid / 2)) = true))
    ∧ (∀ (m next : ChangeMark) (o : Outgoing), s.nextChange m.uid = some next → next.outgoing = some o →
        s.inCut m.uid = o.cutLength)
    ∧ (∀ mark, s.knife.owner = .segment mark → (CountEvent.owner ∈ countEvents s (advanced s) ↔
        ∃ m, s.findChange mark = some m ∧ atOrAfter (knifeCoord (advanced s)) m.p = true))
    ∧ (∀ mark, s.knife.owner = .zone mark → CountEvent.owner ∉ countEvents s (advanced s))
    ∧ (CountEvent.overdue ∈ countEvents s (advanced s) ↔ s.knife.owner ≠ .unassigned
        ∧ ∃ g, s.knife.grid = some g ∧ (g.sheet : Int) ≤ 2 * sdist g.n (knifeCoord (advanced s)))
    ∧ (SoleEvent s .owner →
      (s.knife.owner = .unassigned → ∀ before m after, s.changes = before ++ m :: after →
          (∀ x ∈ before, x.outgoing ≠ none) → m.outgoing = none →
          atOrAfter (knifeCoord (advanced s)) (m.p - BitVec.ofNat 32 (s.inCut m.uid / 2)) = true →
          exec .forwardCount s = .next { advanced s with
            knife := { s.knife with owner := .zone m.uid, grid := some ⟨.lead m.uid, m.p, s.inCut m.uid, false⟩ } })
      ∧ (∀ mark, s.knife.owner = .segment mark →
          exec .forwardCount s = .next { advanced s with knife := { s.knife with owner := .zone mark } }))
    ∧ (∀ m : ChangeMark, SoleEvent s (.fire m.uid .knife) → s.findMark m.uid = some (.change m) →
        let passed : State := (advanced s).updateChange m.uid fun x => x.setCross .knife .done
        (s.knife.owner ≠ .zone m.uid → exec .forwardCount s = .next passed)
        ∧ (s.knife.owner = .zone m.uid → ∀ next o, s.nextChange m.uid = some next → next.outgoing = some o →
            exec .forwardCount s = .next { passed with knife := { s.knife with
              owner := if o.start = next.p then .zone next.uid else .segment next.uid } }))
    ∧ (∀ (g : Grid) (mark : Nat) (m : ChangeMark) (o : Outgoing), SoleEvent s .overdue → s.knife.grid = some g →
        g.pos = .segment mark → s.findChange mark = some m → m.outgoing = some o → g.n ≠ m.p →
        ClearSheet s g →
        2 * sdist (plusMm g.n o.cutLength) (knifeCoord (advanced s)) < o.cutLength →
        (g.sheet : Int) ≤ 2 * sdist g.n (knifeCoord (advanced s))
        ∧ exec .forwardCount s = .next (({ advanced s with
            knife := gridAt s g (.segment mark) o.cutLength
            orders := s.orders.map fun r => if r.fields.number == o.order then
              { r with cullCuts := min 16777215 (r.cullCuts + 1)
                       byReason := { r.byReason with deviation := min 16777215 (r.byReason.deviation + 1) } }
              else r } : State).raise .cutDeviation (.order o.order)))

/-- R156, R154: STACK_TAKEN lowers the outstanding changes by 1 and issues a postponed change, an open one with the order's
fill, which becomes 0, a closed one with its fixed count; stacks closed of its order rises by 1. No record changes where
the order has been retired. Of an order that is DONE stacks closed may rise or stay, since R30 and R154 differ (log entry
40). That an open postponed change of an order whose record is missing or retired issues 0 cuts is the model's choice (log
entry 24). With none outstanding it is discarded with REPORT_INVALID. -/
def Obligations.StackTakenIssuesThePostponed : Prop :=
  ∀ s : State,
    (s.knife.outstanding = 0 → exec .stackTaken s = .next (s.raise .reportInvalid (.address 9)))
    ∧ (0 < s.knife.outstanding →
        (s.knife.postponed = none →
          exec .stackTaken s = .next { s with knife := { s.knife with outstanding := s.knife.outstanding - 1 } })
        ∧ (∀ p, s.knife.postponed = some p → s.link.stacker.length < 8 →
            let issued (cuts : Nat) (final : Bool) : State := { s with
              knife := { s.knife with postponed := none }
              link := { s.link with stacker := s.link.stacker ++ [.stackChange p.order p.stack cuts final] } }
            let counted (f : Order → Order) : List Order :=
              s.orders.map fun r => if r.fields.number == p.order then f r else r
            (∀ cuts, p.closed = some cuts →
              ((p.retired = true ∨ s.findOrder p.order = none) → exec .stackTaken s = .next (issued cuts true))
              ∧ (∀ o, p.retired = false → s.findOrder p.order = some o → o.state ≠ .done →
                  exec .stackTaken s = .next { issued cuts true with
                    orders := counted fun r => { r with stacksClosed := min 65535 (r.stacksClosed + 1) } })
              ∧ (∀ o, p.retired = false → s.findOrder p.order = some o → o.state = .done →
                  ∃ rises : Bool, exec .stackTaken s = .next { issued cuts true with
                    draws := s.draws + 1
                    orders := if rises then
                        counted fun r => { r with stacksClosed := min 65535 (r.stacksClosed + 1) }
                      else s.orders }))
            ∧ (p.closed = none →
                ((p.retired = true ∨ s.findOrder p.order = none) → exec .stackTaken s = .next (issued 0 false))
                ∧ (∀ o, p.retired = false → s.findOrder p.order = some o → o.state ≠ .done →
                    exec .stackTaken s = .next { issued o.stackFill false with
                      orders := counted fun r =>
                        { r with stacksClosed := min 65535 (r.stacksClosed + 1), stackFill := 0 } }))))

/-! ### The bond controller (R160 to R169) -/

/-- R169, R180: REFRESH BOND answers with the count of the units that have an active grade and queues the current value of
each, in place of one that waits; the units' order is free (log entry 5). Stated where the class has room for the units
that do not wait in it. A body that is not empty is refused with FORMAT. The width of
the answer's item is the model's choice (log entry 4). -/
def Obligations.RefreshBondQueuesEveryUnit : Prop :=
  ∀ s : State,
    (∀ b : List Byte, b ≠ [] → exec (.refreshBond b) s = .next (s.respond 0x50#8 .format []))
    ∧ (s.link.bond.length + (s.activeUnits.filter fun u => !s.setpointQueued u).length ≤ 8 →
      ∃ t : State, exec (.refreshBond []) s = .next (t.respond 0x50#8 .ok (byteOf s.activeUnits.length))
        ∧ t = { s with link := { s.link with bond := t.link.bond }, draws := t.draws }
        ∧ (∀ k a, (s.preheaters.get k).active = some a → ∀ v,
            Command.bondSetpoint (.ph k) v ∈ t.link.bond ↔ v = (s.preheaters.get k).output)
        ∧ (∀ g a, (s.glue.get g).active = some a → ∀ v,
            Command.bondSetpoint (.glue g) v ∈ t.link.bond ↔ v = (s.glue.get g).gap)
        ∧ (∀ k v, (s.preheaters.get k).active = none →
            (Command.bondSetpoint (.ph k) v ∈ t.link.bond ↔ Command.bondSetpoint (.ph k) v ∈ s.link.bond))
        ∧ (∀ g v, (s.glue.get g).active = none →
            (Command.bondSetpoint (.glue g) v ∈ t.link.bond ↔ Command.bondSetpoint (.glue g) v ∈ s.link.bond)))

/-- R166, R165: the glue crossing of a JOINT mark, as the count's only event, starts a bump that ends the bump length
beyond the odometer, and no bump at length 0; a bump in progress takes the later of the two ends. The gap of a unit with an
active grade is then its base and bump, at most 1,500, or its base without a bump; where it differs from the gap commanded
it is taken and queued. R167: a bump whose end the odometer has reached ends, and the gap falls back to its base. The event
row BUMP_END acts only then (log entry 9). -/
def Obligations.BumpRunsFromJointToItsEnd : Prop :=
  ∀ (s : State) (u : GlueUnit),
    (∀ j : JointMark, SoleEvent s (.fire j.uid (.glue u)) → s.findMark j.uid = some (.joint j) →
      let c := s.glue.get u
      let b := bumpLength s.config
      let e := plusMm (s.odometer + 1#32) b
      let ends : Option Coord := match c.bumpEnd with
        | none => if b = 0 then none else some e
        | some old => some (if atOrAfter e old then e else old)
      ∃ t : State, exec .forwardCount s = .next t
        ∧ t = { (advanced s).jointCrossDone j.uid (.glue u) with glue := t.glue, link := t.link, errors := t.errors }
        ∧ (t.glue.get u).bumpEnd = ends ∧ (t.glue.get u).active = c.active ∧ (t.glue.get u).lastSent = c.lastSent
        ∧ (c.active = none → (t.glue.get u).gap = c.gap)
        ∧ (∀ a, c.active = some a → (t.glue.get u).gap =
            if ends = none then a.values.base else min 1500 (a.values.base + a.values.bump))
        ∧ (∀ w, w ≠ u → t.glue.get w = s.glue.get w)
        ∧ ((t.glue.get u).gap = c.gap → t.link = s.link ∧ t.errors = s.errors)
        ∧ ((t.glue.get u).gap ≠ c.gap → s.link.bond.length < 8 → s.setpointQueued (.glue u) = false →
            t.link = { s.link with bond := s.link.bond ++ [.bondSetpoint (.glue u) (t.glue.get u).gap] }
            ∧ t.errors = s.errors))
    ∧ (s.bumpDue u = false → exec (.bumpEnd u) s = .next s)
    ∧ (∀ e, (s.glue.get u).bumpEnd = some e → reached s.odometer e = true →
        ((∀ a, (s.glue.get u).active = some a → a.values.base = (s.glue.get u).gap) →
          exec (.bumpEnd u) s = .next (s.setGlue u { s.glue.get u with bumpEnd := none }))
        ∧ (∀ a, (s.glue.get u).active = some a → a.values.base ≠ (s.glue.get u).gap →
            s.link.bond.length < 8 → s.setpointQueued (.glue u) = false →
            exec (.bumpEnd u) s = .next { s.setGlue u { s.glue.get u with bumpEnd := none, gap := a.values.base } with
              link := { s.link with bond := s.link.bond ++ [.bondSetpoint (.glue u) a.values.base] } }))

/-- R162, R168, R165: a bond crossing of a mark with an incoming order, as the count's only event, gives its unit the
incoming grade with the values copied from its entry. A preheater keeps target and output, and sends its first value where
last sent is absent and none waits; a glue unit recomputes its gap at once, and sends it where it has changed or is the
first. Every other unit stays. -/
def Obligations.BondUnitsSwitchAtCrossings : Prop :=
  ∀ (s : State) (m : ChangeMark) (n : Nat) (o : Order) (g : Grade), s.findMark m.uid = some (.change m) →
    m.incoming = some n → s.findOrder n = some o → s.findGrade o.fields.grade = some g → s.link.bond.length < 8 →
    let crossed (c : Cross) : State := (advanced s).updateChange m.uid fun x => x.setCross c .done
    let sent (u : BondUnit) (v : Nat) : Link := { s.link with bond := s.link.bond ++ [.bondSetpoint u v] }
    (∀ k, SoleEvent s (.fire m.uid (.ph k)) →
      let c := s.preheaters.get k
      ∃ t : State, exec .forwardCount s = .next t
        ∧ t = { crossed (.ph k) with preheaters := t.preheaters, link := t.link }
        ∧ t.preheaters.get k = { c with active := some ⟨g.fields.number, g.fields.curves.get k⟩ }
        ∧ (∀ j, j ≠ k → t.preheaters.get j = s.preheaters.get j)
        ∧ t.link = (if c.lastSent = none ∧ s.setpointQueued (.ph k) = false then sent (.ph k) c.output else s.link))
    ∧ (∀ u, SoleEvent s (.fire m.uid (.glue u)) →
      let c := s.glue.get u
      let v := g.fields.glue.get u
      let gap := if c.bumpEnd = none then v.base else min 1500 (v.base + v.bump)
      ∃ t : State, exec .forwardCount s = .next t
        ∧ t = { crossed (.glue u) with glue := t.glue, link := t.link }
        ∧ t.glue.get u = { c with active := some ⟨g.fields.number, v⟩, gap := gap }
        ∧ (∀ w, w ≠ u → t.glue.get w = s.glue.get w)
        ∧ (s.setpointQueued (.glue u) = false →
            t.link = (if gap ≠ c.gap ∨ c.lastSent = none then sent (.glue u) gap else s.link))
        ∧ (s.setpointQueued (.glue u) = true → gap = c.gap → t.link = s.link)
        ∧ (s.setpointQueued (.glue u) = true → gap ≠ c.gap →
            ∀ x, Command.bondSetpoint (.glue u) x ∈ t.link.bond ↔ x = gap))

/-! ### The station link (R174 to R183) -/

/-- R182: with the place free, the arbiter takes the head of the highest-priority class that is not empty; a held place, or
five empty queues, leave everything as it was. R174: LNK_DE is high for as long as a command is in the place, and LNK_TX
then carries its frame: start delimiter, address, kind, body length, body, and a 16-bit check over all of them but the
delimiter, each byte as a start bit, eight data bits and a stop bit. Delimiter, check, kind byte and the body's layout are
left open by the manual (log entry 38), and so are the widths of delimiter, address, kind and body length, one byte each
here (log entry 51), and the levels and the order of a byte's bits (log entry 53). -/
def Obligations.ArbiterTakesByPriority : Prop :=
  ∀ s : State,
    (∀ c x rest, s.link.place = none → s.link.queue c = x :: rest →
      (∀ d, linkClasses.idxOf d < linkClasses.idxOf c → s.link.queue d = []) →
      ∃ t : State, exec .arbiterTake s = .next t
        ∧ t = { s with link := { s.link.setQueue c rest with place := some x } }
        ∧ t.lnkDeHigh = true
        ∧ ∃ kind : Byte,
            let checked := BitVec.ofNat 8 x.address :: kind :: BitVec.ofNat 8 (commandItems x).length :: commandItems x
            t.lnkTx = linkBitsOf (Config.startDelimiter :: (checked ++ bytesOf 2 (Config.frameCheck checked).toNat)))
    ∧ (∀ (bytes : List Byte) (i : Nat), i < bytes.length →
        (linkBitsOf bytes).length = 10 * bytes.length
        ∧ (linkBitsOf bytes)[10 * i]? = some Config.linkStartLevel
        ∧ (∀ j < 8, (linkBitsOf bytes)[10 * i + 1 + j]?
            = some ((bytes.getD i 0#8).getLsbD (if Config.linkMsbFirst then 7 - j else j)))
        ∧ (linkBitsOf bytes)[10 * i + 9]? = some (!Config.linkStartLevel))
    ∧ (s.link.place = none → s.lnkDeHigh = false ∧ s.lnkTx = [])
    ∧ (s.link.place.isSome → exec .arbiterTake s = .next s)
    ∧ ((∀ c, s.link.queue c = []) → exec .arbiterTake s = .next s)

/-- The row of the opcode table that reports the send of a command. -/
def sentRow : Command → Instr
  | .spliceGo _ _ _ => .spliceGo
  | .speedCap _ => .speedCap
  | .knifeSchedule _ _ _ => .knifeSchedule
  | .slitterSet _ _ _ => .slitterSet
  | .slitterExchange _ _ _ _ => .slitterExchange
  | .stackChange _ _ _ _ => .stackChange
  | .bondSetpoint _ _ => .bondSetpoint

/-- R179, R182: the end of a send frees the place and makes the hand-off of its command: SPLICE_GO starts the splice timer
of a stand still SPLICING for it (R111), SLITTER_SET the set timer of a station in SETTING with that set (R129),
SLITTER_EXCHANGE sets exchange sent of a station ENGAGED by it (R133, R140, log entry 44) and makes the late-exchange test (R150),
whose stretch is dropped where the lag list holds four, BOND_SETPOINT writes last sent (R168); the other three make none. A
row whose command is not in the place changes nothing (log entry 10). -/
def Obligations.SentCommandsMakeTheirHandOffs : Prop :=
  ∀ s : State,
    let free (t : State) : State := { t with link := { t.link with place := none } }
    (∀ k p tag, s.link.place = some (.spliceGo k p tag) →
      exec .spliceGo s = .next (free
        (if (s.seq k).state = .splicing ∧ (s.seq k).goTag = some tag then
          s.setSeq k { s.seq k with timer := some ⟨0, spliceTimeLimit s.config⟩ } else s)))
    ∧ (∀ l, s.link.place = some (.speedCap l) → exec .speedCap s = .next (free s))
    ∧ (∀ c l i, s.link.place = some (.knifeSchedule c l i) → exec .knifeSchedule s = .next (free s))
    ∧ (∀ st pat tag, s.link.place = some (.slitterSet st pat tag) →
        exec .slitterSet s = .next (free
          (if (s.station st).state = .setting ∧ (s.station st).setTag = some tag then
            s.setStation st { s.station st with timer := some ⟨0, setTimeLimit s.config⟩ } else s)))
    ∧ (∀ e l x tag, s.link.place = some (.slitterExchange e l x tag) →
        let told : State := if (s.station e).state = .engaged ∧ (s.station e).exchangeTag = some tag then
          s.setStation e { s.station e with exchangeSent := some true } else s
        (x = none → exec .slitterExchange s = .next (free told))
        ∧ (∀ y, x = some y → (atOrAfter y (slitterCoord s) = true ∨ 4 ≤ s.knife.lag.length) →
            exec .slitterExchange s = .next (free told))
        ∧ (∀ y, x = some y → atOrAfter y (slitterCoord s) = false → s.knife.lag.length < 4 →
            exec .slitterExchange s = .next { free told with
              knife := { s.knife with lag := insertLag s.odometer ⟨y, slitterCoord s⟩ s.knife.lag } }))
    ∧ (∀ o n c f, s.link.place = some (.stackChange o n c f) → exec .stackChange s = .next (free s))
    ∧ (∀ k v, s.link.place = some (.bondSetpoint (.ph k) v) →
        exec .bondSetpoint s = .next (free (s.setPreheater k { s.preheaters.get k with lastSent := some v })))
    ∧ (∀ g v, s.link.place = some (.bondSetpoint (.glue g) v) →
        exec .bondSetpoint s = .next (free (s.setGlue g { s.glue.get g with lastSent := some v })))
    ∧ (∀ c ∈ [Instr.spliceGo, .speedCap, .knifeSchedule, .slitterSet, .slitterExchange, .stackChange, .bondSetpoint],
        (∀ x, s.link.place = some x → sentRow x ≠ c) → exec c s = .next s)

/-- R177, R174: a complete report frame whose check is wrong or whose source is unknown raises REPORT_INVALID with object
none; one whose kind is none of the five or not one its source sends, whose body has a wrong length (or more than 48 bytes,
log entry 48), or that has a field out of its range, with the source as object; nothing else changes. A frame that passes is
the report itself (log entry 8). Bytes may arrive in pieces, and bytes without a start delimiter between two frames are
passed over (log entry 8). A pair at rest between two frames brings nothing; a frame in reception goes on where its bytes
stop for up to 100 bit times of 1 µs, also over two commands, and is ended as malformed by one more (R174; how the time is
counted is log entry 59). Each byte comes as a start bit, eight data bits and a stop bit (linkBitsOf, whose bits
ArbiterTakesByPriority gives). The timeout ends a frame in reception as malformed; a receiver that waits has none (log
entry 9). A row REEL_LOADED or SET_POSITIONS with a field out of its range is such a frame (log
entries 8 and 34). The items in front of a frame's body take one byte each (log entry 51); the levels and the order of a
byte's bits are free (log entry 53). -/
def Obligations.BadReportsAreDiscarded : Prop :=
  (∀ (s : State) (f : LinkFrame) (check : List Byte), s.receiver = none → f.body.length < 256 → check.length = 2 →
    let right : Prop := check = bytesOf 2 (Config.frameCheck f.checked).toNat
    let arrives := exec (.malformedReport (linkBitsOf (Config.startDelimiter :: (f.checked ++ check)))) s
    ((¬ right ∨ sourceOf f.address.toNat = none) → arrives = .next (s.raise .reportInvalid .none))
    ∧ (∀ src, right → sourceOf f.address.toNat = some src →
        (∀ k, reportKindOf f.kind = some k → src.sends k = false ∨ 48 < f.body.length ∨ reportLengthOk k f.body = false
          ∨ reportRangesOk k f.body = false) →
        arrives = .next (s.raise .reportInvalid src.object))
    ∧ (∀ src k, right → sourceOf f.address.toNat = some src → reportKindOf f.kind = some k → src.sends k = true →
        reportLengthOk k f.body = true → reportRangesOk k f.body = true →
        (∀ st p, src = .stand st → posOf (byteAt f.body 0) = some p →
          (k = .reelLoaded → arrives = exec (.reelLoaded st p (field f.body 1 4)) s)
          ∧ (k = .reelRemoved → arrives = exec (.reelRemoved st p) s)
          ∧ (k = .diameter → arrives = exec (.diameter st p (field f.body 1 2)) s))
        ∧ (∀ x, src = .station x →
            arrives = exec (.setPositions x (positionsAt f.body 1 (byteAt f.body 0))) s)
        ∧ (src = .stacker → arrives = exec .stackTaken s))
    ∧ (∀ n, n < (f.checked ++ check).length →
        exec (.malformedReport (linkBitsOf (Config.startDelimiter :: (f.checked ++ check).take n))) s
          = .next { s with receiver := some ⟨(f.checked ++ check).take n, 0⟩ }))
  ∧ (∀ (s t : State) (a : List Byte) (b : List Bool) (n : Nat), exec (.malformedReport (linkBitsOf a)) s = .next t →
      let goesOnAs (u : State) : Prop :=
        exec (.malformedReport (linkBitsOf a ++ List.replicate n (!Config.linkStartLevel) ++ b)) s
          = exec (.malformedReport b) u
      (t.receiver = none ∨ n = 0 → goesOnAs t)
      ∧ ∀ r, t.receiver = some r →
        (r.rest + n ≤ 100 → goesOnAs { t with receiver := some { r with rest := r.rest + n } })
        ∧ (0 < n → 100 < r.rest + n → goesOnAs (({ t with receiver := none } : State).raise .reportInvalid .none)))
  ∧ ∀ s : State,
    (∀ bytes, s.receiver = none → Config.startDelimiter ∉ bytes →
      exec (.malformedReport (linkBitsOf bytes)) s = .next s)
    ∧ (∀ r, s.receiver = some r →
        exec .reportFrameTimeout s = .next (({ s with receiver := none } : State).raise .reportInvalid .none))
    ∧ (s.receiver = none → exec .reportFrameTimeout s = .next s)
    ∧ (∀ id k p, 99999999 < id → exec (.reelLoaded k p id) s = .next (s.raise .reportInvalid (.stand k)))
    ∧ (∀ st xs, (20 < xs.length ∨ ∃ x ∈ xs, 65535 < x) →
        exec (.setPositions st xs) s = .next (s.raise .reportInvalid (.station st)))

/-! ### Configuration and resets (R193 to R195, R207, R208) -/

/-- R194, R8: a CONFIGURE that passes its tests stores each named value brought into its range, raises F to its minimum
(log entry 46) and leaves every other item and record, but for the LOW_REEL splices of a changed reserve; OK says that
nothing was clamped or raised. It is refused with STATE while an order is RUNNING or SUSPENDED or a mark is live, and with
RANGE for an item number out of range or named twice, or an ordering broken by the merged values. R195: READ CONFIG answers
with 160 bytes, the 40 values in item order, each signed and 4 bytes long. -/
def Obligations.ConfigurationIsStoredAndRead : Prop :=
  (∀ (b : List Byte) (s : State), b.length % 5 = 0 → 5 ≤ b.length → b.length ≤ 120 → s.config.length = 40 →
    let pairs := configPairs b
    let busy := (∃ o ∈ s.orders, o.state = .running ∨ o.state = .suspended) ∨ s.marks ≠ []
    let named := (∀ p ∈ pairs, 1 ≤ p.number ∧ p.number ≤ 40) ∧ (pairs.map (·.number)).Nodup
    (busy → exec (.configure b) s = .next (s.respond 0x02#8 .state []))
    ∧ (¬ busy → (¬ named ∨ offsetsOrdered (merged s.config pairs) = false) →
        exec (.configure b) s = .next (s.respond 0x02#8 .range []))
    ∧ (¬ busy → named → offsetsOrdered (merged s.config pairs) = true →
        ∃ (t : State) (st : Status) (r : List Byte), exec (.configure b) s = .next (t.respond 0x02#8 st r)
          ∧ SpliceFrame { s with config := t.config } t
          ∧ t.config.length = 40
          ∧ (∀ p ∈ pairs, p.number ≠ 21 →
              item t.config p.number = max (rowOf p.number).lo (min (rowOf p.number).hi p.value))
          ∧ (∀ n, 1 ≤ n → n ≤ 40 → n ≠ 21 → (∀ p ∈ pairs, p.number ≠ n) → item t.config n = item s.config n)
          ∧ item t.config 21 = max (item (merged s.config pairs) 21) (minFreeze t.config)
          ∧ (st = .ok ∨ st = .clamped)
          ∧ (st = .ok ↔ (∀ p ∈ pairs, (rowOf p.number).lo ≤ p.value ∧ p.value ≤ (rowOf p.number).hi)
              ∧ minFreeze t.config ≤ item (merged s.config pairs) 21)))
  ∧ ∀ s : State, configInRange s.config = true →
      ∃ b, exec (.readConfig []) s = .next (s.respond 0x03#8 .ok b) ∧ b.length = 160
        ∧ ∀ n, 1 ≤ n → n ≤ 40 → signedField b (4 * (n - 1)) = item s.config n

/-- R207, R23, R46, R57, R81, R100, R123, R140, R159, R172, R188: LINE RESET on a stopped line with no stand SPLICING
empties the mark table, the decision list, the planner, the knife counter and the KNIFE, SLITTER and STACKER queues; ends
every order on the machine as ABORTED with attention, clears the stack and the active counts; drops the splice and the plan
of the armed and waiting stands, arms LOW_REEL at every stand outside FAULT whose running reel is low, and releases a speed
cap; returns the stations in SETTING and READY to IDLE, takes the order of the ENGAGED station and sends its exchange as an
immediate one where it has not been sent, which exchange sent then waits for; ends every bump; and leaves reels, run sequence, odometer, preheaters,
configuration and the place for sending. It is refused with STATE otherwise. The width of the answer's item is the model's
choice (log entry 4); the cap release is stated at a permitted speed. -/
def Obligations.LineResetEndsTheRun : Prop :=
  ∀ s : State,
    ((s.stopped = false ∨ ∃ k, (s.seq k).state = .splicing) →
      exec (.lineReset []) s = .next (s.respond 0x04#8 .state []))
    ∧ (s.stopped = true → (∀ k, (s.seq k).state ≠ .splicing) →
        ∃ t : State, exec (.lineReset []) s = .next (t.respond 0x04#8 .ok
            (byteOf (s.orders.filter fun o => o.state = .running ∨ o.state = .suspended).length))
          ∧ t.marks = [] ∧ t.decisions = [] ∧ t.planner = none ∧ t.knife = Knife.reset ∧ t.suspended = []
          ∧ t.link.place = s.link.place ∧ t.link.knife = [] ∧ t.link.stacker = []
          ∧ ((∀ st, s.engaged = some st → (s.station st).exchangeSent ≠ some false) → t.link.slitter = [])
          ∧ (∀ st, s.engaged = some st → (s.station st).exchangeSent = some false → ∃ tag, s.serial ≤ tag
              ∧ t.link.slitter = [.slitterExchange st (some st.other) none tag]
              ∧ t.station st = { s.station st with order := none, exchangeTag := some tag })
          ∧ t.orders = s.orders.map (fun o => if o.state = .running ∨ o.state = .suspended then
              { o with state := .done, outcome := some .aborted, segments := 0, stacked := false, attention := true }
              else o)
          ∧ t.grades = s.grades.map (fun g => { g with active := 0 })
          ∧ (∀ k, (s.seq k).state ≠ .idle → (t.seq k).plan = none)
          ∧ (∀ k, (s.seq k).state = .fault → t.seq k = { s.seq k with plan := none })
          ∧ (∀ k, (s.seq k).state ≠ .fault → s.low k = true → (t.seq k).splice = some ⟨.lowReel, s.odometer⟩
              ∧ ((t.seq k).state = .waitReel ∨ (t.seq k).state = .waitGo ∨ (t.seq k).state = .splicing))
          ∧ (∀ k, (s.seq k).state ≠ .fault → s.low k = false → (t.seq k).state = .idle
              ∧ ((s.seq k).state ≠ .idle → (t.seq k).splice = none ∧ (t.seq k).required = none))
          ∧ (s.speed ≤ spliceSpeedLimit s.config → t.capFlag = false
              ∧ (s.capFlag = true → s.link.splice.length < 8 → Command.speedCap none ∈ t.link.splice))
          ∧ (∀ st, ((s.station st).state = .setting ∨ (s.station st).state = .ready) →
              (t.station st).state = .idle ∧ (t.station st).order = none ∧ (t.station st).served = none
                ∧ (t.station st).timer = none)
          ∧ (∀ st, (s.station st).state = .engaged → (s.engaged = some st → (s.station st).exchangeSent ≠ some false) →
              t.station st = { s.station st with order := none })
          ∧ (∀ st, ((s.station st).state = .idle ∨ (s.station st).state = .fault) → t.station st = s.station st)
          ∧ (∀ g, (t.glue.get g).bumpEnd = none)
          ∧ t.odometer = s.odometer ∧ t.speed = s.speed ∧ t.reels = s.reels ∧ t.runSeq = s.runSeq
          ∧ t.preheaters = s.preheaters ∧ t.config = s.config ∧ t.errors.mask = s.errors.mask
          ∧ t.receiver = s.receiver ∧ t.inputs = s.inputs)

/-- What device reset leaves, whatever the state before it: the order book of R45, the error and attention unit of R208, and
the values that R22, R57, R81, R100, R122, R139, R158, R171, R187, R193 and R209 list for the other blocks; the input filters
stand at the levels that their inputs then hold (R187), free values that the reset draws (log entry 37). That the command
queue and the count of free values, which are the model's own, are not reset is its choice (log entry 28). -/
def Obligations.DeviceResetValues : Prop :=
  ∀ s : State, ∃ t, exec .deviceReset s = .next t
    ∧ t.odometer = 0#32 ∧ t.delta = 0 ∧ t.windowMs = 0 ∧ t.speed = 0 ∧ t.zeroWindows = 20 ∧ t.stopped = true
    ∧ t.reverseRun = false
    ∧ t.marks = [] ∧ t.orders = [] ∧ t.runSeq = [] ∧ t.suspended = [] ∧ t.grades = [] ∧ t.planner = none
    ∧ (∀ k p, t.slot k p = ⟨.empty none, false⟩)
    ∧ (∀ k, t.seq k = ⟨.idle, none, none, none, none, none, none, none⟩) ∧ t.capFlag = false
    ∧ (∀ st, t.station st = ⟨.idle, none, none, none, 0, none, none, none, none⟩) ∧ t.decisions = []
    ∧ t.knife = ⟨.unassigned, none, [], [], 0, none⟩
    ∧ (∀ k, t.preheaters.get k = ⟨none, none, 0, none⟩) ∧ (∀ g, t.glue.get g = ⟨none, none, 0, none⟩)
    ∧ t.link = ⟨none, [], [], [], [], []⟩ ∧ t.receiver = none ∧ t.inputs = levelsAtReset s.draws ∧ t.lnkDeHigh = false
    ∧ t.errors.status = 0#18 ∧ t.errors.mask = 0#18 ∧ t.errors.first = none ∧ t.errors.hold = false
    ∧ (∀ k : ErrorKind, k.isIn t.errors.severity = [1, 2, 9, 14, 17].contains k.number)
    ∧ t.stopReqLow = false ∧ t.attnLow = false
    ∧ t.port = ⟨0x00#8, .ok, []⟩
    ∧ t.config = Config.itemRows.map (·.dflt)
    ∧ t.draws = s.draws + 8 ∧ t.pending = s.pending

/-! ### The safe states -/

/-- The state after device reset is safe, it lies within every bound the manual gives its records; and consistent, its
tables agree. -/
def Obligations.ResetIsSafe : Prop := State.reset.Safe ∧ State.reset.Consistent

/-- R203 and the bounds of R3, R4, R8, R9, R24, R33, R47, R125, R141, R160, R180, R193: every step from a safe state leads to
a safe state, whatever the command: in particular the line is in HOLD whenever a status is set, unmasked and FATAL. -/
def Obligations.SafetyIsKept : Prop :=
  ∀ s t : State, s.Safe → step s = .next t → t.Safe

/-- R24, R31, R47, R49, R83, R161: every step from a consistent state leads to a consistent state, whatever the command: no
two orders and no two grades share a number or a slot, the run sequence holds exactly the QUEUED orders, the reference and
active counts are the numbers of orders they count, at most one slot of a stand is in the running role, and every gap lies
in 0..1,500. The serial numbers of the marks are the model's own (log entry 2). -/
def Obligations.ConsistencyIsKept : Prop :=
  ∀ s t : State, s.Consistent → step s = .next t → t.Consistent
end

