-- ==== Sys2Proof/Laws/State.lean ====
section
/-! SUPPORT. What each named update of State does to each field, true by unfolding, so that no later proof opens a record
update; and how reading by stand, unit, position and station meets writing. -/

namespace Sys2Proof.Machine

open Sys2Proof

/-! ### Reading what was written -/

@[simp] theorem PerStand.get_set_same {α : Type} (t : PerStand α) (k : Stand) (x : α) : (t.set k x).get k = x := by
  cases k <;> rfl

theorem PerStand.get_set_other {α : Type} (t : PerStand α) {j k : Stand} (x : α) (h : j ≠ k) :
    (t.set k x).get j = t.get j := by
  cases j <;> cases k <;> first | rfl | exact absurd rfl h

@[simp] theorem PerGlue.get_set_same {α : Type} (t : PerGlue α) (g : GlueUnit) (x : α) : (t.set g x).get g = x := by
  cases g <;> rfl

theorem PerGlue.get_set_other {α : Type} (t : PerGlue α) {j g : GlueUnit} (x : α) (h : j ≠ g) :
    (t.set g x).get j = t.get j := by
  cases j <;> cases g <;> first | rfl | exact absurd rfl h

@[simp] theorem Pair.get_set_same {α : Type} (t : Pair α) (st : Station) (x : α) : (t.set st x).get st = x := by
  cases st <;> rfl

theorem Pair.get_set_other {α : Type} (t : Pair α) {u st : Station} (x : α) (h : u ≠ st) :
    (t.set st x).get u = t.get u := by
  cases u <;> cases st <;> first | rfl | exact absurd rfl h

@[simp] theorem Pair.at_put_same {α : Type} (t : Pair α) (p : Pos) (x : α) : (t.put p x).at p = x := by
  cases p <;> rfl

theorem Pair.at_put_other {α : Type} (t : Pair α) {q p : Pos} (x : α) (h : q ≠ p) : (t.put p x).at q = t.at q := by
  cases q <;> cases p <;> first | rfl | exact absurd rfl h

@[simp] theorem State.seq_setSeq_same (s : State) (k : Stand) (q : Sequencer) : (s.setSeq k q).seq k = q := by
  simp [State.seq, State.setSeq]

theorem State.seq_setSeq_other (s : State) {j k : Stand} (q : Sequencer) (h : j ≠ k) :
    (s.setSeq k q).seq j = s.seq j := PerStand.get_set_other _ _ h

@[simp] theorem State.slot_setSlot_same (s : State) (k : Stand) (p : Pos) (x : ReelSlot) :
    (s.setSlot k p x).slot k p = x := by
  simp [State.slot, State.setSlot]

theorem State.slot_setSlot_otherPos (s : State) (k : Stand) {q p : Pos} (x : ReelSlot) (h : q ≠ p) :
    (s.setSlot k p x).slot k q = s.slot k q := by
  simp [State.slot, State.setSlot, Pair.at_put_other _ _ h]

theorem State.slot_setSlot_otherStand (s : State) {j k : Stand} (q p : Pos) (x : ReelSlot) (h : j ≠ k) :
    (s.setSlot k p x).slot j q = s.slot j q := by
  simp [State.slot, State.setSlot, PerStand.get_set_other _ _ h]

@[simp] theorem State.station_setStation_same (s : State) (st : Station) (x : SlitterStation) :
    (s.setStation st x).station st = x := by
  simp [State.station, State.setStation]

theorem State.station_setStation_other (s : State) {u st : Station} (x : SlitterStation) (h : u ≠ st) :
    (s.setStation st x).station u = s.station u := Pair.get_set_other _ _ h

@[simp] theorem Link.queue_setQueue_same (l : Link) (c : LinkClass) (q : List Command) :
    (l.setQueue c q).queue c = q := by
  cases c <;> rfl

theorem Link.queue_setQueue_other (l : Link) {d c : LinkClass} (q : List Command) (h : d ≠ c) :
    (l.setQueue c q).queue d = l.queue d := by
  cases d <;> cases c <;> first | rfl | exact absurd rfl h

@[simp] theorem Link.place_setQueue (l : Link) (c : LinkClass) (q : List Command) :
    (l.setQueue c q).place = l.place := by
  cases c <;> rfl


/-! ### State.bumpSerial -/

@[simp] theorem State.bumpSerial_odometer (s : State) : (s.bumpSerial).odometer = s.odometer := rfl
@[simp] theorem State.bumpSerial_reverseRun (s : State) : (s.bumpSerial).reverseRun = s.reverseRun := rfl
@[simp] theorem State.bumpSerial_delta (s : State) : (s.bumpSerial).delta = s.delta := rfl
@[simp] theorem State.bumpSerial_windowMs (s : State) : (s.bumpSerial).windowMs = s.windowMs := rfl
@[simp] theorem State.bumpSerial_speed (s : State) : (s.bumpSerial).speed = s.speed := rfl
@[simp] theorem State.bumpSerial_zeroWindows (s : State) : (s.bumpSerial).zeroWindows = s.zeroWindows := rfl
@[simp] theorem State.bumpSerial_stopped (s : State) : (s.bumpSerial).stopped = s.stopped := rfl
@[simp] theorem State.bumpSerial_marks (s : State) : (s.bumpSerial).marks = s.marks := rfl
@[simp] theorem State.bumpSerial_orders (s : State) : (s.bumpSerial).orders = s.orders := rfl
@[simp] theorem State.bumpSerial_runSeq (s : State) : (s.bumpSerial).runSeq = s.runSeq := rfl
@[simp] theorem State.bumpSerial_suspended (s : State) : (s.bumpSerial).suspended = s.suspended := rfl
@[simp] theorem State.bumpSerial_grades (s : State) : (s.bumpSerial).grades = s.grades := rfl
@[simp] theorem State.bumpSerial_planner (s : State) : (s.bumpSerial).planner = s.planner := rfl
@[simp] theorem State.bumpSerial_reels (s : State) : (s.bumpSerial).reels = s.reels := rfl
@[simp] theorem State.bumpSerial_seqs (s : State) : (s.bumpSerial).seqs = s.seqs := rfl
@[simp] theorem State.bumpSerial_capFlag (s : State) : (s.bumpSerial).capFlag = s.capFlag := rfl
@[simp] theorem State.bumpSerial_stations (s : State) : (s.bumpSerial).stations = s.stations := rfl
@[simp] theorem State.bumpSerial_decisions (s : State) : (s.bumpSerial).decisions = s.decisions := rfl
@[simp] theorem State.bumpSerial_knife (s : State) : (s.bumpSerial).knife = s.knife := rfl
@[simp] theorem State.bumpSerial_preheaters (s : State) : (s.bumpSerial).preheaters = s.preheaters := rfl
@[simp] theorem State.bumpSerial_glue (s : State) : (s.bumpSerial).glue = s.glue := rfl
@[simp] theorem State.bumpSerial_link (s : State) : (s.bumpSerial).link = s.link := rfl
@[simp] theorem State.bumpSerial_errors (s : State) : (s.bumpSerial).errors = s.errors := rfl
@[simp] theorem State.bumpSerial_receiver (s : State) : (s.bumpSerial).receiver = s.receiver := rfl
@[simp] theorem State.bumpSerial_inputs (s : State) : (s.bumpSerial).inputs = s.inputs := rfl
@[simp] theorem State.bumpSerial_config (s : State) : (s.bumpSerial).config = s.config := rfl
@[simp] theorem State.bumpSerial_port (s : State) : (s.bumpSerial).port = s.port := rfl
@[simp] theorem State.bumpSerial_serial (s : State) : (s.bumpSerial).serial = s.serial + 1 := rfl
@[simp] theorem State.bumpSerial_draws (s : State) : (s.bumpSerial).draws = s.draws := rfl
@[simp] theorem State.bumpSerial_pending (s : State) : (s.bumpSerial).pending = s.pending := rfl

/-! ### State.drawn -/

@[simp] theorem State.drawn_odometer (s : State) : (s.drawn).odometer = s.odometer := rfl
@[simp] theorem State.drawn_reverseRun (s : State) : (s.drawn).reverseRun = s.reverseRun := rfl
@[simp] theorem State.drawn_delta (s : State) : (s.drawn).delta = s.delta := rfl
@[simp] theorem State.drawn_windowMs (s : State) : (s.drawn).windowMs = s.windowMs := rfl
@[simp] theorem State.drawn_speed (s : State) : (s.drawn).speed = s.speed := rfl
@[simp] theorem State.drawn_zeroWindows (s : State) : (s.drawn).zeroWindows = s.zeroWindows := rfl
@[simp] theorem State.drawn_stopped (s : State) : (s.drawn).stopped = s.stopped := rfl
@[simp] theorem State.drawn_marks (s : State) : (s.drawn).marks = s.marks := rfl
@[simp] theorem State.drawn_orders (s : State) : (s.drawn).orders = s.orders := rfl
@[simp] theorem State.drawn_runSeq (s : State) : (s.drawn).runSeq = s.runSeq := rfl
@[simp] theorem State.drawn_suspended (s : State) : (s.drawn).suspended = s.suspended := rfl
@[simp] theorem State.drawn_grades (s : State) : (s.drawn).grades = s.grades := rfl
@[simp] theorem State.drawn_planner (s : State) : (s.drawn).planner = s.planner := rfl
@[simp] theorem State.drawn_reels (s : State) : (s.drawn).reels = s.reels := rfl
@[simp] theorem State.drawn_seqs (s : State) : (s.drawn).seqs = s.seqs := rfl
@[simp] theorem State.drawn_capFlag (s : State) : (s.drawn).capFlag = s.capFlag := rfl
@[simp] theorem State.drawn_stations (s : State) : (s.drawn).stations = s.stations := rfl
@[simp] theorem State.drawn_decisions (s : State) : (s.drawn).decisions = s.decisions := rfl
@[simp] theorem State.drawn_knife (s : State) : (s.drawn).knife = s.knife := rfl
@[simp] theorem State.drawn_preheaters (s : State) : (s.drawn).preheaters = s.preheaters := rfl
@[simp] theorem State.drawn_glue (s : State) : (s.drawn).glue = s.glue := rfl
@[simp] theorem State.drawn_link (s : State) : (s.drawn).link = s.link := rfl
@[simp] theorem State.drawn_errors (s : State) : (s.drawn).errors = s.errors := rfl
@[simp] theorem State.drawn_receiver (s : State) : (s.drawn).receiver = s.receiver := rfl
@[simp] theorem State.drawn_inputs (s : State) : (s.drawn).inputs = s.inputs := rfl
@[simp] theorem State.drawn_config (s : State) : (s.drawn).config = s.config := rfl
@[simp] theorem State.drawn_port (s : State) : (s.drawn).port = s.port := rfl
@[simp] theorem State.drawn_serial (s : State) : (s.drawn).serial = s.serial := rfl
@[simp] theorem State.drawn_draws (s : State) : (s.drawn).draws = s.draws + 1 := rfl
@[simp] theorem State.drawn_pending (s : State) : (s.drawn).pending = s.pending := rfl

/-! ### State.raise -/

@[simp] theorem State.raise_odometer (s : State) (k : ErrorKind) (o : ErrorObject) :
    (s.raise k o).odometer = s.odometer := rfl
@[simp] theorem State.raise_reverseRun (s : State) (k : ErrorKind) (o : ErrorObject) :
    (s.raise k o).reverseRun = s.reverseRun := rfl
@[simp] theorem State.raise_delta (s : State) (k : ErrorKind) (o : ErrorObject) : (s.raise k o).delta = s.delta := rfl
@[simp] theorem State.raise_windowMs (s : State) (k : ErrorKind) (o : ErrorObject) :
    (s.raise k o).windowMs = s.windowMs := rfl
@[simp] theorem State.raise_speed (s : State) (k : ErrorKind) (o : ErrorObject) : (s.raise k o).speed = s.speed := rfl
@[simp] theorem State.raise_zeroWindows (s : State) (k : ErrorKind) (o : ErrorObject) :
    (s.raise k o).zeroWindows = s.zeroWindows := rfl
@[simp] theorem State.raise_stopped (s : State) (k : ErrorKind) (o : ErrorObject) :
    (s.raise k o).stopped = s.stopped := rfl
@[simp] theorem State.raise_marks (s : State) (k : ErrorKind) (o : ErrorObject) : (s.raise k o).marks = s.marks := rfl
@[simp] theorem State.raise_orders (s : State) (k : ErrorKind) (o : ErrorObject) :
    (s.raise k o).orders = s.orders := rfl
@[simp] theorem State.raise_runSeq (s : State) (k : ErrorKind) (o : ErrorObject) :
    (s.raise k o).runSeq = s.runSeq := rfl
@[simp] theorem State.raise_suspended (s : State) (k : ErrorKind) (o : ErrorObject) :
    (s.raise k o).suspended = s.suspended := rfl
@[simp] theorem State.raise_grades (s : State) (k : ErrorKind) (o : ErrorObject) :
    (s.raise k o).grades = s.grades := rfl
@[simp] theorem State.raise_planner (s : State) (k : ErrorKind) (o : ErrorObject) :
    (s.raise k o).planner = s.planner := rfl
@[simp] theorem State.raise_reels (s : State) (k : ErrorKind) (o : ErrorObject) : (s.raise k o).reels = s.reels := rfl
@[simp] theorem State.raise_seqs (s : State) (k : ErrorKind) (o : ErrorObject) : (s.raise k o).seqs = s.seqs := rfl
@[simp] theorem State.raise_capFlag (s : State) (k : ErrorKind) (o : ErrorObject) :
    (s.raise k o).capFlag = s.capFlag := rfl
@[simp] theorem State.raise_stations (s : State) (k : ErrorKind) (o : ErrorObject) :
    (s.raise k o).stations = s.stations := rfl
@[simp] theorem State.raise_decisions (s : State) (k : ErrorKind) (o : ErrorObject) :
    (s.raise k o).decisions = s.decisions := rfl
@[simp] theorem State.raise_knife (s : State) (k : ErrorKind) (o : ErrorObject) : (s.raise k o).knife = s.knife := rfl
@[simp] theorem State.raise_preheaters (s : State) (k : ErrorKind) (o : ErrorObject) :
    (s.raise k o).preheaters = s.preheaters := rfl
@[simp] theorem State.raise_glue (s : State) (k : ErrorKind) (o : ErrorObject) : (s.raise k o).glue = s.glue := rfl
@[simp] theorem State.raise_link (s : State) (k : ErrorKind) (o : ErrorObject) : (s.raise k o).link = s.link := rfl
@[simp] theorem State.raise_errors (s : State) (k : ErrorKind) (o : ErrorObject) :
    (s.raise k o).errors = s.errors.raised k o s.odometer := rfl
@[simp] theorem State.raise_receiver (s : State) (k : ErrorKind) (o : ErrorObject) :
    (s.raise k o).receiver = s.receiver := rfl
@[simp] theorem State.raise_inputs (s : State) (k : ErrorKind) (o : ErrorObject) :
    (s.raise k o).inputs = s.inputs := rfl
@[simp] theorem State.raise_config (s : State) (k : ErrorKind) (o : ErrorObject) :
    (s.raise k o).config = s.config := rfl
@[simp] theorem State.raise_port (s : State) (k : ErrorKind) (o : ErrorObject) : (s.raise k o).port = s.port := rfl
@[simp] theorem State.raise_serial (s : State) (k : ErrorKind) (o : ErrorObject) :
    (s.raise k o).serial = s.serial := rfl
@[simp] theorem State.raise_draws (s : State) (k : ErrorKind) (o : ErrorObject) : (s.raise k o).draws = s.draws := rfl
@[simp] theorem State.raise_pending (s : State) (k : ErrorKind) (o : ErrorObject) :
    (s.raise k o).pending = s.pending := rfl

/-! ### State.setSeq -/

@[simp] theorem State.setSeq_odometer (s : State) (k : Stand) (q : Sequencer) :
    (s.setSeq k q).odometer = s.odometer := rfl
@[simp] theorem State.setSeq_reverseRun (s : State) (k : Stand) (q : Sequencer) :
    (s.setSeq k q).reverseRun = s.reverseRun := rfl
@[simp] theorem State.setSeq_delta (s : State) (k : Stand) (q : Sequencer) : (s.setSeq k q).delta = s.delta := rfl
@[simp] theorem State.setSeq_windowMs (s : State) (k : Stand) (q : Sequencer) :
    (s.setSeq k q).windowMs = s.windowMs := rfl
@[simp] theorem State.setSeq_speed (s : State) (k : Stand) (q : Sequencer) : (s.setSeq k q).speed = s.speed := rfl
@[simp] theorem State.setSeq_zeroWindows (s : State) (k : Stand) (q : Sequencer) :
    (s.setSeq k q).zeroWindows = s.zeroWindows := rfl
@[simp] theorem State.setSeq_stopped (s : State) (k : Stand) (q : Sequencer) : (s.setSeq k q).stopped = s.stopped := rfl
@[simp] theorem State.setSeq_marks (s : State) (k : Stand) (q : Sequencer) : (s.setSeq k q).marks = s.marks := rfl
@[simp] theorem State.setSeq_orders (s : State) (k : Stand) (q : Sequencer) : (s.setSeq k q).orders = s.orders := rfl
@[simp] theorem State.setSeq_runSeq (s : State) (k : Stand) (q : Sequencer) : (s.setSeq k q).runSeq = s.runSeq := rfl
@[simp] theorem State.setSeq_suspended (s : State) (k : Stand) (q : Sequencer) :
    (s.setSeq k q).suspended = s.suspended := rfl
@[simp] theorem State.setSeq_grades (s : State) (k : Stand) (q : Sequencer) : (s.setSeq k q).grades = s.grades := rfl
@[simp] theorem State.setSeq_planner (s : State) (k : Stand) (q : Sequencer) : (s.setSeq k q).planner = s.planner := rfl
@[simp] theorem State.setSeq_reels (s : State) (k : Stand) (q : Sequencer) : (s.setSeq k q).reels = s.reels := rfl
@[simp] theorem State.setSeq_seqs (s : State) (k : Stand) (q : Sequencer) : (s.setSeq k q).seqs = s.seqs.set k q := rfl
@[simp] theorem State.setSeq_capFlag (s : State) (k : Stand) (q : Sequencer) : (s.setSeq k q).capFlag = s.capFlag := rfl
@[simp] theorem State.setSeq_stations (s : State) (k : Stand) (q : Sequencer) :
    (s.setSeq k q).stations = s.stations := rfl
@[simp] theorem State.setSeq_decisions (s : State) (k : Stand) (q : Sequencer) :
    (s.setSeq k q).decisions = s.decisions := rfl
@[simp] theorem State.setSeq_knife (s : State) (k : Stand) (q : Sequencer) : (s.setSeq k q).knife = s.knife := rfl
@[simp] theorem State.setSeq_preheaters (s : State) (k : Stand) (q : Sequencer) :
    (s.setSeq k q).preheaters = s.preheaters := rfl
@[simp] theorem State.setSeq_glue (s : State) (k : Stand) (q : Sequencer) : (s.setSeq k q).glue = s.glue := rfl
@[simp] theorem State.setSeq_link (s : State) (k : Stand) (q : Sequencer) : (s.setSeq k q).link = s.link := rfl
@[simp] theorem State.setSeq_errors (s : State) (k : Stand) (q : Sequencer) : (s.setSeq k q).errors = s.errors := rfl
@[simp] theorem State.setSeq_receiver (s : State) (k : Stand) (q : Sequencer) :
    (s.setSeq k q).receiver = s.receiver := rfl
@[simp] theorem State.setSeq_inputs (s : State) (k : Stand) (q : Sequencer) : (s.setSeq k q).inputs = s.inputs := rfl
@[simp] theorem State.setSeq_config (s : State) (k : Stand) (q : Sequencer) : (s.setSeq k q).config = s.config := rfl
@[simp] theorem State.setSeq_port (s : State) (k : Stand) (q : Sequencer) : (s.setSeq k q).port = s.port := rfl
@[simp] theorem State.setSeq_serial (s : State) (k : Stand) (q : Sequencer) : (s.setSeq k q).serial = s.serial := rfl
@[simp] theorem State.setSeq_draws (s : State) (k : Stand) (q : Sequencer) : (s.setSeq k q).draws = s.draws := rfl
@[simp] theorem State.setSeq_pending (s : State) (k : Stand) (q : Sequencer) : (s.setSeq k q).pending = s.pending := rfl

/-! ### State.setPlan -/

@[simp] theorem State.setPlan_odometer (s : State) (k : Stand) (p : Option Plan) :
    (s.setPlan k p).odometer = s.odometer := rfl
@[simp] theorem State.setPlan_reverseRun (s : State) (k : Stand) (p : Option Plan) :
    (s.setPlan k p).reverseRun = s.reverseRun := rfl
@[simp] theorem State.setPlan_delta (s : State) (k : Stand) (p : Option Plan) : (s.setPlan k p).delta = s.delta := rfl
@[simp] theorem State.setPlan_windowMs (s : State) (k : Stand) (p : Option Plan) :
    (s.setPlan k p).windowMs = s.windowMs := rfl
@[simp] theorem State.setPlan_speed (s : State) (k : Stand) (p : Option Plan) : (s.setPlan k p).speed = s.speed := rfl
@[simp] theorem State.setPlan_zeroWindows (s : State) (k : Stand) (p : Option Plan) :
    (s.setPlan k p).zeroWindows = s.zeroWindows := rfl
@[simp] theorem State.setPlan_stopped (s : State) (k : Stand) (p : Option Plan) :
    (s.setPlan k p).stopped = s.stopped := rfl
@[simp] theorem State.setPlan_marks (s : State) (k : Stand) (p : Option Plan) : (s.setPlan k p).marks = s.marks := rfl
@[simp] theorem State.setPlan_orders (s : State) (k : Stand) (p : Option Plan) :
    (s.setPlan k p).orders = s.orders := rfl
@[simp] theorem State.setPlan_runSeq (s : State) (k : Stand) (p : Option Plan) :
    (s.setPlan k p).runSeq = s.runSeq := rfl
@[simp] theorem State.setPlan_suspended (s : State) (k : Stand) (p : Option Plan) :
    (s.setPlan k p).suspended = s.suspended := rfl
@[simp] theorem State.setPlan_grades (s : State) (k : Stand) (p : Option Plan) :
    (s.setPlan k p).grades = s.grades := rfl
@[simp] theorem State.setPlan_planner (s : State) (k : Stand) (p : Option Plan) :
    (s.setPlan k p).planner = s.planner := rfl
@[simp] theorem State.setPlan_reels (s : State) (k : Stand) (p : Option Plan) : (s.setPlan k p).reels = s.reels := rfl
@[simp] theorem State.setPlan_seqs (s : State) (k : Stand) (p : Option Plan) :
    (s.setPlan k p).seqs = s.seqs.set k { s.seq k with plan := p } := rfl
@[simp] theorem State.setPlan_capFlag (s : State) (k : Stand) (p : Option Plan) :
    (s.setPlan k p).capFlag = s.capFlag := rfl
@[simp] theorem State.setPlan_stations (s : State) (k : Stand) (p : Option Plan) :
    (s.setPlan k p).stations = s.stations := rfl
@[simp] theorem State.setPlan_decisions (s : State) (k : Stand) (p : Option Plan) :
    (s.setPlan k p).decisions = s.decisions := rfl
@[simp] theorem State.setPlan_knife (s : State) (k : Stand) (p : Option Plan) : (s.setPlan k p).knife = s.knife := rfl
@[simp] theorem State.setPlan_preheaters (s : State) (k : Stand) (p : Option Plan) :
    (s.setPlan k p).preheaters = s.preheaters := rfl
@[simp] theorem State.setPlan_glue (s : State) (k : Stand) (p : Option Plan) : (s.setPlan k p).glue = s.glue := rfl
@[simp] theorem State.setPlan_link (s : State) (k : Stand) (p : Option Plan) : (s.setPlan k p).link = s.link := rfl
@[simp] theorem State.setPlan_errors (s : State) (k : Stand) (p : Option Plan) :
    (s.setPlan k p).errors = s.errors := rfl
@[simp] theorem State.setPlan_receiver (s : State) (k : Stand) (p : Option Plan) :
    (s.setPlan k p).receiver = s.receiver := rfl
@[simp] theorem State.setPlan_inputs (s : State) (k : Stand) (p : Option Plan) :
    (s.setPlan k p).inputs = s.inputs := rfl
@[simp] theorem State.setPlan_config (s : State) (k : Stand) (p : Option Plan) :
    (s.setPlan k p).config = s.config := rfl
@[simp] theorem State.setPlan_port (s : State) (k : Stand) (p : Option Plan) : (s.setPlan k p).port = s.port := rfl
@[simp] theorem State.setPlan_serial (s : State) (k : Stand) (p : Option Plan) :
    (s.setPlan k p).serial = s.serial := rfl
@[simp] theorem State.setPlan_draws (s : State) (k : Stand) (p : Option Plan) : (s.setPlan k p).draws = s.draws := rfl
@[simp] theorem State.setPlan_pending (s : State) (k : Stand) (p : Option Plan) :
    (s.setPlan k p).pending = s.pending := rfl

/-! ### State.setSlot -/

@[simp] theorem State.setSlot_odometer (s : State) (k : Stand) (p : Pos) (x : ReelSlot) :
    (s.setSlot k p x).odometer = s.odometer := rfl
@[simp] theorem State.setSlot_reverseRun (s : State) (k : Stand) (p : Pos) (x : ReelSlot) :
    (s.setSlot k p x).reverseRun = s.reverseRun := rfl
@[simp] theorem State.setSlot_delta (s : State) (k : Stand) (p : Pos) (x : ReelSlot) :
    (s.setSlot k p x).delta = s.delta := rfl
@[simp] theorem State.setSlot_windowMs (s : State) (k : Stand) (p : Pos) (x : ReelSlot) :
    (s.setSlot k p x).windowMs = s.windowMs := rfl
@[simp] theorem State.setSlot_speed (s : State) (k : Stand) (p : Pos) (x : ReelSlot) :
    (s.setSlot k p x).speed = s.speed := rfl
@[simp] theorem State.setSlot_zeroWindows (s : State) (k : Stand) (p : Pos) (x : ReelSlot) :
    (s.setSlot k p x).zeroWindows = s.zeroWindows := rfl
@[simp] theorem State.setSlot_stopped (s : State) (k : Stand) (p : Pos) (x : ReelSlot) :
    (s.setSlot k p x).stopped = s.stopped := rfl
@[simp] theorem State.setSlot_marks (s : State) (k : Stand) (p : Pos) (x : ReelSlot) :
    (s.setSlot k p x).marks = s.marks := rfl
@[simp] theorem State.setSlot_orders (s : State) (k : Stand) (p : Pos) (x : ReelSlot) :
    (s.setSlot k p x).orders = s.orders := rfl
@[simp] theorem State.setSlot_runSeq (s : State) (k : Stand) (p : Pos) (x : ReelSlot) :
    (s.setSlot k p x).runSeq = s.runSeq := rfl
@[simp] theorem State.setSlot_suspended (s : State) (k : Stand) (p : Pos) (x : ReelSlot) :
    (s.setSlot k p x).suspended = s.suspended := rfl
@[simp] theorem State.setSlot_grades (s : State) (k : Stand) (p : Pos) (x : ReelSlot) :
    (s.setSlot k p x).grades = s.grades := rfl
@[simp] theorem State.setSlot_planner (s : State) (k : Stand) (p : Pos) (x : ReelSlot) :
    (s.setSlot k p x).planner = s.planner := rfl
@[simp] theorem State.setSlot_reels (s : State) (k : Stand) (p : Pos) (x : ReelSlot) :
    (s.setSlot k p x).reels = s.reels.set k ((s.reels.get k).put p x) := rfl
@[simp] theorem State.setSlot_seqs (s : State) (k : Stand) (p : Pos) (x : ReelSlot) :
    (s.setSlot k p x).seqs = s.seqs := rfl
@[simp] theorem State.setSlot_capFlag (s : State) (k : Stand) (p : Pos) (x : ReelSlot) :
    (s.setSlot k p x).capFlag = s.capFlag := rfl
@[simp] theorem State.setSlot_stations (s : State) (k : Stand) (p : Pos) (x : ReelSlot) :
    (s.setSlot k p x).stations = s.stations := rfl
@[simp] theorem State.setSlot_decisions (s : State) (k : Stand) (p : Pos) (x : ReelSlot) :
    (s.setSlot k p x).decisions = s.decisions := rfl
@[simp] theorem State.setSlot_knife (s : State) (k : Stand) (p : Pos) (x : ReelSlot) :
    (s.setSlot k p x).knife = s.knife := rfl
@[simp] theorem State.setSlot_preheaters (s : State) (k : Stand) (p : Pos) (x : ReelSlot) :
    (s.setSlot k p x).preheaters = s.preheaters := rfl
@[simp] theorem State.setSlot_glue (s : State) (k : Stand) (p : Pos) (x : ReelSlot) :
    (s.setSlot k p x).glue = s.glue := rfl
@[simp] theorem State.setSlot_link (s : State) (k : Stand) (p : Pos) (x : ReelSlot) :
    (s.setSlot k p x).link = s.link := rfl
@[simp] theorem State.setSlot_errors (s : State) (k : Stand) (p : Pos) (x : ReelSlot) :
    (s.setSlot k p x).errors = s.errors := rfl
@[simp] theorem State.setSlot_receiver (s : State) (k : Stand) (p : Pos) (x : ReelSlot) :
    (s.setSlot k p x).receiver = s.receiver := rfl
@[simp] theorem State.setSlot_inputs (s : State) (k : Stand) (p : Pos) (x : ReelSlot) :
    (s.setSlot k p x).inputs = s.inputs := rfl
@[simp] theorem State.setSlot_config (s : State) (k : Stand) (p : Pos) (x : ReelSlot) :
    (s.setSlot k p x).config = s.config := rfl
@[simp] theorem State.setSlot_port (s : State) (k : Stand) (p : Pos) (x : ReelSlot) :
    (s.setSlot k p x).port = s.port := rfl
@[simp] theorem State.setSlot_serial (s : State) (k : Stand) (p : Pos) (x : ReelSlot) :
    (s.setSlot k p x).serial = s.serial := rfl
@[simp] theorem State.setSlot_draws (s : State) (k : Stand) (p : Pos) (x : ReelSlot) :
    (s.setSlot k p x).draws = s.draws := rfl
@[simp] theorem State.setSlot_pending (s : State) (k : Stand) (p : Pos) (x : ReelSlot) :
    (s.setSlot k p x).pending = s.pending := rfl

/-! ### State.setStation -/

@[simp] theorem State.setStation_odometer (s : State) (st : Station) (x : SlitterStation) :
    (s.setStation st x).odometer = s.odometer := rfl
@[simp] theorem State.setStation_reverseRun (s : State) (st : Station) (x : SlitterStation) :
    (s.setStation st x).reverseRun = s.reverseRun := rfl
@[simp] theorem State.setStation_delta (s : State) (st : Station) (x : SlitterStation) :
    (s.setStation st x).delta = s.delta := rfl
@[simp] theorem State.setStation_windowMs (s : State) (st : Station) (x : SlitterStation) :
    (s.setStation st x).windowMs = s.windowMs := rfl
@[simp] theorem State.setStation_speed (s : State) (st : Station) (x : SlitterStation) :
    (s.setStation st x).speed = s.speed := rfl
@[simp] theorem State.setStation_zeroWindows (s : State) (st : Station) (x : SlitterStation) :
    (s.setStation st x).zeroWindows = s.zeroWindows := rfl
@[simp] theorem State.setStation_stopped (s : State) (st : Station) (x : SlitterStation) :
    (s.setStation st x).stopped = s.stopped := rfl
@[simp] theorem State.setStation_marks (s : State) (st : Station) (x : SlitterStation) :
    (s.setStation st x).marks = s.marks := rfl
@[simp] theorem State.setStation_orders (s : State) (st : Station) (x : SlitterStation) :
    (s.setStation st x).orders = s.orders := rfl
@[simp] theorem State.setStation_runSeq (s : State) (st : Station) (x : SlitterStation) :
    (s.setStation st x).runSeq = s.runSeq := rfl
@[simp] theorem State.setStation_suspended (s : State) (st : Station) (x : SlitterStation) :
    (s.setStation st x).suspended = s.suspended := rfl
@[simp] theorem State.setStation_grades (s : State) (st : Station) (x : SlitterStation) :
    (s.setStation st x).grades = s.grades := rfl
@[simp] theorem State.setStation_planner (s : State) (st : Station) (x : SlitterStation) :
    (s.setStation st x).planner = s.planner := rfl
@[simp] theorem State.setStation_reels (s : State) (st : Station) (x : SlitterStation) :
    (s.setStation st x).reels = s.reels := rfl
@[simp] theorem State.setStation_seqs (s : State) (st : Station) (x : SlitterStation) :
    (s.setStation st x).seqs = s.seqs := rfl
@[simp] theorem State.setStation_capFlag (s : State) (st : Station) (x : SlitterStation) :
    (s.setStation st x).capFlag = s.capFlag := rfl
@[simp] theorem State.setStation_stations (s : State) (st : Station) (x : SlitterStation) :
    (s.setStation st x).stations = s.stations.set st x := rfl
@[simp] theorem State.setStation_decisions (s : State) (st : Station) (x : SlitterStation) :
    (s.setStation st x).decisions = s.decisions := rfl
@[simp] theorem State.setStation_knife (s : State) (st : Station) (x : SlitterStation) :
    (s.setStation st x).knife = s.knife := rfl
@[simp] theorem State.setStation_preheaters (s : State) (st : Station) (x : SlitterStation) :
    (s.setStation st x).preheaters = s.preheaters := rfl
@[simp] theorem State.setStation_glue (s : State) (st : Station) (x : SlitterStation) :
    (s.setStation st x).glue = s.glue := rfl
@[simp] theorem State.setStation_link (s : State) (st : Station) (x : SlitterStation) :
    (s.setStation st x).link = s.link := rfl
@[simp] theorem State.setStation_errors (s : State) (st : Station) (x : SlitterStation) :
    (s.setStation st x).errors = s.errors := rfl
@[simp] theorem State.setStation_receiver (s : State) (st : Station) (x : SlitterStation) :
    (s.setStation st x).receiver = s.receiver := rfl
@[simp] theorem State.setStation_inputs (s : State) (st : Station) (x : SlitterStation) :
    (s.setStation st x).inputs = s.inputs := rfl
@[simp] theorem State.setStation_config (s : State) (st : Station) (x : SlitterStation) :
    (s.setStation st x).config = s.config := rfl
@[simp] theorem State.setStation_port (s : State) (st : Station) (x : SlitterStation) :
    (s.setStation st x).port = s.port := rfl
@[simp] theorem State.setStation_serial (s : State) (st : Station) (x : SlitterStation) :
    (s.setStation st x).serial = s.serial := rfl
@[simp] theorem State.setStation_draws (s : State) (st : Station) (x : SlitterStation) :
    (s.setStation st x).draws = s.draws := rfl
@[simp] theorem State.setStation_pending (s : State) (st : Station) (x : SlitterStation) :
    (s.setStation st x).pending = s.pending := rfl

/-! ### State.setPreheater -/

@[simp] theorem State.setPreheater_odometer (s : State) (k : Stand) (x : Preheater) :
    (s.setPreheater k x).odometer = s.odometer := rfl
@[simp] theorem State.setPreheater_reverseRun (s : State) (k : Stand) (x : Preheater) :
    (s.setPreheater k x).reverseRun = s.reverseRun := rfl
@[simp] theorem State.setPreheater_delta (s : State) (k : Stand) (x : Preheater) :
    (s.setPreheater k x).delta = s.delta := rfl
@[simp] theorem State.setPreheater_windowMs (s : State) (k : Stand) (x : Preheater) :
    (s.setPreheater k x).windowMs = s.windowMs := rfl
@[simp] theorem State.setPreheater_speed (s : State) (k : Stand) (x : Preheater) :
    (s.setPreheater k x).speed = s.speed := rfl
@[simp] theorem State.setPreheater_zeroWindows (s : State) (k : Stand) (x : Preheater) :
    (s.setPreheater k x).zeroWindows = s.zeroWindows := rfl
@[simp] theorem State.setPreheater_stopped (s : State) (k : Stand) (x : Preheater) :
    (s.setPreheater k x).stopped = s.stopped := rfl
@[simp] theorem State.setPreheater_marks (s : State) (k : Stand) (x : Preheater) :
    (s.setPreheater k x).marks = s.marks := rfl
@[simp] theorem State.setPreheater_orders (s : State) (k : Stand) (x : Preheater) :
    (s.setPreheater k x).orders = s.orders := rfl
@[simp] theorem State.setPreheater_runSeq (s : State) (k : Stand) (x : Preheater) :
    (s.setPreheater k x).runSeq = s.runSeq := rfl
@[simp] theorem State.setPreheater_suspended (s : State) (k : Stand) (x : Preheater) :
    (s.setPreheater k x).suspended = s.suspended := rfl
@[simp] theorem State.setPreheater_grades (s : State) (k : Stand) (x : Preheater) :
    (s.setPreheater k x).grades = s.grades := rfl
@[simp] theorem State.setPreheater_planner (s : State) (k : Stand) (x : Preheater) :
    (s.setPreheater k x).planner = s.planner := rfl
@[simp] theorem State.setPreheater_reels (s : State) (k : Stand) (x : Preheater) :
    (s.setPreheater k x).reels = s.reels := rfl
@[simp] theorem State.setPreheater_seqs (s : State) (k : Stand) (x : Preheater) :
    (s.setPreheater k x).seqs = s.seqs := rfl
@[simp] theorem State.setPreheater_capFlag (s : State) (k : Stand) (x : Preheater) :
    (s.setPreheater k x).capFlag = s.capFlag := rfl
@[simp] theorem State.setPreheater_stations (s : State) (k : Stand) (x : Preheater) :
    (s.setPreheater k x).stations = s.stations := rfl
@[simp] theorem State.setPreheater_decisions (s : State) (k : Stand) (x : Preheater) :
    (s.setPreheater k x).decisions = s.decisions := rfl
@[simp] theorem State.setPreheater_knife (s : State) (k : Stand) (x : Preheater) :
    (s.setPreheater k x).knife = s.knife := rfl
@[simp] theorem State.setPreheater_preheaters (s : State) (k : Stand) (x : Preheater) :
    (s.setPreheater k x).preheaters = s.preheaters.set k x := rfl
@[simp] theorem State.setPreheater_glue (s : State) (k : Stand) (x : Preheater) :
    (s.setPreheater k x).glue = s.glue := rfl
@[simp] theorem State.setPreheater_link (s : State) (k : Stand) (x : Preheater) :
    (s.setPreheater k x).link = s.link := rfl
@[simp] theorem State.setPreheater_errors (s : State) (k : Stand) (x : Preheater) :
    (s.setPreheater k x).errors = s.errors := rfl
@[simp] theorem State.setPreheater_receiver (s : State) (k : Stand) (x : Preheater) :
    (s.setPreheater k x).receiver = s.receiver := rfl
@[simp] theorem State.setPreheater_inputs (s : State) (k : Stand) (x : Preheater) :
    (s.setPreheater k x).inputs = s.inputs := rfl
@[simp] theorem State.setPreheater_config (s : State) (k : Stand) (x : Preheater) :
    (s.setPreheater k x).config = s.config := rfl
@[simp] theorem State.setPreheater_port (s : State) (k : Stand) (x : Preheater) :
    (s.setPreheater k x).port = s.port := rfl
@[simp] theorem State.setPreheater_serial (s : State) (k : Stand) (x : Preheater) :
    (s.setPreheater k x).serial = s.serial := rfl
@[simp] theorem State.setPreheater_draws (s : State) (k : Stand) (x : Preheater) :
    (s.setPreheater k x).draws = s.draws := rfl
@[simp] theorem State.setPreheater_pending (s : State) (k : Stand) (x : Preheater) :
    (s.setPreheater k x).pending = s.pending := rfl

/-! ### State.setGlue -/

@[simp] theorem State.setGlue_odometer (s : State) (g : GlueUnit) (x : GlueChannel) :
    (s.setGlue g x).odometer = s.odometer := rfl
@[simp] theorem State.setGlue_reverseRun (s : State) (g : GlueUnit) (x : GlueChannel) :
    (s.setGlue g x).reverseRun = s.reverseRun := rfl
@[simp] theorem State.setGlue_delta (s : State) (g : GlueUnit) (x : GlueChannel) :
    (s.setGlue g x).delta = s.delta := rfl
@[simp] theorem State.setGlue_windowMs (s : State) (g : GlueUnit) (x : GlueChannel) :
    (s.setGlue g x).windowMs = s.windowMs := rfl
@[simp] theorem State.setGlue_speed (s : State) (g : GlueUnit) (x : GlueChannel) :
    (s.setGlue g x).speed = s.speed := rfl
@[simp] theorem State.setGlue_zeroWindows (s : State) (g : GlueUnit) (x : GlueChannel) :
    (s.setGlue g x).zeroWindows = s.zeroWindows := rfl
@[simp] theorem State.setGlue_stopped (s : State) (g : GlueUnit) (x : GlueChannel) :
    (s.setGlue g x).stopped = s.stopped := rfl
@[simp] theorem State.setGlue_marks (s : State) (g : GlueUnit) (x : GlueChannel) :
    (s.setGlue g x).marks = s.marks := rfl
@[simp] theorem State.setGlue_orders (s : State) (g : GlueUnit) (x : GlueChannel) :
    (s.setGlue g x).orders = s.orders := rfl
@[simp] theorem State.setGlue_runSeq (s : State) (g : GlueUnit) (x : GlueChannel) :
    (s.setGlue g x).runSeq = s.runSeq := rfl
@[simp] theorem State.setGlue_suspended (s : State) (g : GlueUnit) (x : GlueChannel) :
    (s.setGlue g x).suspended = s.suspended := rfl
@[simp] theorem State.setGlue_grades (s : State) (g : GlueUnit) (x : GlueChannel) :
    (s.setGlue g x).grades = s.grades := rfl
@[simp] theorem State.setGlue_planner (s : State) (g : GlueUnit) (x : GlueChannel) :
    (s.setGlue g x).planner = s.planner := rfl
@[simp] theorem State.setGlue_reels (s : State) (g : GlueUnit) (x : GlueChannel) :
    (s.setGlue g x).reels = s.reels := rfl
@[simp] theorem State.setGlue_seqs (s : State) (g : GlueUnit) (x : GlueChannel) : (s.setGlue g x).seqs = s.seqs := rfl
@[simp] theorem State.setGlue_capFlag (s : State) (g : GlueUnit) (x : GlueChannel) :
    (s.setGlue g x).capFlag = s.capFlag := rfl
@[simp] theorem State.setGlue_stations (s : State) (g : GlueUnit) (x : GlueChannel) :
    (s.setGlue g x).stations = s.stations := rfl
@[simp] theorem State.setGlue_decisions (s : State) (g : GlueUnit) (x : GlueChannel) :
    (s.setGlue g x).decisions = s.decisions := rfl
@[simp] theorem State.setGlue_knife (s : State) (g : GlueUnit) (x : GlueChannel) :
    (s.setGlue g x).knife = s.knife := rfl
@[simp] theorem State.setGlue_preheaters (s : State) (g : GlueUnit) (x : GlueChannel) :
    (s.setGlue g x).preheaters = s.preheaters := rfl
@[simp] theorem State.setGlue_glue (s : State) (g : GlueUnit) (x : GlueChannel) :
    (s.setGlue g x).glue = s.glue.set g x := rfl
@[simp] theorem State.setGlue_link (s : State) (g : GlueUnit) (x : GlueChannel) : (s.setGlue g x).link = s.link := rfl
@[simp] theorem State.setGlue_errors (s : State) (g : GlueUnit) (x : GlueChannel) :
    (s.setGlue g x).errors = s.errors := rfl
@[simp] theorem State.setGlue_receiver (s : State) (g : GlueUnit) (x : GlueChannel) :
    (s.setGlue g x).receiver = s.receiver := rfl
@[simp] theorem State.setGlue_inputs (s : State) (g : GlueUnit) (x : GlueChannel) :
    (s.setGlue g x).inputs = s.inputs := rfl
@[simp] theorem State.setGlue_config (s : State) (g : GlueUnit) (x : GlueChannel) :
    (s.setGlue g x).config = s.config := rfl
@[simp] theorem State.setGlue_port (s : State) (g : GlueUnit) (x : GlueChannel) : (s.setGlue g x).port = s.port := rfl
@[simp] theorem State.setGlue_serial (s : State) (g : GlueUnit) (x : GlueChannel) :
    (s.setGlue g x).serial = s.serial := rfl
@[simp] theorem State.setGlue_draws (s : State) (g : GlueUnit) (x : GlueChannel) :
    (s.setGlue g x).draws = s.draws := rfl
@[simp] theorem State.setGlue_pending (s : State) (g : GlueUnit) (x : GlueChannel) :
    (s.setGlue g x).pending = s.pending := rfl

/-! ### State.setKnife -/

@[simp] theorem State.setKnife_odometer (s : State) (f : Knife → Knife) : (s.setKnife f).odometer = s.odometer := rfl
@[simp] theorem State.setKnife_reverseRun (s : State) (f : Knife → Knife) :
    (s.setKnife f).reverseRun = s.reverseRun := rfl
@[simp] theorem State.setKnife_delta (s : State) (f : Knife → Knife) : (s.setKnife f).delta = s.delta := rfl
@[simp] theorem State.setKnife_windowMs (s : State) (f : Knife → Knife) : (s.setKnife f).windowMs = s.windowMs := rfl
@[simp] theorem State.setKnife_speed (s : State) (f : Knife → Knife) : (s.setKnife f).speed = s.speed := rfl
@[simp] theorem State.setKnife_zeroWindows (s : State) (f : Knife → Knife) :
    (s.setKnife f).zeroWindows = s.zeroWindows := rfl
@[simp] theorem State.setKnife_stopped (s : State) (f : Knife → Knife) : (s.setKnife f).stopped = s.stopped := rfl
@[simp] theorem State.setKnife_marks (s : State) (f : Knife → Knife) : (s.setKnife f).marks = s.marks := rfl
@[simp] theorem State.setKnife_orders (s : State) (f : Knife → Knife) : (s.setKnife f).orders = s.orders := rfl
@[simp] theorem State.setKnife_runSeq (s : State) (f : Knife → Knife) : (s.setKnife f).runSeq = s.runSeq := rfl
@[simp] theorem State.setKnife_suspended (s : State) (f : Knife → Knife) : (s.setKnife f).suspended = s.suspended := rfl
@[simp] theorem State.setKnife_grades (s : State) (f : Knife → Knife) : (s.setKnife f).grades = s.grades := rfl
@[simp] theorem State.setKnife_planner (s : State) (f : Knife → Knife) : (s.setKnife f).planner = s.planner := rfl
@[simp] theorem State.setKnife_reels (s : State) (f : Knife → Knife) : (s.setKnife f).reels = s.reels := rfl
@[simp] theorem State.setKnife_seqs (s : State) (f : Knife → Knife) : (s.setKnife f).seqs = s.seqs := rfl
@[simp] theorem State.setKnife_capFlag (s : State) (f : Knife → Knife) : (s.setKnife f).capFlag = s.capFlag := rfl
@[simp] theorem State.setKnife_stations (s : State) (f : Knife → Knife) : (s.setKnife f).stations = s.stations := rfl
@[simp] theorem State.setKnife_decisions (s : State) (f : Knife → Knife) : (s.setKnife f).decisions = s.decisions := rfl
@[simp] theorem State.setKnife_knife (s : State) (f : Knife → Knife) : (s.setKnife f).knife = f s.knife := rfl
@[simp] theorem State.setKnife_preheaters (s : State) (f : Knife → Knife) :
    (s.setKnife f).preheaters = s.preheaters := rfl
@[simp] theorem State.setKnife_glue (s : State) (f : Knife → Knife) : (s.setKnife f).glue = s.glue := rfl
@[simp] theorem State.setKnife_link (s : State) (f : Knife → Knife) : (s.setKnife f).link = s.link := rfl
@[simp] theorem State.setKnife_errors (s : State) (f : Knife → Knife) : (s.setKnife f).errors = s.errors := rfl
@[simp] theorem State.setKnife_receiver (s : State) (f : Knife → Knife) : (s.setKnife f).receiver = s.receiver := rfl
@[simp] theorem State.setKnife_inputs (s : State) (f : Knife → Knife) : (s.setKnife f).inputs = s.inputs := rfl
@[simp] theorem State.setKnife_config (s : State) (f : Knife → Knife) : (s.setKnife f).config = s.config := rfl
@[simp] theorem State.setKnife_port (s : State) (f : Knife → Knife) : (s.setKnife f).port = s.port := rfl
@[simp] theorem State.setKnife_serial (s : State) (f : Knife → Knife) : (s.setKnife f).serial = s.serial := rfl
@[simp] theorem State.setKnife_draws (s : State) (f : Knife → Knife) : (s.setKnife f).draws = s.draws := rfl
@[simp] theorem State.setKnife_pending (s : State) (f : Knife → Knife) : (s.setKnife f).pending = s.pending := rfl

/-! ### State.setPostponed -/

@[simp] theorem State.setPostponed_odometer (s : State) (p : Option Postponed) :
    (s.setPostponed p).odometer = s.odometer := rfl
@[simp] theorem State.setPostponed_reverseRun (s : State) (p : Option Postponed) :
    (s.setPostponed p).reverseRun = s.reverseRun := rfl
@[simp] theorem State.setPostponed_delta (s : State) (p : Option Postponed) : (s.setPostponed p).delta = s.delta := rfl
@[simp] theorem State.setPostponed_windowMs (s : State) (p : Option Postponed) :
    (s.setPostponed p).windowMs = s.windowMs := rfl
@[simp] theorem State.setPostponed_speed (s : State) (p : Option Postponed) : (s.setPostponed p).speed = s.speed := rfl
@[simp] theorem State.setPostponed_zeroWindows (s : State) (p : Option Postponed) :
    (s.setPostponed p).zeroWindows = s.zeroWindows := rfl
@[simp] theorem State.setPostponed_stopped (s : State) (p : Option Postponed) :
    (s.setPostponed p).stopped = s.stopped := rfl
@[simp] theorem State.setPostponed_marks (s : State) (p : Option Postponed) : (s.setPostponed p).marks = s.marks := rfl
@[simp] theorem State.setPostponed_orders (s : State) (p : Option Postponed) :
    (s.setPostponed p).orders = s.orders := rfl
@[simp] theorem State.setPostponed_runSeq (s : State) (p : Option Postponed) :
    (s.setPostponed p).runSeq = s.runSeq := rfl
@[simp] theorem State.setPostponed_suspended (s : State) (p : Option Postponed) :
    (s.setPostponed p).suspended = s.suspended := rfl
@[simp] theorem State.setPostponed_grades (s : State) (p : Option Postponed) :
    (s.setPostponed p).grades = s.grades := rfl
@[simp] theorem State.setPostponed_planner (s : State) (p : Option Postponed) :
    (s.setPostponed p).planner = s.planner := rfl
@[simp] theorem State.setPostponed_reels (s : State) (p : Option Postponed) : (s.setPostponed p).reels = s.reels := rfl
@[simp] theorem State.setPostponed_seqs (s : State) (p : Option Postponed) : (s.setPostponed p).seqs = s.seqs := rfl
@[simp] theorem State.setPostponed_capFlag (s : State) (p : Option Postponed) :
    (s.setPostponed p).capFlag = s.capFlag := rfl
@[simp] theorem State.setPostponed_stations (s : State) (p : Option Postponed) :
    (s.setPostponed p).stations = s.stations := rfl
@[simp] theorem State.setPostponed_decisions (s : State) (p : Option Postponed) :
    (s.setPostponed p).decisions = s.decisions := rfl
@[simp] theorem State.setPostponed_knife (s : State) (p : Option Postponed) :
    (s.setPostponed p).knife = { s.knife with postponed := p } := rfl
@[simp] theorem State.setPostponed_preheaters (s : State) (p : Option Postponed) :
    (s.setPostponed p).preheaters = s.preheaters := rfl
@[simp] theorem State.setPostponed_glue (s : State) (p : Option Postponed) : (s.setPostponed p).glue = s.glue := rfl
@[simp] theorem State.setPostponed_link (s : State) (p : Option Postponed) : (s.setPostponed p).link = s.link := rfl
@[simp] theorem State.setPostponed_errors (s : State) (p : Option Postponed) :
    (s.setPostponed p).errors = s.errors := rfl
@[simp] theorem State.setPostponed_receiver (s : State) (p : Option Postponed) :
    (s.setPostponed p).receiver = s.receiver := rfl
@[simp] theorem State.setPostponed_inputs (s : State) (p : Option Postponed) :
    (s.setPostponed p).inputs = s.inputs := rfl
@[simp] theorem State.setPostponed_config (s : State) (p : Option Postponed) :
    (s.setPostponed p).config = s.config := rfl
@[simp] theorem State.setPostponed_port (s : State) (p : Option Postponed) : (s.setPostponed p).port = s.port := rfl
@[simp] theorem State.setPostponed_serial (s : State) (p : Option Postponed) :
    (s.setPostponed p).serial = s.serial := rfl
@[simp] theorem State.setPostponed_draws (s : State) (p : Option Postponed) : (s.setPostponed p).draws = s.draws := rfl
@[simp] theorem State.setPostponed_pending (s : State) (p : Option Postponed) :
    (s.setPostponed p).pending = s.pending := rfl

/-! ### State.setQueue -/

@[simp] theorem State.setQueue_odometer (s : State) (c : LinkClass) (q : List Command) :
    (s.setQueue c q).odometer = s.odometer := rfl
@[simp] theorem State.setQueue_reverseRun (s : State) (c : LinkClass) (q : List Command) :
    (s.setQueue c q).reverseRun = s.reverseRun := rfl
@[simp] theorem State.setQueue_delta (s : State) (c : LinkClass) (q : List Command) :
    (s.setQueue c q).delta = s.delta := rfl
@[simp] theorem State.setQueue_windowMs (s : State) (c : LinkClass) (q : List Command) :
    (s.setQueue c q).windowMs = s.windowMs := rfl
@[simp] theorem State.setQueue_speed (s : State) (c : LinkClass) (q : List Command) :
    (s.setQueue c q).speed = s.speed := rfl
@[simp] theorem State.setQueue_zeroWindows (s : State) (c : LinkClass) (q : List Command) :
    (s.setQueue c q).zeroWindows = s.zeroWindows := rfl
@[simp] theorem State.setQueue_stopped (s : State) (c : LinkClass) (q : List Command) :
    (s.setQueue c q).stopped = s.stopped := rfl
@[simp] theorem State.setQueue_marks (s : State) (c : LinkClass) (q : List Command) :
    (s.setQueue c q).marks = s.marks := rfl
@[simp] theorem State.setQueue_orders (s : State) (c : LinkClass) (q : List Command) :
    (s.setQueue c q).orders = s.orders := rfl
@[simp] theorem State.setQueue_runSeq (s : State) (c : LinkClass) (q : List Command) :
    (s.setQueue c q).runSeq = s.runSeq := rfl
@[simp] theorem State.setQueue_suspended (s : State) (c : LinkClass) (q : List Command) :
    (s.setQueue c q).suspended = s.suspended := rfl
@[simp] theorem State.setQueue_grades (s : State) (c : LinkClass) (q : List Command) :
    (s.setQueue c q).grades = s.grades := rfl
@[simp] theorem State.setQueue_planner (s : State) (c : LinkClass) (q : List Command) :
    (s.setQueue c q).planner = s.planner := rfl
@[simp] theorem State.setQueue_reels (s : State) (c : LinkClass) (q : List Command) :
    (s.setQueue c q).reels = s.reels := rfl
@[simp] theorem State.setQueue_seqs (s : State) (c : LinkClass) (q : List Command) :
    (s.setQueue c q).seqs = s.seqs := rfl
@[simp] theorem State.setQueue_capFlag (s : State) (c : LinkClass) (q : List Command) :
    (s.setQueue c q).capFlag = s.capFlag := rfl
@[simp] theorem State.setQueue_stations (s : State) (c : LinkClass) (q : List Command) :
    (s.setQueue c q).stations = s.stations := rfl
@[simp] theorem State.setQueue_decisions (s : State) (c : LinkClass) (q : List Command) :
    (s.setQueue c q).decisions = s.decisions := rfl
@[simp] theorem State.setQueue_knife (s : State) (c : LinkClass) (q : List Command) :
    (s.setQueue c q).knife = s.knife := rfl
@[simp] theorem State.setQueue_preheaters (s : State) (c : LinkClass) (q : List Command) :
    (s.setQueue c q).preheaters = s.preheaters := rfl
@[simp] theorem State.setQueue_glue (s : State) (c : LinkClass) (q : List Command) :
    (s.setQueue c q).glue = s.glue := rfl
@[simp] theorem State.setQueue_link (s : State) (c : LinkClass) (q : List Command) :
    (s.setQueue c q).link = s.link.setQueue c q := rfl
@[simp] theorem State.setQueue_errors (s : State) (c : LinkClass) (q : List Command) :
    (s.setQueue c q).errors = s.errors := rfl
@[simp] theorem State.setQueue_receiver (s : State) (c : LinkClass) (q : List Command) :
    (s.setQueue c q).receiver = s.receiver := rfl
@[simp] theorem State.setQueue_inputs (s : State) (c : LinkClass) (q : List Command) :
    (s.setQueue c q).inputs = s.inputs := rfl
@[simp] theorem State.setQueue_config (s : State) (c : LinkClass) (q : List Command) :
    (s.setQueue c q).config = s.config := rfl
@[simp] theorem State.setQueue_port (s : State) (c : LinkClass) (q : List Command) :
    (s.setQueue c q).port = s.port := rfl
@[simp] theorem State.setQueue_serial (s : State) (c : LinkClass) (q : List Command) :
    (s.setQueue c q).serial = s.serial := rfl
@[simp] theorem State.setQueue_draws (s : State) (c : LinkClass) (q : List Command) :
    (s.setQueue c q).draws = s.draws := rfl
@[simp] theorem State.setQueue_pending (s : State) (c : LinkClass) (q : List Command) :
    (s.setQueue c q).pending = s.pending := rfl

/-! ### State.freePlace -/

@[simp] theorem State.freePlace_odometer (s : State) : (s.freePlace).odometer = s.odometer := rfl
@[simp] theorem State.freePlace_reverseRun (s : State) : (s.freePlace).reverseRun = s.reverseRun := rfl
@[simp] theorem State.freePlace_delta (s : State) : (s.freePlace).delta = s.delta := rfl
@[simp] theorem State.freePlace_windowMs (s : State) : (s.freePlace).windowMs = s.windowMs := rfl
@[simp] theorem State.freePlace_speed (s : State) : (s.freePlace).speed = s.speed := rfl
@[simp] theorem State.freePlace_zeroWindows (s : State) : (s.freePlace).zeroWindows = s.zeroWindows := rfl
@[simp] theorem State.freePlace_stopped (s : State) : (s.freePlace).stopped = s.stopped := rfl
@[simp] theorem State.freePlace_marks (s : State) : (s.freePlace).marks = s.marks := rfl
@[simp] theorem State.freePlace_orders (s : State) : (s.freePlace).orders = s.orders := rfl
@[simp] theorem State.freePlace_runSeq (s : State) : (s.freePlace).runSeq = s.runSeq := rfl
@[simp] theorem State.freePlace_suspended (s : State) : (s.freePlace).suspended = s.suspended := rfl
@[simp] theorem State.freePlace_grades (s : State) : (s.freePlace).grades = s.grades := rfl
@[simp] theorem State.freePlace_planner (s : State) : (s.freePlace).planner = s.planner := rfl
@[simp] theorem State.freePlace_reels (s : State) : (s.freePlace).reels = s.reels := rfl
@[simp] theorem State.freePlace_seqs (s : State) : (s.freePlace).seqs = s.seqs := rfl
@[simp] theorem State.freePlace_capFlag (s : State) : (s.freePlace).capFlag = s.capFlag := rfl
@[simp] theorem State.freePlace_stations (s : State) : (s.freePlace).stations = s.stations := rfl
@[simp] theorem State.freePlace_decisions (s : State) : (s.freePlace).decisions = s.decisions := rfl
@[simp] theorem State.freePlace_knife (s : State) : (s.freePlace).knife = s.knife := rfl
@[simp] theorem State.freePlace_preheaters (s : State) : (s.freePlace).preheaters = s.preheaters := rfl
@[simp] theorem State.freePlace_glue (s : State) : (s.freePlace).glue = s.glue := rfl
@[simp] theorem State.freePlace_link (s : State) : (s.freePlace).link = { s.link with place := none } := rfl
@[simp] theorem State.freePlace_errors (s : State) : (s.freePlace).errors = s.errors := rfl
@[simp] theorem State.freePlace_receiver (s : State) : (s.freePlace).receiver = s.receiver := rfl
@[simp] theorem State.freePlace_inputs (s : State) : (s.freePlace).inputs = s.inputs := rfl
@[simp] theorem State.freePlace_config (s : State) : (s.freePlace).config = s.config := rfl
@[simp] theorem State.freePlace_port (s : State) : (s.freePlace).port = s.port := rfl
@[simp] theorem State.freePlace_serial (s : State) : (s.freePlace).serial = s.serial := rfl
@[simp] theorem State.freePlace_draws (s : State) : (s.freePlace).draws = s.draws := rfl
@[simp] theorem State.freePlace_pending (s : State) : (s.freePlace).pending = s.pending := rfl

/-! ### State.placeMark -/

@[simp] theorem State.placeMark_odometer (s : State) (m : Mark) : (s.placeMark m).odometer = s.odometer := rfl
@[simp] theorem State.placeMark_reverseRun (s : State) (m : Mark) : (s.placeMark m).reverseRun = s.reverseRun := rfl
@[simp] theorem State.placeMark_delta (s : State) (m : Mark) : (s.placeMark m).delta = s.delta := rfl
@[simp] theorem State.placeMark_windowMs (s : State) (m : Mark) : (s.placeMark m).windowMs = s.windowMs := rfl
@[simp] theorem State.placeMark_speed (s : State) (m : Mark) : (s.placeMark m).speed = s.speed := rfl
@[simp] theorem State.placeMark_zeroWindows (s : State) (m : Mark) : (s.placeMark m).zeroWindows = s.zeroWindows := rfl
@[simp] theorem State.placeMark_stopped (s : State) (m : Mark) : (s.placeMark m).stopped = s.stopped := rfl
@[simp] theorem State.placeMark_marks (s : State) (m : Mark) :
    (s.placeMark m).marks = insertMark s.odometer m s.marks := rfl
@[simp] theorem State.placeMark_orders (s : State) (m : Mark) : (s.placeMark m).orders = s.orders := rfl
@[simp] theorem State.placeMark_runSeq (s : State) (m : Mark) : (s.placeMark m).runSeq = s.runSeq := rfl
@[simp] theorem State.placeMark_suspended (s : State) (m : Mark) : (s.placeMark m).suspended = s.suspended := rfl
@[simp] theorem State.placeMark_grades (s : State) (m : Mark) : (s.placeMark m).grades = s.grades := rfl
@[simp] theorem State.placeMark_planner (s : State) (m : Mark) : (s.placeMark m).planner = s.planner := rfl
@[simp] theorem State.placeMark_reels (s : State) (m : Mark) : (s.placeMark m).reels = s.reels := rfl
@[simp] theorem State.placeMark_seqs (s : State) (m : Mark) : (s.placeMark m).seqs = s.seqs := rfl
@[simp] theorem State.placeMark_capFlag (s : State) (m : Mark) : (s.placeMark m).capFlag = s.capFlag := rfl
@[simp] theorem State.placeMark_stations (s : State) (m : Mark) : (s.placeMark m).stations = s.stations := rfl
@[simp] theorem State.placeMark_decisions (s : State) (m : Mark) : (s.placeMark m).decisions = s.decisions := rfl
@[simp] theorem State.placeMark_knife (s : State) (m : Mark) : (s.placeMark m).knife = s.knife := rfl
@[simp] theorem State.placeMark_preheaters (s : State) (m : Mark) : (s.placeMark m).preheaters = s.preheaters := rfl
@[simp] theorem State.placeMark_glue (s : State) (m : Mark) : (s.placeMark m).glue = s.glue := rfl
@[simp] theorem State.placeMark_link (s : State) (m : Mark) : (s.placeMark m).link = s.link := rfl
@[simp] theorem State.placeMark_errors (s : State) (m : Mark) : (s.placeMark m).errors = s.errors := rfl
@[simp] theorem State.placeMark_receiver (s : State) (m : Mark) : (s.placeMark m).receiver = s.receiver := rfl
@[simp] theorem State.placeMark_inputs (s : State) (m : Mark) : (s.placeMark m).inputs = s.inputs := rfl
@[simp] theorem State.placeMark_config (s : State) (m : Mark) : (s.placeMark m).config = s.config := rfl
@[simp] theorem State.placeMark_port (s : State) (m : Mark) : (s.placeMark m).port = s.port := rfl
@[simp] theorem State.placeMark_serial (s : State) (m : Mark) : (s.placeMark m).serial = s.serial := rfl
@[simp] theorem State.placeMark_draws (s : State) (m : Mark) : (s.placeMark m).draws = s.draws := rfl
@[simp] theorem State.placeMark_pending (s : State) (m : Mark) : (s.placeMark m).pending = s.pending := rfl

/-! ### State.dropMark -/

@[simp] theorem State.dropMark_odometer (s : State) (uid : Nat) : (s.dropMark uid).odometer = s.odometer := rfl
@[simp] theorem State.dropMark_reverseRun (s : State) (uid : Nat) : (s.dropMark uid).reverseRun = s.reverseRun := rfl
@[simp] theorem State.dropMark_delta (s : State) (uid : Nat) : (s.dropMark uid).delta = s.delta := rfl
@[simp] theorem State.dropMark_windowMs (s : State) (uid : Nat) : (s.dropMark uid).windowMs = s.windowMs := rfl
@[simp] theorem State.dropMark_speed (s : State) (uid : Nat) : (s.dropMark uid).speed = s.speed := rfl
@[simp] theorem State.dropMark_zeroWindows (s : State) (uid : Nat) : (s.dropMark uid).zeroWindows = s.zeroWindows := rfl
@[simp] theorem State.dropMark_stopped (s : State) (uid : Nat) : (s.dropMark uid).stopped = s.stopped := rfl
@[simp] theorem State.dropMark_marks (s : State) (uid : Nat) :
    (s.dropMark uid).marks = s.marks.filter fun m => m.uid != uid := rfl
@[simp] theorem State.dropMark_orders (s : State) (uid : Nat) : (s.dropMark uid).orders = s.orders := rfl
@[simp] theorem State.dropMark_runSeq (s : State) (uid : Nat) : (s.dropMark uid).runSeq = s.runSeq := rfl
@[simp] theorem State.dropMark_suspended (s : State) (uid : Nat) : (s.dropMark uid).suspended = s.suspended := rfl
@[simp] theorem State.dropMark_grades (s : State) (uid : Nat) : (s.dropMark uid).grades = s.grades := rfl
@[simp] theorem State.dropMark_planner (s : State) (uid : Nat) : (s.dropMark uid).planner = s.planner := rfl
@[simp] theorem State.dropMark_reels (s : State) (uid : Nat) : (s.dropMark uid).reels = s.reels := rfl
@[simp] theorem State.dropMark_seqs (s : State) (uid : Nat) : (s.dropMark uid).seqs = s.seqs := rfl
@[simp] theorem State.dropMark_capFlag (s : State) (uid : Nat) : (s.dropMark uid).capFlag = s.capFlag := rfl
@[simp] theorem State.dropMark_stations (s : State) (uid : Nat) : (s.dropMark uid).stations = s.stations := rfl
@[simp] theorem State.dropMark_decisions (s : State) (uid : Nat) : (s.dropMark uid).decisions = s.decisions := rfl
@[simp] theorem State.dropMark_knife (s : State) (uid : Nat) : (s.dropMark uid).knife = s.knife := rfl
@[simp] theorem State.dropMark_preheaters (s : State) (uid : Nat) : (s.dropMark uid).preheaters = s.preheaters := rfl
@[simp] theorem State.dropMark_glue (s : State) (uid : Nat) : (s.dropMark uid).glue = s.glue := rfl
@[simp] theorem State.dropMark_link (s : State) (uid : Nat) : (s.dropMark uid).link = s.link := rfl
@[simp] theorem State.dropMark_errors (s : State) (uid : Nat) : (s.dropMark uid).errors = s.errors := rfl
@[simp] theorem State.dropMark_receiver (s : State) (uid : Nat) : (s.dropMark uid).receiver = s.receiver := rfl
@[simp] theorem State.dropMark_inputs (s : State) (uid : Nat) : (s.dropMark uid).inputs = s.inputs := rfl
@[simp] theorem State.dropMark_config (s : State) (uid : Nat) : (s.dropMark uid).config = s.config := rfl
@[simp] theorem State.dropMark_port (s : State) (uid : Nat) : (s.dropMark uid).port = s.port := rfl
@[simp] theorem State.dropMark_serial (s : State) (uid : Nat) : (s.dropMark uid).serial = s.serial := rfl
@[simp] theorem State.dropMark_draws (s : State) (uid : Nat) : (s.dropMark uid).draws = s.draws := rfl
@[simp] theorem State.dropMark_pending (s : State) (uid : Nat) : (s.dropMark uid).pending = s.pending := rfl

/-! ### State.respond -/

@[simp] theorem State.respond_odometer (s : State) (kind : Byte) (st : Status) (body : List Byte) :
    (s.respond kind st body).odometer = s.odometer := rfl
@[simp] theorem State.respond_reverseRun (s : State) (kind : Byte) (st : Status) (body : List Byte) :
    (s.respond kind st body).reverseRun = s.reverseRun := rfl
@[simp] theorem State.respond_delta (s : State) (kind : Byte) (st : Status) (body : List Byte) :
    (s.respond kind st body).delta = s.delta := rfl
@[simp] theorem State.respond_windowMs (s : State) (kind : Byte) (st : Status) (body : List Byte) :
    (s.respond kind st body).windowMs = s.windowMs := rfl
@[simp] theorem State.respond_speed (s : State) (kind : Byte) (st : Status) (body : List Byte) :
    (s.respond kind st body).speed = s.speed := rfl
@[simp] theorem State.respond_zeroWindows (s : State) (kind : Byte) (st : Status) (body : List Byte) :
    (s.respond kind st body).zeroWindows = s.zeroWindows := rfl
@[simp] theorem State.respond_stopped (s : State) (kind : Byte) (st : Status) (body : List Byte) :
    (s.respond kind st body).stopped = s.stopped := rfl
@[simp] theorem State.respond_marks (s : State) (kind : Byte) (st : Status) (body : List Byte) :
    (s.respond kind st body).marks = s.marks := rfl
@[simp] theorem State.respond_orders (s : State) (kind : Byte) (st : Status) (body : List Byte) :
    (s.respond kind st body).orders = s.orders := rfl
@[simp] theorem State.respond_runSeq (s : State) (kind : Byte) (st : Status) (body : List Byte) :
    (s.respond kind st body).runSeq = s.runSeq := rfl
@[simp] theorem State.respond_suspended (s : State) (kind : Byte) (st : Status) (body : List Byte) :
    (s.respond kind st body).suspended = s.suspended := rfl
@[simp] theorem State.respond_grades (s : State) (kind : Byte) (st : Status) (body : List Byte) :
    (s.respond kind st body).grades = s.grades := rfl
@[simp] theorem State.respond_planner (s : State) (kind : Byte) (st : Status) (body : List Byte) :
    (s.respond kind st body).planner = s.planner := rfl
@[simp] theorem State.respond_reels (s : State) (kind : Byte) (st : Status) (body : List Byte) :
    (s.respond kind st body).reels = s.reels := rfl
@[simp] theorem State.respond_seqs (s : State) (kind : Byte) (st : Status) (body : List Byte) :
    (s.respond kind st body).seqs = s.seqs := rfl
@[simp] theorem State.respond_capFlag (s : State) (kind : Byte) (st : Status) (body : List Byte) :
    (s.respond kind st body).capFlag = s.capFlag := rfl
@[simp] theorem State.respond_stations (s : State) (kind : Byte) (st : Status) (body : List Byte) :
    (s.respond kind st body).stations = s.stations := rfl
@[simp] theorem State.respond_decisions (s : State) (kind : Byte) (st : Status) (body : List Byte) :
    (s.respond kind st body).decisions = s.decisions := rfl
@[simp] theorem State.respond_knife (s : State) (kind : Byte) (st : Status) (body : List Byte) :
    (s.respond kind st body).knife = s.knife := rfl
@[simp] theorem State.respond_preheaters (s : State) (kind : Byte) (st : Status) (body : List Byte) :
    (s.respond kind st body).preheaters = s.preheaters := rfl
@[simp] theorem State.respond_glue (s : State) (kind : Byte) (st : Status) (body : List Byte) :
    (s.respond kind st body).glue = s.glue := rfl
@[simp] theorem State.respond_link (s : State) (kind : Byte) (st : Status) (body : List Byte) :
    (s.respond kind st body).link = s.link := rfl
@[simp] theorem State.respond_errors (s : State) (kind : Byte) (st : Status) (body : List Byte) :
    (s.respond kind st body).errors = s.errors := rfl
@[simp] theorem State.respond_receiver (s : State) (kind : Byte) (st : Status) (body : List Byte) :
    (s.respond kind st body).receiver = s.receiver := rfl
@[simp] theorem State.respond_inputs (s : State) (kind : Byte) (st : Status) (body : List Byte) :
    (s.respond kind st body).inputs = s.inputs := rfl
@[simp] theorem State.respond_config (s : State) (kind : Byte) (st : Status) (body : List Byte) :
    (s.respond kind st body).config = s.config := rfl
@[simp] theorem State.respond_port (s : State) (kind : Byte) (st : Status) (body : List Byte) :
    (s.respond kind st body).port = ⟨kind, st, body⟩ := rfl
@[simp] theorem State.respond_serial (s : State) (kind : Byte) (st : Status) (body : List Byte) :
    (s.respond kind st body).serial = s.serial := rfl
@[simp] theorem State.respond_draws (s : State) (kind : Byte) (st : Status) (body : List Byte) :
    (s.respond kind st body).draws = s.draws := rfl
@[simp] theorem State.respond_pending (s : State) (kind : Byte) (st : Status) (body : List Byte) :
    (s.respond kind st body).pending = s.pending := rfl

/-! ### State.unlink -/

@[simp] theorem State.unlink_odometer (s : State) (n : Nat) : (s.unlink n).odometer = s.odometer := rfl
@[simp] theorem State.unlink_reverseRun (s : State) (n : Nat) : (s.unlink n).reverseRun = s.reverseRun := rfl
@[simp] theorem State.unlink_delta (s : State) (n : Nat) : (s.unlink n).delta = s.delta := rfl
@[simp] theorem State.unlink_windowMs (s : State) (n : Nat) : (s.unlink n).windowMs = s.windowMs := rfl
@[simp] theorem State.unlink_speed (s : State) (n : Nat) : (s.unlink n).speed = s.speed := rfl
@[simp] theorem State.unlink_zeroWindows (s : State) (n : Nat) : (s.unlink n).zeroWindows = s.zeroWindows := rfl
@[simp] theorem State.unlink_stopped (s : State) (n : Nat) : (s.unlink n).stopped = s.stopped := rfl
@[simp] theorem State.unlink_marks (s : State) (n : Nat) : (s.unlink n).marks = s.marks := rfl
@[simp] theorem State.unlink_orders (s : State) (n : Nat) : (s.unlink n).orders = s.orders := rfl
@[simp] theorem State.unlink_runSeq (s : State) (n : Nat) : (s.unlink n).runSeq = s.runSeq.filter fun m => m != n := rfl
@[simp] theorem State.unlink_suspended (s : State) (n : Nat) : (s.unlink n).suspended = s.suspended := rfl
@[simp] theorem State.unlink_grades (s : State) (n : Nat) : (s.unlink n).grades = s.grades := rfl
@[simp] theorem State.unlink_planner (s : State) (n : Nat) : (s.unlink n).planner = s.planner := rfl
@[simp] theorem State.unlink_reels (s : State) (n : Nat) : (s.unlink n).reels = s.reels := rfl
@[simp] theorem State.unlink_seqs (s : State) (n : Nat) : (s.unlink n).seqs = s.seqs := rfl
@[simp] theorem State.unlink_capFlag (s : State) (n : Nat) : (s.unlink n).capFlag = s.capFlag := rfl
@[simp] theorem State.unlink_stations (s : State) (n : Nat) : (s.unlink n).stations = s.stations := rfl
@[simp] theorem State.unlink_decisions (s : State) (n : Nat) : (s.unlink n).decisions = s.decisions := rfl
@[simp] theorem State.unlink_knife (s : State) (n : Nat) : (s.unlink n).knife = s.knife := rfl
@[simp] theorem State.unlink_preheaters (s : State) (n : Nat) : (s.unlink n).preheaters = s.preheaters := rfl
@[simp] theorem State.unlink_glue (s : State) (n : Nat) : (s.unlink n).glue = s.glue := rfl
@[simp] theorem State.unlink_link (s : State) (n : Nat) : (s.unlink n).link = s.link := rfl
@[simp] theorem State.unlink_errors (s : State) (n : Nat) : (s.unlink n).errors = s.errors := rfl
@[simp] theorem State.unlink_receiver (s : State) (n : Nat) : (s.unlink n).receiver = s.receiver := rfl
@[simp] theorem State.unlink_inputs (s : State) (n : Nat) : (s.unlink n).inputs = s.inputs := rfl
@[simp] theorem State.unlink_config (s : State) (n : Nat) : (s.unlink n).config = s.config := rfl
@[simp] theorem State.unlink_port (s : State) (n : Nat) : (s.unlink n).port = s.port := rfl
@[simp] theorem State.unlink_serial (s : State) (n : Nat) : (s.unlink n).serial = s.serial := rfl
@[simp] theorem State.unlink_draws (s : State) (n : Nat) : (s.unlink n).draws = s.draws := rfl
@[simp] theorem State.unlink_pending (s : State) (n : Nat) : (s.unlink n).pending = s.pending := rfl

/-! ### State.updateOrder -/

@[simp] theorem State.updateOrder_odometer (s : State) (n : Nat) (f : Order → Order) :
    (s.updateOrder n f).odometer = s.odometer := rfl
@[simp] theorem State.updateOrder_reverseRun (s : State) (n : Nat) (f : Order → Order) :
    (s.updateOrder n f).reverseRun = s.reverseRun := rfl
@[simp] theorem State.updateOrder_delta (s : State) (n : Nat) (f : Order → Order) :
    (s.updateOrder n f).delta = s.delta := rfl
@[simp] theorem State.updateOrder_windowMs (s : State) (n : Nat) (f : Order → Order) :
    (s.updateOrder n f).windowMs = s.windowMs := rfl
@[simp] theorem State.updateOrder_speed (s : State) (n : Nat) (f : Order → Order) :
    (s.updateOrder n f).speed = s.speed := rfl
@[simp] theorem State.updateOrder_zeroWindows (s : State) (n : Nat) (f : Order → Order) :
    (s.updateOrder n f).zeroWindows = s.zeroWindows := rfl
@[simp] theorem State.updateOrder_stopped (s : State) (n : Nat) (f : Order → Order) :
    (s.updateOrder n f).stopped = s.stopped := rfl
@[simp] theorem State.updateOrder_marks (s : State) (n : Nat) (f : Order → Order) :
    (s.updateOrder n f).marks = s.marks := rfl
@[simp] theorem State.updateOrder_orders (s : State) (n : Nat) (f : Order → Order) :
    (s.updateOrder n f).orders = s.orders.map fun o => if o.fields.number == n then f o else o := rfl
@[simp] theorem State.updateOrder_runSeq (s : State) (n : Nat) (f : Order → Order) :
    (s.updateOrder n f).runSeq = s.runSeq := rfl
@[simp] theorem State.updateOrder_suspended (s : State) (n : Nat) (f : Order → Order) :
    (s.updateOrder n f).suspended = s.suspended := rfl
@[simp] theorem State.updateOrder_grades (s : State) (n : Nat) (f : Order → Order) :
    (s.updateOrder n f).grades = s.grades := rfl
@[simp] theorem State.updateOrder_planner (s : State) (n : Nat) (f : Order → Order) :
    (s.updateOrder n f).planner = s.planner := rfl
@[simp] theorem State.updateOrder_reels (s : State) (n : Nat) (f : Order → Order) :
    (s.updateOrder n f).reels = s.reels := rfl
@[simp] theorem State.updateOrder_seqs (s : State) (n : Nat) (f : Order → Order) :
    (s.updateOrder n f).seqs = s.seqs := rfl
@[simp] theorem State.updateOrder_capFlag (s : State) (n : Nat) (f : Order → Order) :
    (s.updateOrder n f).capFlag = s.capFlag := rfl
@[simp] theorem State.updateOrder_stations (s : State) (n : Nat) (f : Order → Order) :
    (s.updateOrder n f).stations = s.stations := rfl
@[simp] theorem State.updateOrder_decisions (s : State) (n : Nat) (f : Order → Order) :
    (s.updateOrder n f).decisions = s.decisions := rfl
@[simp] theorem State.updateOrder_knife (s : State) (n : Nat) (f : Order → Order) :
    (s.updateOrder n f).knife = s.knife := rfl
@[simp] theorem State.updateOrder_preheaters (s : State) (n : Nat) (f : Order → Order) :
    (s.updateOrder n f).preheaters = s.preheaters := rfl
@[simp] theorem State.updateOrder_glue (s : State) (n : Nat) (f : Order → Order) :
    (s.updateOrder n f).glue = s.glue := rfl
@[simp] theorem State.updateOrder_link (s : State) (n : Nat) (f : Order → Order) :
    (s.updateOrder n f).link = s.link := rfl
@[simp] theorem State.updateOrder_errors (s : State) (n : Nat) (f : Order → Order) :
    (s.updateOrder n f).errors = s.errors := rfl
@[simp] theorem State.updateOrder_receiver (s : State) (n : Nat) (f : Order → Order) :
    (s.updateOrder n f).receiver = s.receiver := rfl
@[simp] theorem State.updateOrder_inputs (s : State) (n : Nat) (f : Order → Order) :
    (s.updateOrder n f).inputs = s.inputs := rfl
@[simp] theorem State.updateOrder_config (s : State) (n : Nat) (f : Order → Order) :
    (s.updateOrder n f).config = s.config := rfl
@[simp] theorem State.updateOrder_port (s : State) (n : Nat) (f : Order → Order) :
    (s.updateOrder n f).port = s.port := rfl
@[simp] theorem State.updateOrder_serial (s : State) (n : Nat) (f : Order → Order) :
    (s.updateOrder n f).serial = s.serial := rfl
@[simp] theorem State.updateOrder_draws (s : State) (n : Nat) (f : Order → Order) :
    (s.updateOrder n f).draws = s.draws := rfl
@[simp] theorem State.updateOrder_pending (s : State) (n : Nat) (f : Order → Order) :
    (s.updateOrder n f).pending = s.pending := rfl

/-! ### State.updateGrade -/

@[simp] theorem State.updateGrade_odometer (s : State) (n : Nat) (f : Grade → Grade) :
    (s.updateGrade n f).odometer = s.odometer := rfl
@[simp] theorem State.updateGrade_reverseRun (s : State) (n : Nat) (f : Grade → Grade) :
    (s.updateGrade n f).reverseRun = s.reverseRun := rfl
@[simp] theorem State.updateGrade_delta (s : State) (n : Nat) (f : Grade → Grade) :
    (s.updateGrade n f).delta = s.delta := rfl
@[simp] theorem State.updateGrade_windowMs (s : State) (n : Nat) (f : Grade → Grade) :
    (s.updateGrade n f).windowMs = s.windowMs := rfl
@[simp] theorem State.updateGrade_speed (s : State) (n : Nat) (f : Grade → Grade) :
    (s.updateGrade n f).speed = s.speed := rfl
@[simp] theorem State.updateGrade_zeroWindows (s : State) (n : Nat) (f : Grade → Grade) :
    (s.updateGrade n f).zeroWindows = s.zeroWindows := rfl
@[simp] theorem State.updateGrade_stopped (s : State) (n : Nat) (f : Grade → Grade) :
    (s.updateGrade n f).stopped = s.stopped := rfl
@[simp] theorem State.updateGrade_marks (s : State) (n : Nat) (f : Grade → Grade) :
    (s.updateGrade n f).marks = s.marks := rfl
@[simp] theorem State.updateGrade_orders (s : State) (n : Nat) (f : Grade → Grade) :
    (s.updateGrade n f).orders = s.orders := rfl
@[simp] theorem State.updateGrade_runSeq (s : State) (n : Nat) (f : Grade → Grade) :
    (s.updateGrade n f).runSeq = s.runSeq := rfl
@[simp] theorem State.updateGrade_suspended (s : State) (n : Nat) (f : Grade → Grade) :
    (s.updateGrade n f).suspended = s.suspended := rfl
@[simp] theorem State.updateGrade_grades (s : State) (n : Nat) (f : Grade → Grade) :
    (s.updateGrade n f).grades = s.grades.map fun g => if g.fields.number == n then f g else g := rfl
@[simp] theorem State.updateGrade_planner (s : State) (n : Nat) (f : Grade → Grade) :
    (s.updateGrade n f).planner = s.planner := rfl
@[simp] theorem State.updateGrade_reels (s : State) (n : Nat) (f : Grade → Grade) :
    (s.updateGrade n f).reels = s.reels := rfl
@[simp] theorem State.updateGrade_seqs (s : State) (n : Nat) (f : Grade → Grade) :
    (s.updateGrade n f).seqs = s.seqs := rfl
@[simp] theorem State.updateGrade_capFlag (s : State) (n : Nat) (f : Grade → Grade) :
    (s.updateGrade n f).capFlag = s.capFlag := rfl
@[simp] theorem State.updateGrade_stations (s : State) (n : Nat) (f : Grade → Grade) :
    (s.updateGrade n f).stations = s.stations := rfl
@[simp] theorem State.updateGrade_decisions (s : State) (n : Nat) (f : Grade → Grade) :
    (s.updateGrade n f).decisions = s.decisions := rfl
@[simp] theorem State.updateGrade_knife (s : State) (n : Nat) (f : Grade → Grade) :
    (s.updateGrade n f).knife = s.knife := rfl
@[simp] theorem State.updateGrade_preheaters (s : State) (n : Nat) (f : Grade → Grade) :
    (s.updateGrade n f).preheaters = s.preheaters := rfl
@[simp] theorem State.updateGrade_glue (s : State) (n : Nat) (f : Grade → Grade) :
    (s.updateGrade n f).glue = s.glue := rfl
@[simp] theorem State.updateGrade_link (s : State) (n : Nat) (f : Grade → Grade) :
    (s.updateGrade n f).link = s.link := rfl
@[simp] theorem State.updateGrade_errors (s : State) (n : Nat) (f : Grade → Grade) :
    (s.updateGrade n f).errors = s.errors := rfl
@[simp] theorem State.updateGrade_receiver (s : State) (n : Nat) (f : Grade → Grade) :
    (s.updateGrade n f).receiver = s.receiver := rfl
@[simp] theorem State.updateGrade_inputs (s : State) (n : Nat) (f : Grade → Grade) :
    (s.updateGrade n f).inputs = s.inputs := rfl
@[simp] theorem State.updateGrade_config (s : State) (n : Nat) (f : Grade → Grade) :
    (s.updateGrade n f).config = s.config := rfl
@[simp] theorem State.updateGrade_port (s : State) (n : Nat) (f : Grade → Grade) :
    (s.updateGrade n f).port = s.port := rfl
@[simp] theorem State.updateGrade_serial (s : State) (n : Nat) (f : Grade → Grade) :
    (s.updateGrade n f).serial = s.serial := rfl
@[simp] theorem State.updateGrade_draws (s : State) (n : Nat) (f : Grade → Grade) :
    (s.updateGrade n f).draws = s.draws := rfl
@[simp] theorem State.updateGrade_pending (s : State) (n : Nat) (f : Grade → Grade) :
    (s.updateGrade n f).pending = s.pending := rfl

/-! ### State.updateChange -/

@[simp] theorem State.updateChange_odometer (s : State) (uid : Nat) (f : ChangeMark → ChangeMark) :
    (s.updateChange uid f).odometer = s.odometer := rfl
@[simp] theorem State.updateChange_reverseRun (s : State) (uid : Nat) (f : ChangeMark → ChangeMark) :
    (s.updateChange uid f).reverseRun = s.reverseRun := rfl
@[simp] theorem State.updateChange_delta (s : State) (uid : Nat) (f : ChangeMark → ChangeMark) :
    (s.updateChange uid f).delta = s.delta := rfl
@[simp] theorem State.updateChange_windowMs (s : State) (uid : Nat) (f : ChangeMark → ChangeMark) :
    (s.updateChange uid f).windowMs = s.windowMs := rfl
@[simp] theorem State.updateChange_speed (s : State) (uid : Nat) (f : ChangeMark → ChangeMark) :
    (s.updateChange uid f).speed = s.speed := rfl
@[simp] theorem State.updateChange_zeroWindows (s : State) (uid : Nat) (f : ChangeMark → ChangeMark) :
    (s.updateChange uid f).zeroWindows = s.zeroWindows := rfl
@[simp] theorem State.updateChange_stopped (s : State) (uid : Nat) (f : ChangeMark → ChangeMark) :
    (s.updateChange uid f).stopped = s.stopped := rfl
@[simp] theorem State.updateChange_orders (s : State) (uid : Nat) (f : ChangeMark → ChangeMark) :
    (s.updateChange uid f).orders = s.orders := rfl
@[simp] theorem State.updateChange_runSeq (s : State) (uid : Nat) (f : ChangeMark → ChangeMark) :
    (s.updateChange uid f).runSeq = s.runSeq := rfl
@[simp] theorem State.updateChange_suspended (s : State) (uid : Nat) (f : ChangeMark → ChangeMark) :
    (s.updateChange uid f).suspended = s.suspended := rfl
@[simp] theorem State.updateChange_grades (s : State) (uid : Nat) (f : ChangeMark → ChangeMark) :
    (s.updateChange uid f).grades = s.grades := rfl
@[simp] theorem State.updateChange_planner (s : State) (uid : Nat) (f : ChangeMark → ChangeMark) :
    (s.updateChange uid f).planner = s.planner := rfl
@[simp] theorem State.updateChange_reels (s : State) (uid : Nat) (f : ChangeMark → ChangeMark) :
    (s.updateChange uid f).reels = s.reels := rfl
@[simp] theorem State.updateChange_seqs (s : State) (uid : Nat) (f : ChangeMark → ChangeMark) :
    (s.updateChange uid f).seqs = s.seqs := rfl
@[simp] theorem State.updateChange_capFlag (s : State) (uid : Nat) (f : ChangeMark → ChangeMark) :
    (s.updateChange uid f).capFlag = s.capFlag := rfl
@[simp] theorem State.updateChange_stations (s : State) (uid : Nat) (f : ChangeMark → ChangeMark) :
    (s.updateChange uid f).stations = s.stations := rfl
@[simp] theorem State.updateChange_decisions (s : State) (uid : Nat) (f : ChangeMark → ChangeMark) :
    (s.updateChange uid f).decisions = s.decisions := rfl
@[simp] theorem State.updateChange_knife (s : State) (uid : Nat) (f : ChangeMark → ChangeMark) :
    (s.updateChange uid f).knife = s.knife := rfl
@[simp] theorem State.updateChange_preheaters (s : State) (uid : Nat) (f : ChangeMark → ChangeMark) :
    (s.updateChange uid f).preheaters = s.preheaters := rfl
@[simp] theorem State.updateChange_glue (s : State) (uid : Nat) (f : ChangeMark → ChangeMark) :
    (s.updateChange uid f).glue = s.glue := rfl
@[simp] theorem State.updateChange_link (s : State) (uid : Nat) (f : ChangeMark → ChangeMark) :
    (s.updateChange uid f).link = s.link := rfl
@[simp] theorem State.updateChange_errors (s : State) (uid : Nat) (f : ChangeMark → ChangeMark) :
    (s.updateChange uid f).errors = s.errors := rfl
@[simp] theorem State.updateChange_receiver (s : State) (uid : Nat) (f : ChangeMark → ChangeMark) :
    (s.updateChange uid f).receiver = s.receiver := rfl
@[simp] theorem State.updateChange_inputs (s : State) (uid : Nat) (f : ChangeMark → ChangeMark) :
    (s.updateChange uid f).inputs = s.inputs := rfl
@[simp] theorem State.updateChange_config (s : State) (uid : Nat) (f : ChangeMark → ChangeMark) :
    (s.updateChange uid f).config = s.config := rfl
@[simp] theorem State.updateChange_port (s : State) (uid : Nat) (f : ChangeMark → ChangeMark) :
    (s.updateChange uid f).port = s.port := rfl
@[simp] theorem State.updateChange_serial (s : State) (uid : Nat) (f : ChangeMark → ChangeMark) :
    (s.updateChange uid f).serial = s.serial := rfl
@[simp] theorem State.updateChange_draws (s : State) (uid : Nat) (f : ChangeMark → ChangeMark) :
    (s.updateChange uid f).draws = s.draws := rfl
@[simp] theorem State.updateChange_pending (s : State) (uid : Nat) (f : ChangeMark → ChangeMark) :
    (s.updateChange uid f).pending = s.pending := rfl

/-! ### State.replaceChange -/

@[simp] theorem State.replaceChange_odometer (s : State) (c : ChangeMark) :
    (s.replaceChange c).odometer = s.odometer := rfl
@[simp] theorem State.replaceChange_reverseRun (s : State) (c : ChangeMark) :
    (s.replaceChange c).reverseRun = s.reverseRun := rfl
@[simp] theorem State.replaceChange_delta (s : State) (c : ChangeMark) : (s.replaceChange c).delta = s.delta := rfl
@[simp] theorem State.replaceChange_windowMs (s : State) (c : ChangeMark) :
    (s.replaceChange c).windowMs = s.windowMs := rfl
@[simp] theorem State.replaceChange_speed (s : State) (c : ChangeMark) : (s.replaceChange c).speed = s.speed := rfl
@[simp] theorem State.replaceChange_zeroWindows (s : State) (c : ChangeMark) :
    (s.replaceChange c).zeroWindows = s.zeroWindows := rfl
@[simp] theorem State.replaceChange_stopped (s : State) (c : ChangeMark) :
    (s.replaceChange c).stopped = s.stopped := rfl
@[simp] theorem State.replaceChange_marks (s : State) (c : ChangeMark) :
    (s.replaceChange c).marks = insertMark s.odometer (.change c) (s.marks.eraseP (Mark.isChangeOf c.uid)) := rfl
@[simp] theorem State.replaceChange_orders (s : State) (c : ChangeMark) : (s.replaceChange c).orders = s.orders := rfl
@[simp] theorem State.replaceChange_runSeq (s : State) (c : ChangeMark) : (s.replaceChange c).runSeq = s.runSeq := rfl
@[simp] theorem State.replaceChange_suspended (s : State) (c : ChangeMark) :
    (s.replaceChange c).suspended = s.suspended := rfl
@[simp] theorem State.replaceChange_grades (s : State) (c : ChangeMark) : (s.replaceChange c).grades = s.grades := rfl
@[simp] theorem State.replaceChange_planner (s : State) (c : ChangeMark) :
    (s.replaceChange c).planner = s.planner := rfl
@[simp] theorem State.replaceChange_reels (s : State) (c : ChangeMark) : (s.replaceChange c).reels = s.reels := rfl
@[simp] theorem State.replaceChange_seqs (s : State) (c : ChangeMark) : (s.replaceChange c).seqs = s.seqs := rfl
@[simp] theorem State.replaceChange_capFlag (s : State) (c : ChangeMark) :
    (s.replaceChange c).capFlag = s.capFlag := rfl
@[simp] theorem State.replaceChange_stations (s : State) (c : ChangeMark) :
    (s.replaceChange c).stations = s.stations := rfl
@[simp] theorem State.replaceChange_decisions (s : State) (c : ChangeMark) :
    (s.replaceChange c).decisions = s.decisions := rfl
@[simp] theorem State.replaceChange_knife (s : State) (c : ChangeMark) : (s.replaceChange c).knife = s.knife := rfl
@[simp] theorem State.replaceChange_preheaters (s : State) (c : ChangeMark) :
    (s.replaceChange c).preheaters = s.preheaters := rfl
@[simp] theorem State.replaceChange_glue (s : State) (c : ChangeMark) : (s.replaceChange c).glue = s.glue := rfl
@[simp] theorem State.replaceChange_link (s : State) (c : ChangeMark) : (s.replaceChange c).link = s.link := rfl
@[simp] theorem State.replaceChange_errors (s : State) (c : ChangeMark) : (s.replaceChange c).errors = s.errors := rfl
@[simp] theorem State.replaceChange_receiver (s : State) (c : ChangeMark) :
    (s.replaceChange c).receiver = s.receiver := rfl
@[simp] theorem State.replaceChange_inputs (s : State) (c : ChangeMark) : (s.replaceChange c).inputs = s.inputs := rfl
@[simp] theorem State.replaceChange_config (s : State) (c : ChangeMark) : (s.replaceChange c).config = s.config := rfl
@[simp] theorem State.replaceChange_port (s : State) (c : ChangeMark) : (s.replaceChange c).port = s.port := rfl
@[simp] theorem State.replaceChange_serial (s : State) (c : ChangeMark) : (s.replaceChange c).serial = s.serial := rfl
@[simp] theorem State.replaceChange_draws (s : State) (c : ChangeMark) : (s.replaceChange c).draws = s.draws := rfl
@[simp] theorem State.replaceChange_pending (s : State) (c : ChangeMark) :
    (s.replaceChange c).pending = s.pending := rfl

end Sys2Proof.Machine
end

