-- ==== Sys2Proof/Laws/Evolves.lean ====
section
/-! SUPPORT. What the shared operations can do, said once: `Evolves s t` lists what never changes inside an event (odometer,
speed, receiver, inputs, configuration, port, command queue, keys of the tables), what only grows (statuses, HOLD) and the bounds that
are kept (queues, mark table, stack, stations, knife, outputs). It is reflexive and transitive; each primitive update
and each shared operation has a lemma that it evolves. -/

namespace Sys2Proof.Machine

open Sys2Proof

theorem insertMark_length (odo : Coord) (m : Mark) (l : List Mark) :
    (insertMark odo m l).length = l.length + 1 := by
  induction l with
  | nil => rfl
  | cons x xs ih => simp only [insertMark]; split <;> simp [ih]

/-- What an event inside the part can do to the state, at most. -/
structure Evolves (s t : State) : Prop where
  odometer : t.odometer = s.odometer
  reverseRun : t.reverseRun = s.reverseRun
  delta : t.delta = s.delta
  windowMs : t.windowMs = s.windowMs
  speed : t.speed = s.speed
  zeroWindows : t.zeroWindows = s.zeroWindows
  stopped : t.stopped = s.stopped
  receiver : t.receiver = s.receiver
  inputs : t.inputs = s.inputs
  config : t.config = s.config
  port : t.port = s.port
  pending : t.pending = s.pending
  mask : t.errors.mask = s.errors.mask
  severity : t.errors.severity = s.errors.severity
  hold : s.errors.hold = true → t.errors.hold = true
  status : ∀ i, s.errors.status.getLsbD i = true → t.errors.status.getLsbD i = true
  fatal : s.HoldsOnFatal → t.HoldsOnFatal
  queues : ∀ c, (t.link.queue c).length ≤ max (s.link.queue c).length 8
  marks : t.marks.length ≤ max s.marks.length 48
  stack : t.suspended.length ≤ max s.suspended.length 3
  orders : t.orders.map (·.fields.number) = s.orders.map (·.fields.number)
  grades : t.grades.map (·.fields.number) = s.grades.map (·.fields.number)
  engaged : s.OneEngaged → t.OneEngaged
  outstanding : t.knife.outstanding ≤ max s.knife.outstanding 2
  lag : t.knife.lag.length ≤ max s.knife.lag.length 4
  outputs : ∀ k, (t.preheaters.get k).output ≤ max (s.preheaters.get k).output 1000
  targets : ∀ k v, (t.preheaters.get k).target = some v → v ≤ 1000 ∨ (s.preheaters.get k).target = some v

namespace Evolves

variable {s t u : State}

theorem refl (s : State) : Evolves s s where
  odometer := rfl
  reverseRun := rfl
  delta := rfl
  windowMs := rfl
  speed := rfl
  zeroWindows := rfl
  stopped := rfl
  receiver := rfl
  inputs := rfl
  config := rfl
  port := rfl
  pending := rfl
  mask := rfl
  severity := rfl
  hold := id
  status := fun _ => id
  fatal := id
  queues := fun _ => le_max_left _ _
  marks := le_max_left _ _
  stack := le_max_left _ _
  orders := rfl
  grades := rfl
  engaged := id
  outstanding := le_max_left _ _
  lag := le_max_left _ _
  outputs := fun _ => le_max_left _ _
  targets := fun _ _ => Or.inr

theorem trans (h : Evolves s t) (g : Evolves t u) : Evolves s u where
  odometer := g.odometer.trans h.odometer
  reverseRun := g.reverseRun.trans h.reverseRun
  delta := g.delta.trans h.delta
  windowMs := g.windowMs.trans h.windowMs
  speed := g.speed.trans h.speed
  zeroWindows := g.zeroWindows.trans h.zeroWindows
  stopped := g.stopped.trans h.stopped
  receiver := g.receiver.trans h.receiver
  inputs := g.inputs.trans h.inputs
  config := g.config.trans h.config
  port := g.port.trans h.port
  pending := g.pending.trans h.pending
  mask := g.mask.trans h.mask
  severity := g.severity.trans h.severity
  hold := g.hold ∘ h.hold
  status := fun i => g.status i ∘ h.status i
  fatal := g.fatal ∘ h.fatal
  queues := fun c => by have := h.queues c; have := g.queues c; omega
  marks := by have := h.marks; have := g.marks; omega
  stack := by have := h.stack; have := g.stack; omega
  orders := g.orders.trans h.orders
  grades := g.grades.trans h.grades
  engaged := g.engaged ∘ h.engaged
  outstanding := by have := h.outstanding; have := g.outstanding; omega
  lag := by have := h.lag; have := g.lag; omega
  outputs := fun k => by have := h.outputs k; have := g.outputs k; omega
  targets := fun k v e => (g.targets k v e).elim Or.inl (h.targets k v)

/-! ### The primitive updates -/

theorem bumpSerial (h : Evolves s t) : Evolves s t.bumpSerial := h.trans { refl t with }
theorem drawn (h : Evolves s t) : Evolves s t.drawn := h.trans { refl t with }
theorem setSeqs (h : Evolves s t) {q : PerStand Sequencer} : Evolves s { t with seqs := q } :=
  h.trans { refl t with }
theorem setSeq (h : Evolves s t) {k : Stand} {q : Sequencer} : Evolves s (t.setSeq k q) := h.setSeqs
theorem setSlot (h : Evolves s t) {k : Stand} {p : Pos} {x : ReelSlot} : Evolves s (t.setSlot k p x) :=
  h.trans { refl t with }
theorem setGlue (h : Evolves s t) {g : GlueUnit} {x : GlueChannel} : Evolves s (t.setGlue g x) :=
  h.trans { refl t with }
theorem setPlanner (h : Evolves s t) {p : Option Provisional} : Evolves s { t with planner := p } :=
  h.trans { refl t with }
theorem setCapFlag (h : Evolves s t) {b : Bool} : Evolves s { t with capFlag := b } := h.trans { refl t with }
theorem setDecisions (h : Evolves s t) {l : List Decision} : Evolves s { t with decisions := l } :=
  h.trans { refl t with }
theorem setRunSeq (h : Evolves s t) {l : List Nat} : Evolves s { t with runSeq := l } := h.trans { refl t with }
theorem setDraws (h : Evolves s t) {n : Nat} : Evolves s { t with draws := n } := h.trans { refl t with }

theorem setMarks (h : Evolves s t) {l : List Mark} (b : l.length ≤ max t.marks.length 48) :
    Evolves s { t with marks := l } :=
  h.trans { refl t with marks := b }

theorem setSuspended (h : Evolves s t) {l : List Nat} (b : l.length ≤ max t.suspended.length 3) :
    Evolves s { t with suspended := l } :=
  h.trans { refl t with stack := b }

theorem setLink (h : Evolves s t) {l : Link} (b : ∀ c, (l.queue c).length ≤ max (t.link.queue c).length 8) :
    Evolves s { t with link := l } :=
  h.trans { refl t with queues := b }

theorem setKnife (h : Evolves s t) {f : Knife → Knife} (b : (f t.knife).outstanding ≤ max t.knife.outstanding 2)
    (c : (f t.knife).lag.length ≤ max t.knife.lag.length 4) : Evolves s (t.setKnife f) :=
  h.trans { refl t with outstanding := b, lag := c }

theorem setPostponed (h : Evolves s t) {p : Option Postponed} : Evolves s (t.setPostponed p) :=
  h.setKnife (le_max_left _ _) (le_max_left _ _)

theorem setStations (h : Evolves s t) {x : Pair SlitterStation}
    (b : t.OneEngaged → State.OneEngaged { t with stations := x }) : Evolves s { t with stations := x } :=
  h.trans { refl t with engaged := b }

theorem setPreheater (h : Evolves s t) {k : Stand} {x : Preheater}
    (b : x.output ≤ max (t.preheaters.get k).output 1000)
    (c : ∀ v, x.target = some v → v ≤ 1000 ∨ (t.preheaters.get k).target = some v) :
    Evolves s (t.setPreheater k x) := by
  refine h.trans { refl t with outputs := fun j => ?_, targets := fun j v e => ?_ }
  · by_cases e : j = k
    · subst e; simpa using b
    · simp [PerStand.get_set_other _ _ e]
  · by_cases e' : j = k
    · subst e'; exact c v (by simpa using e)
    · exact Or.inr (by simpa [PerStand.get_set_other _ _ e'] using e)

theorem updateOrder (h : Evolves s t) {n : Nat} {f : Order → Order} (b : ∀ o, (f o).fields.number = o.fields.number) :
    Evolves s (t.updateOrder n f) := by
  refine h.trans { refl t with orders := ?_ }
  simp only [State.updateOrder_orders, List.map_map]
  refine List.map_congr_left fun o _ => ?_
  simp only [Function.comp]; split <;> simp [b]

theorem updateGrade (h : Evolves s t) {n : Nat} {f : Grade → Grade} (b : ∀ o, (f o).fields.number = o.fields.number) :
    Evolves s (t.updateGrade n f) := by
  refine h.trans { refl t with grades := ?_ }
  simp only [State.updateGrade_grades, List.map_map]
  refine List.map_congr_left fun o _ => ?_
  simp only [Function.comp]; split <;> simp [b]

theorem updateChange (h : Evolves s t) {n : Nat} {f : ChangeMark → ChangeMark} : Evolves s (t.updateChange n f) :=
  h.setMarks (by simp)

theorem dropMark (h : Evolves s t) {n : Nat} : Evolves s (t.dropMark n) :=
  h.setMarks (le_max_of_le_left (List.length_filter_le _ _))

theorem setStation (h : Evolves s t) {st : Station} {x : SlitterStation}
    (b : x.state = .engaged → (t.station st).state = .engaged) : Evolves s (t.setStation st x) := by
  refine h.setStations fun e => ?_
  cases st <;> simp only [State.OneEngaged, State.station, Pair.get, Pair.set] at * <;> tauto

theorem raise (h : Evolves s t) {k : ErrorKind} {o : ErrorObject} : Evolves s (t.raise k o) := by
  refine h.trans ?_
  have bits : ∀ j, k.bit.getLsbD j = true → j = k.number - 1 := by
    intro j; simp only [ErrorKind.bit, BitVec.getLsbD_shiftLeft, BitVec.getLsbD_one]; simp; omega
  have grow : ∀ j, t.errors.status.getLsbD j = true → (t.errors.status ||| k.bit).getLsbD j = true := by
    intro j e; simp [e]
  have mem : ∀ e : Errors, e.fatalSet = true ↔
      ∃ i, e.status.getLsbD i = true ∧ e.mask.getLsbD i = false ∧ e.severity.getLsbD i = true := by
    intro e
    simp only [Errors.fatalSet, Errors.unmasked, bne_iff_ne, ne_eq]
    constructor
    · intro n
      by_contra c
      push Not at c
      refine n (BitVec.eq_of_getLsbD_eq fun i hi => ?_)
      have := c i
      simp only [BitVec.getLsbD_and, BitVec.getLsbD_not, BitVec.getLsbD_zero, hi]
      cases h1 : e.status.getLsbD i <;> cases h2 : e.mask.getLsbD i <;> cases h3 : e.severity.getLsbD i <;> simp_all
    · rintro ⟨i, a, b, c⟩ z
      have hi : i < 18 := by
        by_contra o; rw [BitVec.getLsbD_of_ge _ _ (by omega)] at a; cases a
      have := congrArg (fun v : BitVec 18 => v.getLsbD i) z
      simp only [BitVec.getLsbD_and, BitVec.getLsbD_not, BitVec.getLsbD_zero, a, b, c, hi] at this
      simp at this
  by_cases m : k.isIn t.errors.mask = true
  · refine { refl t with mask := ?_, severity := ?_, hold := ?_, status := ?_, fatal := ?_ } <;>
      simp only [State.raise_errors, Errors.raised, m, if_true, State.HoldsOnFatal, mem]
    · exact id
    · exact grow
    · rintro f ⟨i, a, b, c⟩
      simp only [BitVec.getLsbD_or, Bool.or_eq_true] at a
      rcases a with a | a
      · exact f ⟨i, a, b, c⟩
      · obtain rfl := bits i a
        simp [ErrorKind.isIn, b] at m
  · refine { refl t with mask := ?_, severity := ?_, hold := ?_, status := ?_, fatal := ?_ } <;>
      simp only [State.raise_errors, Errors.raised, m, if_false, State.HoldsOnFatal, mem, Bool.false_eq_true]
    · intro e; simp [e]
    · exact grow
    · rintro f ⟨i, a, b, c⟩
      simp only [BitVec.getLsbD_or, Bool.or_eq_true] at a
      rcases a with a | a
      · simp [f ⟨i, a, b, c⟩]
      · obtain rfl := bits i a
        simp [ErrorKind.isIn, c]

theorem setQueue (h : Evolves s t) {c : LinkClass} {q : List Command}
    (b : q.length ≤ max (t.link.queue c).length 8) : Evolves s (t.setQueue c q) := by
  refine h.setLink fun d => ?_
  by_cases e : d = c
  · subst e; simpa using b
  · simp [Link.queue_setQueue_other _ _ e]

theorem enqueue (h : Evolves s t) {c : Command} : Evolves s (t.enqueue c) := by
  unfold State.enqueue
  dsimp only
  split
  · exact h.setQueue (by simp)
  · split
    · exact h.setQueue (by simp_all [Config.classDepth])
    · exact h.raise

theorem withdrawGo (h : Evolves s t) {k : Stand} : Evolves s (t.withdrawGo k) :=
  h.setQueue (le_max_of_le_left (List.length_filter_le _ _))

theorem withdrawSet (h : Evolves s t) {st : Station} : Evolves s (t.withdrawSet st) :=
  h.setQueue (le_max_of_le_left (List.length_filter_le _ _))

theorem freePlace (h : Evolves s t) : Evolves s t.freePlace :=
  h.setLink fun c => by cases c <;> exact le_max_left _ _

/-! ### Separate events -/

theorem runEvents {ε : Type} {act : ε → State → State} (a : ∀ e u, Evolves u (act e u)) :
    ∀ (n : Nat) (es : List ε) (t : State), Evolves t (runEvents act n es t)
  | 0, _, t => refl t
  | _ + 1, [], t => refl t
  | _ + 1, [x], t => a x t
  | n + 1, _ :: _ :: _, t =>
    ((refl t).drawn.trans (a _ _)).trans (Evolves.runEvents a n _ _)

theorem takeEvents {ε : Type} {act : ε → State → State} (h : Evolves s t) {es : List ε}
    (a : ∀ e u, Evolves u (act e u)) : Evolves s (takeEvents act es t) :=
  h.trans (Evolves.runEvents a _ _ _)

/-! ### Placing and moving marks -/

theorem placeMark (h : Evolves s t) {m : Mark} (room : 0 < t.freeMarks) : Evolves s (t.placeMark m) := by
  refine h.setMarks ?_
  simp only [insertMark_length, State.freeMarks, Config.markSlots] at *; omega

end Evolves

theorem findChange_mem {s : State} {uid : Nat} {m : ChangeMark} (h : s.findChange uid = some m) :
    Mark.change m ∈ s.marks ∧ m.uid = uid := by
  have a := List.mem_of_find?_eq_some h
  have b := List.find?_some h
  simp only [State.changes, List.mem_filterMap] at a
  obtain ⟨x, hx, e⟩ := a
  cases x <;> simp [Mark.asChange] at e
  subst e
  exact ⟨hx, by simpa using b⟩

/-- The CHANGE mark to be replaced is in the table. -/
def State.hasMark (s : State) (uid : Nat) : Prop := ∃ m ∈ s.marks, m.isChangeOf uid = true

theorem findChange_hasMark {s : State} {uid : Nat} {m : ChangeMark} (h : s.findChange uid = some m) :
    s.hasMark m.uid := ⟨_, (findChange_mem h).1, by simp [Mark.isChangeOf]⟩

theorem provisional_hasMark {s : State} {p : Provisional} {m : ChangeMark} (h : s.provisional = some (p, m)) :
    s.hasMark m.uid := by
  unfold State.provisional at h
  split at h
  · cases h
  · simp only [Option.map_eq_some_iff, Prod.mk.injEq] at h
    obtain ⟨x, e, -, rfl⟩ := h
    exact findChange_hasMark e

namespace Evolves

variable {s t u : State}

theorem replaceChange (h : Evolves s t) {c : ChangeMark} {n : Nat} (i : c.uid = n) (m : t.hasMark n) :
    Evolves s (t.replaceChange c) := by
  subst i
  refine h.setMarks ?_
  rw [insertMark_length]
  obtain ⟨x, hx, e⟩ := m
  rw [List.length_eraseP_of_mem hx e]
  have := List.length_pos_of_mem hx
  exact le_max_of_le_left (by omega)

/-! ### The splice controller -/

theorem capRelease (h : Evolves s t) : Evolves s t.capRelease := by
  unfold State.capRelease; split
  · exact h.setCapFlag.enqueue
  · exact h

theorem capRequest (h : Evolves s t) : Evolves s t.capRequest := by
  unfold State.capRequest; split
  · exact h.setCapFlag.enqueue
  · exact h

theorem released (h : Evolves s t) {q : SeqState} : Evolves s (t.released q) := by
  unfold State.released; split
  · exact h.capRelease
  · exact h

theorem enterSplicing (h : Evolves s t) {k : Stand} {p : Pos} : Evolves s (t.enterSplicing k p) :=
  h.setSeq.bumpSerial.enqueue

theorem enterWaitGo (h : Evolves s t) {k : Stand} {r : Required} : Evolves s (t.enterWaitGo k r) := h.setSeq.capRequest

theorem checkReel (h : Evolves s t) {k : Stand} : Evolves s (t.checkReel k) := by
  unfold State.checkReel
  dsimp only
  repeat' split
  all_goals first | exact h | exact h.enterSplicing | exact h.enterWaitGo | exact h.setSeq | exact h.setSeq.capRelease

theorem recheck (h : Evolves s t) {k : Stand} : Evolves s (t.recheck k) := by
  unfold State.recheck; split
  · exact h.checkReel
  · exact h

theorem recheckAll (h : Evolves s t) : Evolves s t.recheckAll := h.takeEvents fun _ v => (refl v).recheck

theorem goTest (h : Evolves s t) {k : Stand} : Evolves s (t.goTest k) := by
  unfold State.goTest
  repeat' split
  all_goals first | exact h.enterSplicing | exact h

theorem goTestAll (h : Evolves s t) : Evolves s t.goTestAll := h.takeEvents fun _ v => (refl v).goTest

theorem dueCheck (h : Evolves s t) {k : Stand} : Evolves s (t.dueCheck k) := by
  unfold State.dueCheck
  repeat' split
  all_goals first | exact h.checkReel | exact h

theorem armNow (h : Evolves s t) {k : Stand} {x : SpliceKind} : Evolves s (t.armNow k x) := by
  unfold State.armNow
  dsimp only
  split
  all_goals first | exact h.setSeq.checkReel | exact h

theorem lowReel (h : Evolves s t) {k : Stand} : Evolves s (t.lowReel k) := by
  unfold State.lowReel
  dsimp only
  split
  all_goals first | exact h.armNow | exact h

theorem lowReelIfLow (h : Evolves s t) {k : Stand} : Evolves s (t.lowReelIfLow k) := by
  unfold State.lowReelIfLow; split
  · exact h.lowReel
  · exact h

theorem settleIdle (h : Evolves s t) {k : Stand} : Evolves s (t.settleIdle k) := h.setSeq.released.lowReelIfLow

theorem nextState (h : Evolves s t) {k : Stand} : Evolves s (t.nextState k) := by
  unfold State.nextState
  dsimp only
  split
  · exact h.settleIdle
  · split
    · exact h.setSeq.released.lowReel
    · exact h.setSeq.released.dueCheck

theorem lowIfNew (h : Evolves s t) {k : Stand} {b : Bool} : Evolves s (t.lowIfNew k b) := by
  unfold State.lowIfNew; split
  · exact h
  · exact h.lowReelIfLow

/-! ### The span planner -/

theorem moveEnd (h : Evolves s t) {m : ChangeMark} {p : Coord} (a : t.hasMark m.uid) : Evolves s (t.moveEnd m p) := by
  unfold State.moveEnd
  refine Evolves.recheckAll ?_
  split
  · exact h
  · exact h.replaceChange (by rfl) a

theorem recomputeEnd (h : Evolves s t) : Evolves s t.recomputeEnd := by
  unfold State.recomputeEnd
  split
  · next e =>
    split
    · exact h.moveEnd (provisional_hasMark e)
    · exact h
  · exact h

theorem cullGranted (h : Evolves s t) {a b : Coord} : Evolves s (t.cullGranted a b) := by
  unfold State.cullGranted
  repeat' split
  all_goals first | exact h.recomputeEnd | exact h

theorem placeCullMark (h : Evolves s t) {m : Mark} (room : 0 < t.freeMarks) : Evolves s (t.placeCullMark m) := by
  unfold State.placeCullMark; split
  · exact (h.placeMark room).cullGranted
  · exact h

theorem countRebase (h : Evolves s t) {a b : Coord} : Evolves s (t.countRebase a b) := by
  unfold State.countRebase
  repeat' split
  all_goals exact h.setPlanner

theorem push (h : Evolves s t) {n : Nat} : Evolves s (t.push n) := by
  unfold State.push
  split
  · next e => exact (h.setSuspended (by simp_all [Config.stackDepth])).updateOrder fun _ => rfl
  · exact h

theorem unstack (h : Evolves s t) {n : Nat} : Evolves s (t.unstack n) :=
  (h.setSuspended (le_max_of_le_left (List.length_filter_le _ _))).updateOrder fun _ => rfl

theorem curtailForRush (h : Evolves s t) : Evolves s t.curtailForRush := by
  unfold State.curtailForRush
  split
  · next m o e =>
    have has : t.hasMark m.uid := by
      unfold State.curtailTarget at e
      split at e
      · next p =>
        split at e
        · split at e
          · cases e; exact provisional_hasMark p
          · cases e
        · cases e
      · cases e
    dsimp only
    refine Evolves.recheckAll (Evolves.replaceChange ?_ rfl ?_)
    · split
      · exact h
      · exact h.push
    · split
      · exact has
      · unfold State.push; split
        · exact has
        · exact has
  · exact h

theorem curtailAndPin (h : Evolves s t) : Evolves s t.curtailAndPin := by
  unfold State.curtailAndPin
  split
  · next e =>
    split
    · dsimp only
      refine Evolves.recheckAll ?_
      split
      · exact h.replaceChange (by rfl) (provisional_hasMark e)
      · exact h.updateChange
    · exact h
  · exact h

theorem amendEnd (h : Evolves s t) {n : Nat} : Evolves s (t.amendEnd n) := by
  unfold State.amendEnd
  split
  · next e _ =>
    split
    · split
      · exact h.setPlanner.moveEnd (provisional_hasMark (s := t) e)
      · exact h
    · exact h
  · exact h

theorem placeGap (h : Evolves s t) {k : Stand} {a b : Coord} : Evolves s (t.placeGap k a b) := by
  unfold State.placeGap
  split
  · exact h
  · dsimp only
    split
    · next r => exact (h.bumpSerial.placeCullMark r).raise
    · exact h.raise.raise

theorem satisfiedGap (h : Evolves s t) {k : Stand} {p : Plan} : Evolves s (t.satisfiedGap k p) := by
  unfold State.satisfiedGap
  split
  · split
    · exact h.placeGap
    · exact h
  · exact h

theorem abandonedGap (h : Evolves s t) {k : Stand} {p q : Plan} : Evolves s (t.abandonedGap k p q) := h.placeGap

theorem setPlan (h : Evolves s t) {k : Stand} {p : Option Plan} : Evolves s (t.setPlan k p) := h.setSeq

theorem clearSatisfied (h : Evolves s t) {k : Stand} {p : Plan} : Evolves s (t.clearSatisfied k p) := by
  unfold State.clearSatisfied
  dsimp only
  split
  · exact h.setPlan.satisfiedGap.settleIdle
  · exact h.setPlan.satisfiedGap

theorem armGrade (h : Evolves s t) {k : Stand} {p : Plan} : Evolves s (t.armGrade k p) := h.setSeq.released.dueCheck

theorem takePlan (h : Evolves s t) {k : Stand} {p : Plan} : Evolves s (t.takePlan k p) := by
  have g : ∀ {v}, Evolves s v → Evolves s (if (v.setPlan k (some p)).planSatisfied k p then
      (v.setPlan k (some p)).clearSatisfied k p
    else
      match ((v.setPlan k (some p)).seq k).state with
      | .idle => (v.setPlan k (some p)).armGrade k p
      | .armed | .waitReel | .waitGo =>
        if ((v.setPlan k (some p)).seq k).holdsGrade then (v.setPlan k (some p)).armGrade k p
        else v.setPlan k (some p)
      | .splicing | .fault => v.setPlan k (some p)) := by
    intro v a
    repeat' split
    all_goals first | exact a.setPlan.clearSatisfied | exact a.setPlan.armGrade | exact a.setPlan
  refine g ?_
  split
  · exact h.abandonedGap
  · exact h

theorem planArrives (h : Evolves s t) {k : Stand} {p : Plan} : Evolves s (t.planArrives k p) := by
  unfold State.planArrives
  split
  · refine Evolves.setSeq ?_
    split
    · exact h.abandonedGap
    · exact h
  · exact h.takePlan

theorem handDeferred (h : Evolves s t) {k : Stand} : Evolves s (t.handDeferred k) := by
  unfold State.handDeferred; split
  · exact h.setSeq.planArrives
  · exact h

theorem enterFault (h : Evolves s t) {k : Stand} : Evolves s (t.enterFault k) := h.setSeq.handDeferred.released

theorem runOutIfEmpty (h : Evolves s t) {k : Stand} : Evolves s (t.runOutIfEmpty k) := by
  unfold State.runOutIfEmpty
  repeat' split
  all_goals first | exact h.setSlot.raise.enterFault | exact h

end Evolves

end Sys2Proof.Machine
end

