-- ==== Sys2Proof/Laws/Blocks.lean ====
section
/-! SUPPORT. The shared operations of the slitter exchange, the launch, the knife counter, the bond controller and the reel
monitor evolve: what each can do to the state at most (Laws/Evolves.lean). -/

namespace Sys2Proof.Machine

open Sys2Proof

namespace Evolves

variable {s t u : State}

/-! ### The slitter exchange -/

theorem queueSet (h : Evolves s t) {st : Station} {p : Pattern} : Evolves s (t.queueSet st p) :=
  (h.setStation (by exact id)).bumpSerial.enqueue

theorem assignSet (h : Evolves s t) {m n : Nat} {p : Pattern} {st : Station} : Evolves s (t.assignSet m n p st) :=
  (h.setStation (by intro e; cases e)).queueSet

theorem walk (h : Evolves s t) : Evolves s t.walk := by
  unfold State.walk
  dsimp only
  split
  · exact h.setDecisions.assignSet
  · exact h.setDecisions

theorem addDecision (h : Evolves s t) {m : Nat} : Evolves s (t.addDecision m) := h.setDecisions.walk

theorem removeDecision (h : Evolves s t) {m : Nat} : Evolves s (t.removeDecision m) := h.setDecisions.walk

theorem faultStation (h : Evolves s t) {st : Station} : Evolves s (t.faultStation st) :=
  (h.setStation (by intro e; cases e)).setDecisions.walk

theorem skipDecision (h : Evolves s t) {m : ChangeMark} : Evolves s (t.skipDecision m) := by
  unfold State.skipDecision
  dsimp only
  split
  · exact (h.setStation (by exact id)).removeDecision
  · exact h.removeDecision

end Evolves

@[simp] theorem State.enqueue_stations (s : State) (c : Command) : (s.enqueue c).stations = s.stations := by
  unfold State.enqueue; dsimp only; repeat' split
  all_goals rfl

theorem State.engaged_none {s : State} (h : s.engaged = none) (st : Station) : (s.station st).state ≠ .engaged := by
  unfold State.engaged at h
  intro e
  split at h
  · cases h
  · split at h
    · cases h
    · cases st <;> contradiction

theorem State.engaged_other {s : State} {st x : Station} (h : s.engaged = some x) (one : s.OneEngaged) (n : st ≠ x) :
    (s.station st).state ≠ .engaged := by
  unfold State.engaged at h
  unfold State.OneEngaged at one
  split at h
  · cases h
    cases st
    · exact absurd rfl n
    · exact fun e => one ⟨by assumption, e⟩
  · split at h
    · cases h
      cases st
      · assumption
      · exact absurd rfl n
    · cases h

namespace Evolves

variable {s t u : State}

theorem queueExchange (h : Evolves s t) {st : Station} {l : Option Station} {x : Option Coord} :
    Evolves s (t.queueExchange st l x) :=
  (h.setStation (by exact id)).bumpSerial.enqueue

theorem exchange (h : Evolves s t) {m : ChangeMark} {st : Station} (r : (t.station st).state ≠ .engaged) :
    Evolves s (t.exchange m st) := by
  unfold State.exchange
  dsimp only
  refine Evolves.removeDecision ?_
  cases e : t.engaged with
  | none =>
    refine (h.queueExchange).setStations fun one => ?_
    have := State.engaged_none e st.other
    have k : (t.queueExchange st none (some m.xEx)).station st.other = t.station st.other := by
      cases st <;> simp [State.queueExchange, State.station, State.setStation, Pair.get, Pair.set, Station.other]
    cases st <;> simp_all [State.OneEngaged, State.station, Pair.get, Pair.set, Station.other]
  | some x =>
    have n : st ≠ x := by
      rintro rfl
      unfold State.engaged at e
      cases st <;> simp_all
    have w : Evolves s ((t.queueExchange st (some x) (some m.xEx)).setStation x
        { (t.queueExchange st (some x) (some m.xEx)).station x with
          state := .idle, order := none, exchangeSent := none, exchangeTag := none }) :=
      h.queueExchange.setStation (by intro e; cases e)
    refine w.setStations fun _ => ?_
    cases st <;> cases x <;>
      first
      | exact absurd rfl n
      | simp [State.OneEngaged, State.station, State.setStation, Pair.get, Pair.set]

theorem moveStart (h : Evolves s t) {m : ChangeMark} {o : Outgoing} : Evolves s (t.moveStart m o) := by
  unfold State.moveStart
  dsimp only
  repeat' split
  all_goals first | exact h.updateChange.setPlanner.recomputeEnd | exact h.updateChange

theorem makeVoid (h : Evolves s t) {m : ChangeMark} : Evolves s (t.makeVoid m) := by
  unfold State.makeVoid
  dsimp only
  have f : ∀ {v} (st : Station), Evolves s v → Evolves s (if (v.station st).served = some m.uid ∧
      ((v.station st).state = .setting ∨ (v.station st).state = .ready) then
      (v.setStation st { v.station st with
        state := .idle, order := none, served := none, retry := 0, timer := none, setTag := none }).withdrawSet st
    else v) := by
    intro v st a
    split
    · exact (a.setStation (by intro e; cases e)).withdrawSet
    · exact a
  exact (f .b (f .a h.updateChange)).removeDecision

theorem lateChange (h : Evolves s t) {m : ChangeMark} {g : Nat} : Evolves s (t.lateChange m g) := by
  unfold State.lateChange
  split
  · exact h
  · next later _ =>
    split
    · exact h
    · have void : ∀ {v}, Evolves s v → Evolves s (match v.findChange later.uid with
        | some l =>
          match l.outgoing with
          | some lo => if lo.start = l.p then v.makeVoid m else v
          | none => v
        | none => v) := by
        intro v a
        repeat' split
        all_goals first | exact a.makeVoid | exact a
      refine void (Evolves.recheckAll ?_)
      have late : ∀ {v} {c : Prop} [Decidable c] {k : ErrorKind} {o : ErrorObject}, Evolves s v →
          Evolves s (if c then v.raise k o else v) := by
        intro v c _ k o a
        split
        · exact a.raise
        · exact a
      have drop : ∀ {v} {c : Prop} [Decidable c] {o : ErrorObject}, Evolves s v →
          Evolves s (if c then
            match v.provisional with
            | some (pr, pm) =>
              if pr.mark = later.uid && !pm.pinned then (v.raise .changeAbandoned o).curtailAndPin
              else v.raise .changeAbandoned o
            | none => v.raise .changeAbandoned o
          else v) := by
        intro v c _ o a
        repeat' split
        all_goals first | exact a.raise.curtailAndPin | exact a.raise | exact a
      exact drop (late h.updateChange.moveStart)

theorem decision (h : Evolves s t) {m : ChangeMark} : Evolves s (t.decision m) := by
  unfold State.decision
  repeat' split
  all_goals
    first
    | exact h
    | exact h.skipDecision
    | exact h.lateChange
    | exact h.exchange (by simp_all)

/-! ### The order book and the launch -/

theorem gradeActiveUp (h : Evolves s t) {n : Nat} : Evolves s (t.gradeActiveUp n) := h.updateGrade fun _ => rfl
theorem gradeActiveDown (h : Evolves s t) {n : Nat} : Evolves s (t.gradeActiveDown n) := h.updateGrade fun _ => rfl
theorem gradeRefUp (h : Evolves s t) {n : Nat} : Evolves s (t.gradeRefUp n) := h.updateGrade fun _ => rfl
theorem gradeRefDown (h : Evolves s t) {n : Nat} : Evolves s (t.gradeRefDown n) := h.updateGrade fun _ => rfl
theorem unlink (h : Evolves s t) {n : Nat} : Evolves s (t.unlink n) := h.setRunSeq
theorem linkHead (h : Evolves s t) {n : Nat} : Evolves s (t.linkHead n) := h.setRunSeq.updateOrder (by intro _; rfl)
theorem linkTail (h : Evolves s t) {n : Nat} : Evolves s (t.linkTail n) := h.setRunSeq.updateOrder (by intro _; rfl)
theorem linkAfter (h : Evolves s t) {a n : Nat} : Evolves s (t.linkAfter a n) := h.setRunSeq.updateOrder (by intro _; rfl)

theorem finishOrder (h : Evolves s t) {n : Nat} {o : OrderOutcome} : Evolves s (t.finishOrder n o) := by
  unfold State.finishOrder
  dsimp only
  repeat' split
  all_goals
    first
    | exact h
    | exact (h.updateOrder (by intro _; rfl)).gradeActiveDown
    | exact h.updateOrder (by intro _; rfl)

theorem dropContinuation (h : Evolves s t) {o : Order} : Evolves s (t.dropContinuation o) := by
  unfold State.dropContinuation; split
  · exact h.finishOrder
  · exact h.updateOrder (by intro _; rfl)

theorem pop (h : Evolves s t) : Evolves s t.pop := by
  unfold State.pop
  split
  · next e => exact (h.setSuspended (by simp [e])).updateOrder (by intro _; rfl)
  · exact h

theorem chooseFrom : ∀ (n : Nat) (t : State), Evolves t (State.chooseFrom n t).2
  | 0, t => refl t
  | n + 1, t => by
    unfold State.chooseFrom
    dsimp only
    repeat' split
    all_goals
      first
      | exact refl t
      | exact (refl t).pop
      | exact (refl t).pop.dropContinuation.trans (Evolves.chooseFrom n _)

theorem candidate (h : Evolves s t) : Evolves s t.candidate.2 := h.trans (chooseFrom _ _)

theorem bookLaunch (h : Evolves s t) {o : Order} : Evolves s (t.bookLaunch o) := by
  unfold State.bookLaunch
  dsimp only
  split
  · exact h.updateOrder (by intro _; rfl)
  · exact h.unlink.gradeActiveUp.updateOrder (by intro _; rfl)

theorem launch (h : Evolves s t) {o : Order} {c : Coord} (room : 0 < t.freeMarks) : Evolves s (t.launch o c) :=
  (h.bumpSerial.placeMark room).setPlanner.bookLaunch.recheckAll

theorem handPlans (h : Evolves s t) {m : Nat} {p g : Coord} {d : List (Stand × Nat)} :
    Evolves s (t.handPlans m p g d) := by
  unfold State.handPlans
  induction d generalizing t with
  | nil => exact h
  | cons x xs ih => exact ih h.planArrives

theorem handOff (h : Evolves s t) {m : Nat} {p g c : Coord} {n l : Nat} {d : List (Stand × Nat)} :
    Evolves s (t.handOff m p g c n l d) := h.enqueue.handPlans.addDecision

theorem becomeRunOut (h : Evolves s t) {m : ChangeMark} {o : Outgoing} {d : Bool} :
    Evolves s (t.becomeRunOut m o d) := by
  unfold State.becomeRunOut
  dsimp only
  split
  · exact h.updateChange.recheckAll.raise.enqueue
  · exact h.updateChange.recheckAll.enqueue

end Evolves

@[simp] theorem State.finishOrder_marks (s : State) (n : Nat) (o : OrderOutcome) : (s.finishOrder n o).marks = s.marks := by
  unfold State.finishOrder; dsimp only; repeat' split
  all_goals rfl

@[simp] theorem State.pop_marks (s : State) : s.pop.marks = s.marks := by
  unfold State.pop; split <;> rfl

@[simp] theorem State.dropContinuation_marks (s : State) (o : Order) : (s.dropContinuation o).marks = s.marks := by
  unfold State.dropContinuation; split
  · exact s.finishOrder_marks _ _
  · rfl

/-- R62: the choice of a candidate leaves the mark table as it was. -/
theorem State.chooseFrom_marks : ∀ (n : Nat) (s : State), (State.chooseFrom n s).2.marks = s.marks
  | 0, s => rfl
  | n + 1, s => by
    unfold State.chooseFrom
    dsimp only
    repeat' split
    all_goals
      first
      | rfl
      | exact s.pop_marks
      | exact (State.chooseFrom_marks n _).trans ((State.dropContinuation_marks _ _).trans s.pop_marks)

@[simp] theorem State.candidate_marks (s : State) : s.candidate.2.marks = s.marks := State.chooseFrom_marks _ _

@[simp] theorem State.updateChange_length (s : State) (n : Nat) (f : ChangeMark → ChangeMark) :
    (s.updateChange n f).marks.length = s.marks.length := by
  simp [State.updateChange]

/-- Separate events that each keep a reading of the state keep it together, in whatever order they are taken. -/
theorem takeEvents_kept {ε α : Type} {act : ε → State → State} (f : State → α) (d : ∀ s, f s.drawn = f s)
    (a : ∀ e s, f (act e s) = f s) (es : List ε) (s : State) : f (takeEvents act es s) = f s := by
  have r : ∀ (n : Nat) (es : List ε) (s : State), f (runEvents act n es s) = f s := by
    intro n
    induction n with
    | zero => intro es s; rfl
    | succ n ih =>
      intro es s
      match es with
      | [] => rfl
      | [e] => exact a e s
      | e :: g :: rest => simp only [runEvents, ih, a, d]
  exact r _ _ _

end Sys2Proof.Machine
end

