-- ==== Sys2Proof/Laws/SpliceFrame.lean ====
section
/-! SUPPORT. The reel check, the go, the arming and what calls them change the sequencers, the cap flag, the link, the error
unit and the model's two counters, and nothing else. -/

namespace Sys2Proof.Machine

open Sys2Proof

namespace SpliceFrame

variable {s t u : State}

theorem refl (s : State) : SpliceFrame s s := rfl

theorem trans (h : SpliceFrame s t) (g : SpliceFrame t u) : SpliceFrame s u := by
  unfold SpliceFrame at *
  rw [g, h]

theorem setSeq (h : SpliceFrame s t) {k : Stand} {q : Sequencer} : SpliceFrame s (t.setSeq k q) := h.trans rfl
theorem bumpSerial (h : SpliceFrame s t) : SpliceFrame s t.bumpSerial := h.trans rfl
theorem drawn (h : SpliceFrame s t) : SpliceFrame s t.drawn := h.trans rfl
theorem setCapFlag (h : SpliceFrame s t) {b : Bool} : SpliceFrame s { t with capFlag := b } := h.trans rfl
theorem raise (h : SpliceFrame s t) {k : ErrorKind} {o : ErrorObject} : SpliceFrame s (t.raise k o) := h.trans rfl

theorem enqueue (h : SpliceFrame s t) {c : Command} : SpliceFrame s (t.enqueue c) := by
  refine h.trans ?_
  unfold State.enqueue
  dsimp only
  repeat' split
  all_goals rfl

theorem runEvents {ε : Type} {act : ε → State → State} (a : ∀ e u, SpliceFrame u (act e u)) :
    ∀ (n : Nat) (es : List ε) (t : State), SpliceFrame t (runEvents act n es t)
  | 0, _, t => refl t
  | _ + 1, [], t => refl t
  | _ + 1, [x], t => a x t
  | n + 1, _ :: _ :: _, t => ((refl t).drawn.trans (a _ _)).trans (SpliceFrame.runEvents a n _ _)

theorem takeEvents {ε : Type} {act : ε → State → State} (h : SpliceFrame s t) {es : List ε}
    (a : ∀ e u, SpliceFrame u (act e u)) : SpliceFrame s (takeEvents act es t) :=
  h.trans (SpliceFrame.runEvents a _ _ _)

theorem capRelease (h : SpliceFrame s t) : SpliceFrame s t.capRelease := by
  unfold State.capRelease; split
  · exact h.setCapFlag.enqueue
  · exact h

theorem capRequest (h : SpliceFrame s t) : SpliceFrame s t.capRequest := by
  unfold State.capRequest; split
  · exact h.setCapFlag.enqueue
  · exact h

theorem released (h : SpliceFrame s t) {q : SeqState} : SpliceFrame s (t.released q) := by
  unfold State.released; split
  · exact h.capRelease
  · exact h

theorem checkReel (h : SpliceFrame s t) {k : Stand} : SpliceFrame s (t.checkReel k) := by
  unfold State.checkReel
  dsimp only
  repeat' split
  all_goals
    first
    | exact h
    | exact h.setSeq.bumpSerial.enqueue
    | exact h.setSeq.capRequest
    | exact h.setSeq
    | exact h.setSeq.capRelease

theorem recheck (h : SpliceFrame s t) {k : Stand} : SpliceFrame s (t.recheck k) := by
  unfold State.recheck; split
  · exact h.checkReel
  · exact h

/-- R108: the repeated checks of all waiting stands. -/
theorem recheckAll (h : SpliceFrame s t) : SpliceFrame s t.recheckAll := h.takeEvents fun _ v => (refl v).recheck

theorem goTest (h : SpliceFrame s t) {k : Stand} : SpliceFrame s (t.goTest k) := by
  unfold State.goTest
  repeat' split
  all_goals first | exact h.setSeq.bumpSerial.enqueue | exact h

/-- R109: the go tests at a change of line state. -/
theorem goTestAll (h : SpliceFrame s t) : SpliceFrame s t.goTestAll := h.takeEvents fun _ v => (refl v).goTest

theorem dueCheck (h : SpliceFrame s t) {k : Stand} : SpliceFrame s (t.dueCheck k) := by
  unfold State.dueCheck
  repeat' split
  all_goals first | exact h.checkReel | exact h

theorem armNow (h : SpliceFrame s t) {k : Stand} {x : SpliceKind} : SpliceFrame s (t.armNow k x) := by
  unfold State.armNow
  dsimp only
  split
  all_goals first | exact h.setSeq.checkReel | exact h

theorem lowReel (h : SpliceFrame s t) {k : Stand} : SpliceFrame s (t.lowReel k) := by
  unfold State.lowReel
  dsimp only
  split
  all_goals first | exact h.armNow | exact h

theorem lowReelIfLow (h : SpliceFrame s t) {k : Stand} : SpliceFrame s (t.lowReelIfLow k) := by
  unfold State.lowReelIfLow; split
  · exact h.lowReel
  · exact h

theorem settleIdle (h : SpliceFrame s t) {k : Stand} : SpliceFrame s (t.settleIdle k) := h.setSeq.released.lowReelIfLow

/-- R115: the next state of a stand. -/
theorem nextState (h : SpliceFrame s t) {k : Stand} : SpliceFrame s (t.nextState k) := by
  unfold State.nextState
  dsimp only
  split
  · exact h.settleIdle
  · split
    · exact h.setSeq.released.lowReel
    · exact h.setSeq.released.dueCheck

theorem marks (h : SpliceFrame s t) : t.marks = s.marks := by rw [h]
theorem orders (h : SpliceFrame s t) : t.orders = s.orders := by rw [h]
theorem grades (h : SpliceFrame s t) : t.grades = s.grades := by rw [h]
theorem reels (h : SpliceFrame s t) : t.reels = s.reels := by rw [h]
theorem runSeq (h : SpliceFrame s t) : t.runSeq = s.runSeq := by rw [h]
theorem suspended (h : SpliceFrame s t) : t.suspended = s.suspended := by rw [h]
theorem planner (h : SpliceFrame s t) : t.planner = s.planner := by rw [h]
theorem stations (h : SpliceFrame s t) : t.stations = s.stations := by rw [h]
theorem decisions (h : SpliceFrame s t) : t.decisions = s.decisions := by rw [h]
theorem knife (h : SpliceFrame s t) : t.knife = s.knife := by rw [h]
theorem preheaters (h : SpliceFrame s t) : t.preheaters = s.preheaters := by rw [h]
theorem glue (h : SpliceFrame s t) : t.glue = s.glue := by rw [h]
theorem odometer (h : SpliceFrame s t) : t.odometer = s.odometer := by rw [h]
theorem config (h : SpliceFrame s t) : t.config = s.config := by rw [h]
theorem receiver (h : SpliceFrame s t) : t.receiver = s.receiver := by rw [h]
theorem inputs (h : SpliceFrame s t) : t.inputs = s.inputs := by rw [h]

end SpliceFrame

theorem State.recheckAll_frame (s : State) : SpliceFrame s s.recheckAll := (SpliceFrame.refl s).recheckAll

end Sys2Proof.Machine
end

