-- ==== Sys2Proof/Laws/Events.lean ====
section
/-! SUPPORT. The freeze, the line start, the closing, the knife counter, the bond controller, the reel monitor and the joint
evolve (Laws/Evolves.lean), and so does each event of a forward count and of a window close. -/

namespace Sys2Proof.Machine

open Sys2Proof

theorem State.freeMarks_eq {s t : State} (h : t.marks.length = s.marks.length) : t.freeMarks = s.freeMarks := by
  simp only [State.freeMarks, h]

@[simp] theorem State.bumpSerial_freeMarks (s : State) : s.bumpSerial.freeMarks = s.freeMarks := rfl

theorem State.placeMark_freeMarks (s : State) (m : Mark) : (s.placeMark m).freeMarks = s.freeMarks - 1 := by
  simp only [State.freeMarks, State.placeMark_marks, insertMark_length]; omega

namespace Evolves

variable {s t u : State}

/-! ### Freeze, line start, closing -/

theorem freeze (h : Evolves s t) {m : ChangeMark} : Evolves s (t.freeze m) := by
  unfold State.freeze
  split
  · exact h
  · next o _ =>
    have g : Evolves s { t.updateChange m.uid fun x => { (x.setCross .freeze .done) with state := .frozen } with
        planner := none } := h.updateChange.setPlanner
    have len : State.freeMarks { t.updateChange m.uid fun x => { (x.setCross .freeze .done) with state := .frozen } with
        planner := none } = t.freeMarks := State.freeMarks_eq (State.updateChange_length _ _ _)
    dsimp only
    split
    · exact g.becomeRunOut
    · split
      · exact g.becomeRunOut
      · next room =>
        have c := g.candidate
        have cm := State.freeMarks_eq (congrArg List.length (State.candidate_marks
          { t.updateChange m.uid fun x => { (x.setCross .freeze .done) with state := .frozen } with planner := none }))
        split
        · next e => rw [e] at c; exact c.becomeRunOut
        · next e =>
          rw [e] at c cm
          split
          · exact c.becomeRunOut
          · refine Evolves.handOff (c.updateChange.launch ?_)
            rw [State.freeMarks_eq (State.updateChange_length _ _ _), cm]
            exact Nat.pos_of_ne_zero room

theorem lineStart (h : Evolves s t) {o : Order} (room : 2 ≤ t.freeMarks) : Evolves s (t.lineStart o) := by
  unfold State.lineStart
  refine Evolves.handOff (Evolves.launch (h.bumpSerial.placeMark ?_) ?_)
  · rw [State.bumpSerial_freeMarks]; omega
  · rw [State.placeMark_freeMarks, State.bumpSerial_freeMarks]; omega

theorem setSplit (h : Evolves s t) {l : List SplitEntry} :
    Evolves s { t with knife := { t.knife with split := l } } :=
  h.trans { refl t with }

theorem closeRunOut (h : Evolves s t) {m : ChangeMark} {o : Order} (room : 0 < t.freeMarks) :
    Evolves s (t.closeRunOut m o) := by
  unfold State.closeRunOut
  split
  · exact h
  · dsimp only
    refine Evolves.addDecision (Evolves.handPlans (Evolves.setSplit (Evolves.enqueue (Evolves.launch ?_ ?_))))
    · exact h.updateChange.recheckAll
    · rw [State.freeMarks_eq ((congrArg List.length (State.recheckAll_frame _).marks).trans
        (State.updateChange_length _ _ _))]
      exact room

theorem attemptLaunch (h : Evolves s t) : Evolves s t.attemptLaunch.2 := by
  have c := h.candidate
  have cm := State.freeMarks_eq (congrArg List.length (State.candidate_marks t))
  unfold State.attemptLaunch
  rcases e : t.candidate with ⟨n, u⟩
  rw [e] at c cm
  dsimp only at c cm
  repeat' split
  all_goals try simp only [Prod.mk.injEq] at *
  all_goals
    first
    | exact h
    | (obtain ⟨-, rfl⟩ := ‹_ ∧ _›; first | exact c | exact c.closeRunOut (by omega) | exact c.lineStart (by omega))

/-! ### The knife counter -/

theorem knifeOnly (h : Evolves s t) {f : Knife → Knife} (b : (f t.knife).outstanding = t.knife.outstanding)
    (c : (f t.knife).lag.length ≤ t.knife.lag.length) : Evolves s (t.setKnife f) :=
  h.setKnife (by rw [b]; exact le_max_left _ _) (le_max_of_le_left c)

theorem clearFill (h : Evolves s t) {n : Nat} : Evolves s (t.clearFill n) := h.updateOrder (by intro _; rfl)

theorem queueChange (h : Evolves s t) {n k c : Nat} {f : Bool} (room : t.knife.outstanding < 2) :
    Evolves s (t.queueChange n k c f) := by
  unfold State.queueChange
  refine h.enqueue.setKnife ?_ (le_max_left _ _)
  have : (t.enqueue (.stackChange n k c f)).knife = t.knife := by
    unfold State.enqueue; dsimp only; repeat' split
    all_goals rfl
  simp only [this]; omega

theorem countStack (h : Evolves s t) {n : Nat} : Evolves s (t.countStack n) := h.updateOrder (by intro _; rfl)

theorem issueChange (h : Evolves s t) {n k c : Nat} {f : Bool} (room : t.knife.outstanding < 2) :
    Evolves s (t.issueChange n k c f) := (h.queueChange room).countStack

theorem countPostponed (h : Evolves s t) {p : Postponed} : Evolves s (t.countPostponed p) := by
  unfold State.countPostponed
  repeat' split
  all_goals first | exact h.countStack.drawn | exact h.countStack | exact h.drawn | exact h

theorem stackTest (h : Evolves s t) {n : Nat} : Evolves s (t.stackTest n) := by
  unfold State.stackTest
  dsimp only
  repeat' split
  all_goals
    first
    | exact h
    | exact (h.issueChange (by assumption)).clearFill
    | exact h.setPostponed.raise

theorem closeStack (h : Evolves s t) {n : Nat} : Evolves s (t.closeStack n) := by
  unfold State.closeStack
  repeat' split
  all_goals
    first
    | exact h
    | exact (h.issueChange (by assumption)).clearFill
    | exact h.setPostponed.clearFill.raise
    | exact h.setPostponed.clearFill
    | exact h.raise

theorem issuePostponed (h : Evolves s t) (room : t.knife.outstanding < 2) : Evolves s t.issuePostponed := by
  unfold State.issuePostponed
  dsimp only
  repeat' split
  all_goals
    first
    | exact h
    | exact (h.setPostponed.queueChange (by exact room)).countPostponed
    | exact (h.setPostponed.queueChange (by exact room)).countPostponed.clearFill
    | exact h.setPostponed.queueChange (by exact room)

theorem bookSegmentEnd (h : Evolves s t) {n : Nat} : Evolves s (t.bookSegmentEnd n) := by
  unfold State.bookSegmentEnd
  dsimp only
  repeat' split
  all_goals
    first
    | exact h
    | exact (h.updateOrder (by intro _; rfl)).finishOrder
    | exact (h.updateOrder (by intro _; rfl)).updateOrder (by intro _; rfl)
    | exact h.updateOrder (by intro _; rfl)

theorem endSegment (h : Evolves s t) {m : ChangeMark} : Evolves s (t.endSegment m) := by
  unfold State.endSegment; split
  · exact h.closeStack.bookSegmentEnd
  · exact h

theorem gridStep1 (h : Evolves s t) {g : Grid} : Evolves s (t.gridStep1 g).1 := by
  unfold State.gridStep1
  repeat' split
  all_goals first | exact h.endSegment | exact h

theorem gridStep2 (h : Evolves s t) {n : Coord} {p : GridPos} : Evolves s (t.gridStep2 n p).1 := by
  unfold State.gridStep2
  dsimp only
  repeat' split
  all_goals first | exact h.endSegment | exact h

theorem advanceGrid (h : Evolves s t) {g : Grid} : Evolves s (t.advanceGrid g) := by
  unfold State.advanceGrid
  dsimp only
  refine Evolves.knifeOnly (Evolves.knifeOnly h.gridStep1.gridStep2 rfl le_rfl) rfl ?_
  exact List.length_filter_le _ _

theorem chargeSheet (h : Evolves s t) {g : Grid} {j : Judgment} : Evolves s (t.chargeSheet g j) := by
  unfold State.chargeSheet
  repeat' split
  all_goals
    first
    | exact h
    | exact h.updateChange
    | exact h.updateOrder (by intro _; rfl)
    | exact (h.updateOrder (by intro _; rfl)).stackTest

theorem judge (h : Evolves s t) {g : Grid} {j : Judgment} {e : Bool} : Evolves s (t.judge g j e) := by
  unfold State.judge
  dsimp only
  split
  · exact h.chargeSheet.raise.advanceGrid
  · exact h.chargeSheet.advanceGrid

theorem missOverdue : ∀ (n : Nat) (c : Coord) (t : State), Evolves t (State.missOverdue n c t)
  | 0, _, t => refl t
  | n + 1, c, t => by
    unfold State.missOverdue
    repeat' split
    all_goals first | exact refl t | exact (refl t).judge.trans (Evolves.missOverdue n c _)

theorem overdueTest (h : Evolves s t) : Evolves s t.overdueTest := by
  unfold State.overdueTest; split
  · exact h
  · exact h.trans (missOverdue _ _ _)

theorem setSpoiled (h : Evolves s t) {g : Option Grid} : Evolves s { t with knife := { t.knife with grid := g } } :=
  h.trans { refl t with }

theorem matchCut (h : Evolves s t) {c : Coord} : Evolves s (t.matchCut c) := by
  unfold State.matchCut
  split
  · exact h
  · split
    · exact h.setSpoiled.raise
    · split
      · exact h.judge
      · exact h.judge

theorem cutPulse (h : Evolves s t) : Evolves s t.cutPulse := by
  unfold State.cutPulse; split
  · exact h.raise
  · exact (h.trans (missOverdue _ _ _)).matchCut

theorem passOwner (h : Evolves s t) : Evolves s t.passOwner := by
  unfold State.passOwner
  repeat' split
  all_goals first | exact h | exact h.knifeOnly rfl le_rfl

theorem knifeCrossing (h : Evolves s t) {m : ChangeMark} : Evolves s (t.knifeCrossing m) := by
  unfold State.knifeCrossing
  repeat' split
  all_goals first | exact h | exact h.knifeOnly rfl le_rfl

theorem stackTaken (h : Evolves s t) (b : t.knife.outstanding ≤ 2) : Evolves s t.stackTaken := by
  unfold State.stackTaken
  split
  · exact h.raise
  · next z =>
    refine (h.setKnife (f := fun k => { k with outstanding := k.outstanding - 1 }) ?_ (le_max_left _ _)).issuePostponed ?_
    · simp only; omega
    · simp only [State.setKnife_knife]; omega

/-! ### The bond controller -/

theorem regap (h : Evolves s t) {g : GlueUnit} : Evolves s (t.regap g) := by
  unfold State.regap
  dsimp only
  split
  · exact h
  · exact h.setGlue.enqueue

theorem jointAt (h : Evolves s t) {g : GlueUnit} : Evolves s (t.jointAt g) := h.setGlue.regap

theorem endBump (h : Evolves s t) {g : GlueUnit} : Evolves s (t.endBump g) := by
  unfold State.endBump; split
  · exact h.setGlue.regap
  · exact h

theorem firstValue (h : Evolves s t) {x : BondUnit} {l : Option Nat} {v : Nat} : Evolves s (t.firstValue x l v) := by
  unfold State.firstValue; split
  · exact h.enqueue
  · exact h

theorem switchPreheater (h : Evolves s t) {k : Stand} {g : Grade} : Evolves s (t.switchPreheater k g) :=
  (h.setPreheater (by exact le_max_left _ _) (by exact fun _ => Or.inr)).firstValue

theorem switchGlue (h : Evolves s t) {x : GlueUnit} {g : Grade} : Evolves s (t.switchGlue x g) :=
  h.setGlue.regap.firstValue

end Evolves

theorem Curve.target_le (c : Curve) (v : Nat) : c.target v ≤ 1000 := by
  unfold Curve.target
  dsimp only
  generalize (if v ≤ 10 * c.b0.speed then (c.b0.wrap : Int) else _) = w
  omega

theorem slewToward_le (o t n : Nat) : slewToward o t n ≤ max o t := by
  unfold slewToward; split <;> omega

namespace Evolves

variable {s t u : State}

theorem slewStep (h : Evolves s t) {k : Stand} : Evolves s (t.slewStep k) := by
  unfold State.slewStep
  dsimp only
  split
  · exact h
  · next a _ =>
    have le := slewToward_le (t.preheaters.get k).output (a.curve.target t.speed) (wrapSlew t.config)
    have tl := a.curve.target_le t.speed
    have g : Evolves s (t.setPreheater k { t.preheaters.get k with
        target := some (a.curve.target t.speed)
        output := slewToward (t.preheaters.get k).output (a.curve.target t.speed) (wrapSlew t.config) }) :=
      h.setPreheater (by simp only; omega) (by intro v e; simp only [Option.some.injEq] at e; omega)
    split
    · exact g
    · exact g.enqueue

theorem refreshUnit (h : Evolves s t) {x : BondUnit} : Evolves s (t.refreshUnit x) := by
  unfold State.refreshUnit; split
  · exact h.enqueue
  · exact h

theorem refreshAll (h : Evolves s t) : Evolves s t.refreshAll := h.takeEvents fun _ v => (refl v).refreshUnit

/-! ### Reels and joints -/

theorem readyChanged (h : Evolves s t) {k : Stand} {p : Pos} : Evolves s (t.readyChanged k p) := by
  unfold State.readyChanged; split
  · exact h.recheck
  · exact h

theorem identityCheck (h : Evolves s t) {k : Stand} {p : Pos} {i d : Nat} {a : Announcement} :
    Evolves s (t.identityCheck k p i d a) := by
  unfold State.identityCheck; split
  · exact h.setSlot
  · exact h.setSlot.raise

theorem verifyAgain (h : Evolves s t) {k : Stand} {p : Pos} {r : Paper} {a : Announcement} :
    Evolves s (t.verifyAgain k p r a) := by
  unfold State.verifyAgain
  dsimp only
  repeat' split
  all_goals first | exact h.identityCheck.setSlot.drawn | exact h.identityCheck

theorem reelLoaded (h : Evolves s t) {k : Stand} {p : Pos} {i : Nat} : Evolves s (t.reelLoaded k p i) := by
  unfold State.reelLoaded
  split
  all_goals first | exact h.setSlot.readyChanged | exact h.identityCheck.readyChanged | exact h.raise

theorem reelRemoved (h : Evolves s t) {k : Stand} {p : Pos} : Evolves s (t.reelRemoved k p) := by
  unfold State.reelRemoved
  dsimp only
  split
  all_goals first | exact h.setSlot.readyChanged | exact h.raise

theorem afterRecompute (h : Evolves s t) {k : Stand} {b : Bool} : Evolves s (t.afterRecompute k b) :=
  h.lowIfNew.runOutIfEmpty

theorem diameterReport (h : Evolves s t) {k : Stand} {p : Pos} {d : Nat} : Evolves s (t.diameterReport k p d) := by
  unfold State.diameterReport
  dsimp only
  repeat' split
  all_goals first | exact h.raise | exact h.setSlot.afterRecompute | exact h.setSlot

theorem announce (h : Evolves s t) {k : Stand} {p : Pos} {a : Announcement} : Evolves s (t.announce k p a) := by
  unfold State.announce
  refine Evolves.readyChanged ?_
  split
  all_goals first | exact h.setSlot | exact h.identityCheck | exact h.verifyAgain | exact h

theorem afterThread (h : Evolves s t) {k : Stand} : Evolves s (t.afterThread k) := by
  unfold State.afterThread
  dsimp only
  refine Evolves.runOutIfEmpty (Evolves.lowReelIfLow (Evolves.recheck ?_))
  repeat' split
  all_goals first | exact h.setSeq.clearSatisfied | exact h.setSeq

theorem staleTest (h : Evolves s t) {k : Stand} : Evolves s (t.staleTest k) := by
  unfold State.staleTest
  repeat' split
  all_goals first | exact h | exact h.setSlot.raise

theorem staleAdvance (h : Evolves s t) {k : Stand} : Evolves s (t.staleAdvance k) := by
  unfold State.staleAdvance
  repeat' split
  all_goals first | exact h | exact h.setSlot

theorem jointMark (h : Evolves s t) {k : Stand} {j : Coord} : Evolves s (t.jointMark k j) := by
  unfold State.jointMark
  dsimp only
  split
  · next r => exact h.bumpSerial.placeCullMark r
  · exact h.raise

theorem roleSwap (h : Evolves s t) {k : Stand} : Evolves s (t.roleSwap k) := by
  unfold State.roleSwap
  repeat' split
  all_goals first | exact h | exact h.setSlot | exact h.setSlot.setSlot

theorem jointGap (h : Evolves s t) {k : Stand} {j : Coord} {p : Plan} : Evolves s (t.jointGap k j p) := by
  unfold State.jointGap
  dsimp only
  repeat' split
  all_goals first | exact h | exact h.placeGap

theorem gradeCheck (h : Evolves s t) {k : Stand} {j : Coord} : Evolves s (t.gradeCheck k j) := by
  unfold State.gradeCheck
  repeat' split
  all_goals first | exact h | exact h.setPlan.jointGap

theorem afterJoint (h : Evolves s t) {k : Stand} {e : AfterJoint} : Evolves s (t.afterJoint k e) := by
  cases e
  · exact h.runOutIfEmpty
  · exact h.handDeferred

theorem jointPulse (h : Evolves s t) {k : Stand} : Evolves s (t.jointPulse k) := by
  unfold State.jointPulse
  dsimp only
  refine Evolves.takeEvents ?_ fun _ v => (refl v).afterJoint
  split
  · refine Evolves.gradeCheck (Evolves.roleSwap ?_)
    split
    · exact h.jointMark.setSeq.setSeq.withdrawGo
    · exact h.jointMark.setSeq
  · refine Evolves.nextState (Evolves.gradeCheck (Evolves.roleSwap ?_))
    split
    · exact h.jointMark.setSeq.setSeq.withdrawGo
    · exact h.jointMark.setSeq

theorem spliceTimeout (h : Evolves s t) {k : Stand} : Evolves s (t.spliceTimeout k) := by
  unfold State.spliceTimeout; split
  · exact h.raise.enterFault
  · exact h

/-! ### Stations -/

theorem setPositions (h : Evolves s t) {st : Station} {l : List Nat} : Evolves s (t.setPositions st l) := by
  unfold State.setPositions State.verifyFail
  dsimp only
  repeat' split
  all_goals
    first
    | exact h.setStation (by intro e; cases e)
    | exact (h.setStation (by exact id)).queueSet
    | exact h.faultStation.raise
    | exact h.raise

theorem setTimeout (h : Evolves s t) {st : Station} : Evolves s (t.setTimeout st) := by
  unfold State.setTimeout; split
  · exact h.faultStation.raise
  · exact h

theorem clearStation (h : Evolves s t) {st : Station} : Evolves s (t.clearStation st) :=
  (h.setStation (by intro e; cases e)).walk

/-! ### The link -/

theorem arbiterTake (h : Evolves s t) : Evolves s t.arbiterTake := by
  refine h.setLink fun c => ?_
  unfold Link.taken
  split
  · next d _ _ =>
    split
    · next x rest e =>
      by_cases n : c = d
      · subst n
        have : ({ t.link.setQueue c rest with place := some x } : Link).queue c = rest := by cases c <;> rfl
        rw [this, e]; simp only [List.length_cons]; omega
      · have : ({ t.link.setQueue d rest with place := some x } : Link).queue c = t.link.queue c := by
          cases c <;> cases d <;> first | rfl | exact absurd rfl n
        rw [this]; exact le_max_left _ _
    · exact le_max_left _ _
  · exact le_max_left _ _

theorem goSent (h : Evolves s t) {k : Stand} {n : Nat} : Evolves s (t.goSent k n) := by
  unfold State.goSent
  dsimp only
  split
  · exact h.setSeq
  · exact h

theorem setSent (h : Evolves s t) {st : Station} {n : Nat} : Evolves s (t.setSent st n) := by
  unfold State.setSent
  dsimp only
  split
  · exact h.setStation (by exact id)
  · exact h

theorem lateExchange (h : Evolves s t) {x : Option Coord} : Evolves s (t.lateExchange x) := by
  unfold State.lateExchange
  split
  · exact h
  · split
    · next e =>
      refine h.setKnife (le_max_left _ _) ?_
      have len : ∀ (o : Coord) (e : LagEntry) (l : List LagEntry), (insertLag o e l).length = l.length + 1 := by
        intro o e l
        induction l with
        | nil => rfl
        | cons y ys ih => simp only [insertLag]; split <;> simp [ih]
      have := of_decide_eq_true (Bool.and_eq_true_iff.mp e).2
      simp only [Config.lagDepth] at this
      simp only [len]; omega
    · exact h

theorem exchangeSent (h : Evolves s t) {st : Station} {x : Option Coord} {n : Nat} :
    Evolves s (t.exchangeSent st x n) := by
  unfold State.exchangeSent
  dsimp only
  split
  · exact (h.setStation (by exact id)).lateExchange
  · exact h.lateExchange

theorem setpointSent (h : Evolves s t) {x : BondUnit} {v : Nat} : Evolves s (t.setpointSent x v) := by
  unfold State.setpointSent; split
  · exact h.setPreheater (by exact le_max_left _ _) (by exact fun _ => Or.inr)
  · exact h.setGlue

/-! ### Counts and closes -/

theorem jointCrossDone (h : Evolves s t) {n : Nat} {c : Cross} : Evolves s (t.jointCrossDone n c) :=
  h.setMarks (by simp)

theorem fireChange (h : Evolves s t) {m : ChangeMark} {c : Cross} : Evolves s (t.fireChange m c) := by
  unfold State.fireChange
  dsimp only
  repeat' split
  all_goals
    first
    | exact h.freeze
    | exact h.updateChange
    | exact h.updateChange.switchPreheater
    | exact h.updateChange.switchGlue
    | exact h.updateChange.decision
    | exact h.updateChange.knifeCrossing

theorem fire (h : Evolves s t) {m : Mark} {c : Cross} : Evolves s (t.fire m c) := by
  unfold State.fire; split
  · exact h.fireChange
  · exact h.jointCrossDone.jointAt
  · exact h

theorem retire (h : Evolves s t) {m : Mark} : Evolves s (t.retire m) := by
  unfold State.retire; split
  · exact h.countRebase.dropMark
  · exact h.dropMark

theorem rebase (h : Evolves s t) {m : ChangeMark} (a : t.hasMark m.uid) : Evolves s (t.rebase m) := by
  unfold State.rebase
  dsimp only
  split
  · exact h.replaceChange (by rfl) a
  · exact h

theorem countEvent (h : Evolves s t) {e : CountEvent} : Evolves s (t.countEvent e) := by
  cases e <;> simp only [State.countEvent]
  case low => exact h.lowReelIfLow
  case runOut => exact h.runOutIfEmpty
  case bumpEnd => exact h.endBump
  case due => exact h.dueCheck
  case check => exact h.recheck
  case owner => exact h.passOwner
  case overdue => exact h.overdueTest
  all_goals repeat' split
  all_goals
    first
    | exact h
    | exact h.fire
    | exact h.retire
    | exact h.rebase (findChange_hasMark (by assumption))

theorem countDown (h : Evolves s t) {k : Stand} : Evolves s (t.countDown k) := by
  unfold State.countDown
  repeat' split
  all_goals first | exact h | exact h.setSlot

theorem countDownAll (h : Evolves s t) : Evolves s t.countDownAll :=
  h.countDown.countDown.countDown.countDown.countDown

theorem capAtClose (h : Evolves s t) : Evolves s t.capAtClose := by
  unfold State.capAtClose; split
  · exact h.capRequest
  · exact h

theorem closeEvent (h : Evolves s t) {e : CloseEvent} : Evolves s (t.closeEvent e) := by
  cases e
  · exact h.goTest
  · exact h.capAtClose
  · exact h.staleTest

theorem staleAdvanceAll (h : Evolves s t) : Evolves s t.staleAdvanceAll := by
  unfold State.staleAdvanceAll; split
  · exact h
  · exact h.staleAdvance.staleAdvance.staleAdvance.staleAdvance.staleAdvance

theorem slewAll (h : Evolves s t) : Evolves s t.slewAll := h.takeEvents fun _ v => (refl v).slewStep

/-! ### LINE RESET -/

theorem flushLink (h : Evolves s t) : Evolves s t.flushLink :=
  h.setLink fun c => by cases c <;> exact le_max_left _ _

theorem resetBook (h : Evolves s t) : Evolves s t.resetBook := by
  refine h.trans { refl t with stack := Nat.zero_le _, orders := ?_, grades := ?_ }
  · simp only [State.resetBook, List.map_map]
    refine List.map_congr_left fun o _ => ?_
    simp only [Function.comp, Order.afterLineReset]; split <;> rfl
  · simp only [State.resetBook, List.map_map]; rfl

theorem lowIfIdle (h : Evolves s t) {k : Stand} : Evolves s (t.lowIfIdle k) := by
  unfold State.lowIfIdle; split
  · exact h.lowReelIfLow
  · exact h

theorem resetCap (h : Evolves s t) : Evolves s t.resetCap := by
  unfold State.resetCap; split
  · exact h.setCapFlag.enqueue
  · exact h

theorem resetSplice (h : Evolves s t) : Evolves s t.resetSplice :=
  h.setSeqs.resetCap.takeEvents fun _ v => (refl v).lowIfIdle

theorem immediateExchange (h : Evolves s t) : Evolves s t.immediateExchange := by
  unfold State.immediateExchange
  repeat' split
  all_goals first | exact h | exact h.queueExchange

theorem resetSlitter (h : Evolves s t) : Evolves s t.resetSlitter := by
  unfold State.resetSlitter
  refine Evolves.immediateExchange (h.trans ?_)
  refine { refl t with engaged := fun one => ?_ }
  have back : ∀ x : SlitterStation, x.afterLineReset.state = .engaged → x.state = .engaged := by
    intro x e
    unfold SlitterStation.afterLineReset at e
    split at e <;> simp_all
  exact fun b => one ⟨back _ b.1, back _ b.2⟩

theorem dropBump (h : Evolves s t) {g : GlueUnit} : Evolves s (t.dropBump g) := by
  unfold State.dropBump; split
  · exact h.setGlue.regap
  · exact h

theorem resetBlock (h : Evolves s t) {b : ResetBlock} : Evolves s (t.resetBlock b) := by
  cases b <;> simp only [State.resetBlock]
  · exact h.setMarks (Nat.zero_le _)
  · exact h.resetBook
  · exact h.setPlanner
  · exact h.resetSplice
  · exact h.resetSlitter
  · exact h.trans { refl t with outstanding := Nat.zero_le _, lag := Nat.zero_le _ }
  · exact h.takeEvents fun _ v => (refl v).dropBump

theorem lineReset (h : Evolves s t) : Evolves s t.lineReset := h.flushLink.takeEvents fun _ v => (refl v).resetBlock

end Evolves

/-- R1: a forward count moves the odometer, Δ and the reverse-run flag by itself, and the rest evolves. -/
theorem State.forwardCount_evolves (s : State) : Evolves s.advance s.forwardCount :=
  (Evolves.refl _).countDownAll.takeEvents fun _ v => (Evolves.refl v).countEvent

/-- R3, R4: a window close sets speed, Δ, z and the condition by itself, and the rest evolves. -/
theorem State.windowClose_evolves (s : State) : Evolves s.closeWindow s.windowClose :=
  (((Evolves.refl _).staleAdvanceAll).takeEvents fun _ v => (Evolves.refl v).closeEvent).slewAll

end Sys2Proof.Machine
end

