-- ==== Sys2Proof/Laws/Port.lean ====
section
/-! SUPPORT. What the bits of an exchange are (R189): the bits of bytes complete those bytes and an incomplete last byte is
lost, and SDO carries the bits of what the port shifts out while CSn is low, and nothing while it is high. -/

namespace Sys2Proof.Machine

open Sys2Proof

theorem length_bitsOfBytes (bs : List Byte) : (bitsOfBytes bs).length = 8 * bs.length := by
  simp [bitsOfBytes, bitsOfByte, List.length_flatMap]; omega

theorem ofBoolListBE_bitsOfByte (b : Byte) : BitVec.ofBoolListBE (bitsOfByte b) = b := by
  apply BitVec.eq_of_getMsbD_eq
  intro i h
  match i with
  | 0 | 1 | 2 | 3 | 4 | 5 | 6 | 7 => simp [bitsOfByte, BitVec.ofBoolListBE]
  | _ + 8 => simp [bitsOfByte] at h

theorem bytesOfBits_incomplete : ∀ (bits : List Bool), bits.length < 8 → bytesOfBits bits = []
  | [], _ | [_], _ | [_, _], _ | [_, _, _], _ | [_, _, _, _], _ | [_, _, _, _, _], _ | [_, _, _, _, _, _], _
  | [_, _, _, _, _, _, _], _ => rfl
  | _ :: _ :: _ :: _ :: _ :: _ :: _ :: _ :: _, h => by simp at h; omega

/-- The bits of bytes and fewer than eight more complete those bytes. -/
theorem bytesOfBits_bitsOfBytes (bs : List Byte) (rest : List Bool) (h : rest.length < 8) :
    bytesOfBits (bitsOfBytes bs ++ rest) = bs := by
  induction bs with
  | nil => simpa [bitsOfBytes] using bytesOfBits_incomplete rest h
  | cons b bs ih =>
    have e := ofBoolListBE_bitsOfByte b
    simp only [bitsOfBytes, List.flatMap_cons] at ih ⊢
    simp only [bitsOfByte, List.cons_append, List.nil_append, bytesOfBits] at e ih ⊢
    exact congrArg₂ _ e ih

theorem sdo_high (s : State) (edge : Nat) : s.sdo false edge = none := rfl

theorem getD_bitsOfBytes_append_zeros (bs : List Byte) (n i : Nat) :
    (bitsOfBytes (bs ++ List.replicate n 0#8)).getD i false = (bitsOfBytes bs).getD i false := by
  have z : ∀ n, bitsOfBytes (List.replicate n 0#8) = List.replicate (8 * n) false := by
    intro n
    induction n with
    | zero => rfl
    | succ n ih =>
      simp only [bitsOfBytes, List.replicate_succ, List.flatMap_cons] at ih ⊢
      rw [ih, Nat.mul_succ, Nat.add_comm, List.replicate_add]; rfl
  have e : bitsOfBytes (bs ++ List.replicate n 0#8) = bitsOfBytes bs ++ List.replicate (8 * n) false := by
    rw [← z]; simp [bitsOfBytes]
  rw [e]
  simp only [List.getD_eq_getElem?_getD, List.getElem?_append, List.getElem?_replicate]
  split
  · rfl
  · rename_i h; split <;> simp [List.getElem?_eq_none (Nat.le_of_not_lt h)]

/-- Over an exchange of n bytes the host samples on SDO the bits of what the port shifts out. -/
theorem sdo_shiftedOut (s : State) (n edge : Nat) (h : edge < 8 * n) :
    s.sdo true edge = some ((bitsOfBytes (s.shiftedOut n)).getD edge false) := by
  have e : ∀ bs : List Byte, (bitsOfBytes (bs.take n)).getD edge false = (bitsOfBytes bs).getD edge false := by
    intro bs
    conv => rhs; rw [← List.take_append_drop n bs]
    by_cases l : bs.length ≤ n
    · simp [List.take_of_length_le l, List.drop_eq_nil_of_le l]
    · have : edge < (bitsOfBytes (bs.take n)).length := by rw [length_bitsOfBytes]; simp; omega
      simp only [bitsOfBytes, List.flatMap_append] at this ⊢
      simp only [List.getD_eq_getElem?_getD, List.getElem?_append_left this]
  rw [State.sdo, if_pos rfl, State.shiftedOut, getD_bitsOfBytes_append_zeros, e]

end Sys2Proof.Machine
end

