-- ==== Sys2Proof/Laws/Receiver.lean ====
section
/-! SUPPORT. What the report receiver makes of the levels and the bytes of a frame (R174): the bytes that levels hold are read
back, a level at rest is a bit time without a byte, a frame is read back from its bytes, it is complete with its last check
byte and not before, bytes may arrive in pieces, and a frame that rests for more than 100 bit times is ended. -/

namespace Sys2Proof.Machine

open Sys2Proof

theorem arrivedByte_stopped (b : Byte) :
    arrivedByte (if Config.linkMsbFirst then bitsOfByte b else (bitsOfByte b).reverse) (!Config.linkStartLevel)
      = some b := by
  have e : BitVec.ofBoolListBE (bitsOfByte b) = b := ofBoolListBE_bitsOfByte b
  have s : ¬ (!Config.linkStartLevel) = Config.linkStartLevel := by cases Config.linkStartLevel <;> decide
  have r : (if Config.linkMsbFirst then (if Config.linkMsbFirst then bitsOfByte b else (bitsOfByte b).reverse)
      else (if Config.linkMsbFirst then bitsOfByte b else (bitsOfByte b).reverse).reverse) = bitsOfByte b := by
    cases Config.linkMsbFirst <;> simp
  rw [arrivedByte, r]
  simp only [bitsOfByte] at e ⊢
  rw [if_neg s]
  exact congrArg some e

/-- Eight data bits and a stop bit behind a start bit make the byte of the data bits. -/
theorem scanLevels_data (data rest : List Bool) (stop : Bool) (h : data.length = 8) :
    scanLevels (some []) (data ++ stop :: rest) = heardAs (arrivedByte data stop) ++ scanLevels none rest := by
  match data, h with
  | [_, _, _, _, _, _, _, _], _ => rfl

theorem scanLevels_linkBits (b : Byte) (rest : List Bool) :
    scanLevels none (linkBits b ++ rest) = some b :: scanLevels none rest := by
  have l : (if Config.linkMsbFirst then bitsOfByte b else (bitsOfByte b).reverse).length = 8 := by
    split <;> simp [bitsOfByte]
  rw [linkBits, List.cons_append, scanLevels, if_pos rfl, List.append_assoc, List.singleton_append,
    scanLevels_data _ _ _ l, arrivedByte_stopped]
  rfl

/-- The bytes are read back from their bits, and what follows them is read on. -/
theorem heardAtLnkRx_append (bytes : List Byte) (rest : List Bool) :
    heardAtLnkRx (linkBitsOf bytes ++ rest) = bytes.map some ++ heardAtLnkRx rest := by
  induction bytes with
  | nil => rfl
  | cons b bs ih =>
    simp only [heardAtLnkRx, linkBitsOf, List.flatMap_cons, List.append_assoc] at ih ⊢
    rw [scanLevels_linkBits, ih]; rfl

/-- A pair at rest brings bit times without a byte. -/
theorem heardAtLnkRx_rest (n : Nat) (levels : List Bool) :
    heardAtLnkRx (List.replicate n (!Config.linkStartLevel) ++ levels) = List.replicate n none ++ heardAtLnkRx levels := by
  have s : ¬ (!Config.linkStartLevel) = Config.linkStartLevel := by cases Config.linkStartLevel <;> decide
  induction n with
  | zero => rfl
  | succ n ih =>
    rw [List.replicate_succ, List.cons_append, heardAtLnkRx, scanLevels, if_neg s]
    exact congrArg (none :: ·) ih

theorem heardAtLnkRx_linkBitsOf (bytes : List Byte) : heardAtLnkRx (linkBitsOf bytes) = bytes.map some := by
  have e : heardAtLnkRx [] = [] := rfl
  simpa [e] using heardAtLnkRx_append bytes []

theorem frameOf_checked (f : LinkFrame) (check : List Byte) (h : f.body.length < 256) :
    frameOf (f.checked ++ check) = f := by
  cases f; simp_all [frameOf, LinkFrame.checked, byteAt, Nat.mod_eq_of_lt h]

theorem frameComplete_iff (f : LinkFrame) (check : List Byte) (h : f.body.length < 256) :
    frameComplete (f.checked ++ check) = true ↔ 2 ≤ check.length := by
  simp [frameComplete, LinkFrame.checked, byteAt, Nat.mod_eq_of_lt h]; omega

theorem receive_append (s : State) (a b : List (Option Byte)) : s.receive (a ++ b) = (s.receive a).receive b := by
  simp [State.receive]

/-- A receiver that waits goes on waiting while the pair is at rest. -/
theorem receive_rest_waiting (s : State) (n : Nat) (h : s.receiver = none) : s.receive (List.replicate n none) = s := by
  induction n with
  | zero => rfl
  | succ n ih => rw [List.replicate_succ, State.receive, List.foldl_cons, State.receiveOne, State.receiveRest, h]; exact ih

/-- A frame in reception waits for its next byte for 100 bit times. -/
theorem receive_rest_within (n : Nat) (s : State) (r : Reception) (h : s.receiver = some r) (le : r.rest + n ≤ 100) :
    s.receive (List.replicate n none) = { s with receiver := some { r with rest := r.rest + n } } := by
  induction n generalizing s r with
  | zero => cases s; cases h; rfl
  | succ n ih =>
    rw [List.replicate_succ, State.receive, List.foldl_cons, State.receiveOne, State.receiveRest, h]
    have l : r.rest < longestRest := by unfold longestRest; omega
    simp only [if_pos l]
    refine (ih _ _ rfl (by simp only; omega)).trans ?_
    simp only [Nat.add_right_comm, Nat.add_assoc]

/-- A frame in reception that rests for more than 100 bit times is ended there (R174). -/
theorem receive_rest_beyond (n : Nat) (s : State) (r : Reception) (h : s.receiver = some r) (p : 0 < n)
    (gt : 100 < r.rest + n) : s.receive (List.replicate n none) = s.endReception := by
  induction n generalizing s r with
  | zero => omega
  | succ n ih =>
    rw [List.replicate_succ, State.receive, List.foldl_cons, State.receiveOne, State.receiveRest, h]
    by_cases l : r.rest < longestRest
    · simp only [if_pos l]
      refine (ih _ _ rfl (by unfold longestRest at l; omega) (by simp only; omega)).trans ?_
      simp [State.endReception, h]
    · simp only [if_neg l]
      exact receive_rest_waiting _ n (by simp only [State.endReception, h]; rfl)

end Sys2Proof.Machine
end

