-- ==== Sys2Proof/Laws/Standby.lean ====
section
/-! SUPPORT. What standby assignment can do (R128, R129): the set of a station with room in its queue and without, the walk
over the entries it passes, and the walk as the statements describe it (Walked). -/

namespace Sys2Proof.Machine

open Sys2Proof

theorem queueSet_room (s : State) (st : Station) (pat : Pattern) (h : s.link.slitter.length < 8) :
    s.queueSet st pat = { s.setStation st { s.station st with timer := none, setTag := some s.serial } with
      serial := s.serial + 1
      link := { s.link with slitter := s.link.slitter ++ [.slitterSet st pat s.serial] } } := by
  have e : (s.link.slitter.any (Command.slitterSet st pat s.serial).replaces) = false := by
    simp [Command.replaces]
  cases st <;> exact (if_neg (by rw [Bool.not_eq_true]; exact e)).trans (if_pos h)

theorem queueSet_frame (s : State) (st : Station) (pat : Pattern) : ∃ x l e n, s.queueSet st pat =
    { s with stations := x, link := l, errors := e, serial := n } := by
  cases st <;> simp only [State.queueSet, State.enqueue] <;> split <;> (try split) <;> exact ⟨_, _, _, _, rfl⟩

theorem assignSet_room (s : State) (mark n : Nat) (pat : Pattern) (st : Station) (h : s.link.slitter.length < 8) :
    s.assignSet mark n pat st = { s.setStation st { s.station st with
        state := .setting, order := some n, served := some mark, pattern := some pat, retry := 0, timer := none
        setTag := some s.serial } with
      serial := s.serial + 1
      link := { s.link with slitter := s.link.slitter ++ [.slitterSet st pat s.serial] } } := by
  rw [State.assignSet, queueSet_room _ _ _ (by cases st <;> exact h)]
  cases st <;> rfl

theorem assignSet_frame (s : State) (mark n : Nat) (pat : Pattern) (st : Station) : ∃ x l e i,
    s.assignSet mark n pat st = { s with stations := x, link := l, errors := e, serial := i } := by
  obtain ⟨x, l, e, i, h⟩ := queueSet_frame (s.setStation st { s.station st with
    state := .setting, order := some n, served := some mark, pattern := some pat, retry := 0 }) st pat
  refine ⟨x, l, e, i, h.trans ?_⟩
  cases st <;> rfl

/-- The walk passes skips and the unassigned entries of the engaged pattern, which become skips. -/
theorem walkList_passed (s : State) (passed rest : List Decision)
    (h : ∀ d ∈ passed, d.status = .skip ∨ (d.status = .unassigned ∧ ∃ n pat, s.incomingPattern d.mark = some (n, pat)
      ∧ s.engagedPattern = some pat)) :
    s.walkList (passed ++ rest)
      = (passed.map (fun d => ⟨d.mark, .skip⟩) ++ (s.walkList rest).1, (s.walkList rest).2) := by
  induction passed with
  | nil => rfl
  | cons d ds ih =>
    have i := ih fun x hx => h x (List.mem_cons_of_mem _ hx)
    obtain e | ⟨e, n, pat, p, q⟩ := h d (List.mem_cons_self ..)
    · cases d; simp only at e; subst e
      simp only [List.cons_append, State.walkList, i, List.map_cons]
    · simp only [List.cons_append, State.walkList, e, p, q, beq_self_eq_true, if_true, i, List.map_cons]

theorem engagedPattern_iff (u : State) (p : Pattern) :
    u.engagedPattern = some p ↔ ∃ e, u.engaged = some e ∧ (u.station e).pattern = some p := by
  unfold State.engagedPattern; cases u.engaged <;> simp

theorem idleStation_none (u : State) (h : ∀ st, (u.station st).state ≠ .idle) : u.idleStation = none := by
  simp [State.idleStation, h]

theorem idleStation_some (u : State) (st : Station) (h : (u.station st).state = .idle)
    (a : st = .b → (u.station .a).state ≠ .idle) : u.idleStation = some st := by
  cases st <;> simp_all [State.idleStation]

/-- Standby assignment does what Walked says. -/
theorem walk_walked (u : State) : Walked u u.walk := by
  refine ⟨?_, fun passed rest hl hp => ?_⟩
  · simp only [State.walk]
    split
    · rename_i mark n pat st _
      obtain ⟨x, l, e, i, h⟩ := assignSet_frame { u with decisions := (u.walkList u.decisions).1 } mark n pat st
      rw [h]
    · rfl
  have key := walkList_passed u passed rest (fun d hd => (hp d hd).imp id fun ⟨e, o, ⟨f, m, c, i⟩, k⟩ =>
    ⟨e, o.fields.number, o.fields.pattern, by simp [State.incomingPattern, c, i, f], (engagedPattern_iff ..).2 k⟩)
  rw [← hl] at key
  refine ⟨?_, ?_⟩
  · rintro rfl; simp only [State.walk, key, State.walkList]
  rintro d more rfl
  refine ⟨fun ⟨st, e⟩ => by simp only [State.walk, key, State.walkList, e], fun o e ⟨f, m, c, i⟩ nh => ?_⟩
  have ip : u.incomingPattern d.mark = some (o.fields.number, o.fields.pattern) := by
    simp [State.incomingPattern, c, i, f]
  have ne : (u.engagedPattern == some o.fields.pattern) = false := by
    rw [beq_eq_false_iff_ne]; exact fun h => nh ((engagedPattern_iff ..).1 h)
  refine ⟨fun hi => ?_, fun st hs hb hq => ?_⟩
  · simp only [State.walk, key, State.walkList, e, ip, ne, idleStation_none u hi]; rfl
  · have w : u.walk = State.assignSet
        { u with decisions := passed.map (fun d => ⟨d.mark, .skip⟩) ++ ⟨d.mark, .servedBy st⟩ :: more }
        d.mark o.fields.number o.fields.pattern st := by
      simp only [State.walk, key, State.walkList, e, ip, ne, idleStation_some u st hs hb]; rfl
    exact w.trans ((assignSet_room _ _ _ _ _ (by exact hq)).trans (by cases st <;> rfl))

end Sys2Proof.Machine
end

