-- ==== Sys2Proof/Tests/Slice0.lean ====
section
/-! SUPPORT. Tests of the model: ill-formed commands that WellFormed refuses, worked examples of the manual (each names its
source), and for every statement with hypotheses a state and operands that meet them. -/

namespace Sys2Proof.Tests

open Sys2Proof Sys2Proof.Machine

set_option maxRecDepth 100000

/-! ### WellFormed: one ill-formed command for each check -/

theorem test_wf_empty_bodies : [Instr.null, .readLine, .readConfig, .lineReset, .readErrors, .releaseHold, .collect,
    .readSlitter, .readKnife, .refreshBond, .readBond].all (fun make => !(make [0#8]).wf && (make []).wf) = true := by
  decide

theorem test_wf_one_byte_bodies : [Instr.readSequence, .unthreadReel, .requestSplice, .clearStand, .readStand,
    .clearStation, .readStationQueues].all (fun make => !(make []).wf && (make [0#8]).wf) = true := by decide

theorem test_wf_two_byte_bodies : [Instr.unscheduleOrder, .rushOrder, .cancelOrder, .retireOrder, .readOrder,
    .retireGrade, .withdrawReel, .threadReel, .readReel].all
      (fun make => !(make [0#8]).wf && (make [0#8, 0#8]).wf) = true := by decide

theorem test_wf_fixed_bodies :
    [(Instr.setErrorPolicy, 6), (.clearErrors, 3), (.readGrade, 3), (.scheduleOrder, 5), (.readMarks, 5),
      (.placeCull, 8), (.announceReel, 13), (.enterGrade, 104), (.amendGrade, 104)].all
      (fun x => !(x.1 (List.replicate (x.2 - 1) 0#8)).wf && (x.1 (List.replicate x.2 0#8)).wf) = true := by decide

theorem test_wf_configure_pairs : (Instr.configure []).wf = false ∧ (Instr.configure (List.replicate 6 0#8)).wf = false
    ∧ (Instr.configure (List.replicate 125 0#8)).wf = false ∧ (Instr.configure (List.replicate 120 0#8)).wf = true := by
  decide

theorem test_wf_order_body : (Instr.enterOrder (List.replicate 13 0#8)).wf = false
    ∧ (Instr.amendOrder (List.replicate 15 0#8)).wf = false ∧ (Instr.enterOrder (List.replicate 14 0#8)).wf = true := by
  decide

theorem test_wf_order_body_length_bound :
    (Instr.enterOrder (List.replicate 12 0#8 ++ [56#8] ++ List.replicate 113 0#8)).wf = false
      ∧ (Instr.enterOrder (List.replicate 12 0#8 ++ [55#8] ++ List.replicate 111 0#8)).wf = true := by decide

theorem test_wf_reel_loaded_id : (Instr.reelLoaded .l1 .a 100000000).wf = false
    ∧ (Instr.reelLoaded .l1 .a 99999999).wf = true := by decide

theorem test_wf_diameter : (Instr.diameter .l1 .a 65536).wf = false ∧ (Instr.diameter .l1 .a 65535).wf = true := by
  decide

theorem test_wf_set_positions : (Instr.setPositions .a (List.replicate 21 0)).wf = false
    ∧ (Instr.setPositions .a [65536]).wf = false ∧ (Instr.setPositions .a (List.replicate 20 65535)).wf = true := by
  decide

/-! ### Helpers: the state after a command -/

/-- The state after a command; the state itself where it would stop. -/
def after (c : Instr) (s : State) : State :=
  match exec c s with
  | .next t => t
  | _ => s

/-- A running sum of windows: the state after a close that finds an advance. -/
def closeWith (s : State) (delta : Nat) : State := after .speedWindowClose { s with delta := delta }

/-! ### Worked examples of the manual -/

/-- Section 1.2, window closes 1 to 4 of the example. -/
theorem test_coming_to_rest :
    (closeWith .reset 200).speed = 1200 ∧ (closeWith .reset 31).speed = 186 ∧ (closeWith .reset 31).zeroWindows = 0
      ∧ (closeWith .reset 31).stopped = false ∧ (closeWith (closeWith .reset 31) 0).zeroWindows = 1
      ∧ (closeWith (closeWith .reset 31) 0).stopped = false := by decide

/-- Section 1.2, window closes 22 to 25 of the example; R3's saturation. -/
theorem test_standstill_and_start :
    let moving : State := { State.reset with zeroWindows := 19, stopped := false }
    (closeWith moving 0).stopped = true ∧ (closeWith (closeWith moving 0) 0).zeroWindows = 20
      ∧ (closeWith (closeWith moving 0) 4).speed = 24 ∧ (closeWith (closeWith moving 0) 4).stopped = false
      ∧ (closeWith moving 1667).speed = 9999 := by decide

/-- R1: 4,294,967,295 is followed by 0. -/
theorem test_odometer_wraps : (after .forwardCount { State.reset with odometer := 0xFFFFFFFF#32 }).odometer = 0#32 := by
  decide

/-- R2: a backing raises once. -/
theorem test_reverse_once : (after .reverseCount .reset).errors.status = 0x8000#18
    ∧ after .reverseCount (after .reverseCount .reset) = after .reverseCount .reset := by decide

/-- The curve of the cases under R163. -/
def curve163 : Curve := ⟨⟨50, 200⟩, ⟨150, 450⟩, ⟨250, 700⟩, ⟨350, 850⟩⟩

/-- Section 9.2, the seven cases under R163. -/
theorem test_wrap_cases : [300, 1830, 1836, 4200].map curve163.target = [200, 533, 534, 850]
    ∧ [2502, 2506, 2514].map { curve163 with b3 := ⟨350, 600⟩ }.target = [700, 699, 699] := by decide

/-- Section 5.4, the two examples of the remaining length, and the recomputes of the reel's life at M1. -/
theorem test_paper_length : paperLength 14000 1520 230 = 6614082 ∧ paperLength 18000 1000 100 = 25368432
    ∧ paperLength 13990 1520 230 = 6604524 ∧ paperLength 2400 1520 230 = 117796 := by decide

/-- The announcement of section 5.4's worked sequence. -/
def annM1 : Announcement := ⟨20417733, 2150, 230, 1520, false⟩

/-- The reel of the worked sequence once VERIFIED. -/
def paperM1 : Paper := ⟨20417733, annM1, 14000, 6614082, 0, false⟩

/-- Slot 2 RUNNING and slot 3 empty or holding a reel, at stand M1, with the given place B. -/
def atM1 (r : Paper) (b : Reel) : State :=
  { State.reset with reels := { State.reset.reels with m1 := ⟨⟨.running r false 0, false⟩, ⟨b, false⟩⟩ } }

/-- The ANNOUNCE REEL body of the worked sequence, written out by R192: M1, B, id, code, caliper, core, force. -/
def announceM1 : List Byte :=
  [2#8, 2#8, 0x01#8, 0x37#8, 0x8C#8, 0xC5#8, 0x08#8, 0x66#8, 0x00#8, 0xE6#8, 0x05#8, 0xF0#8, 0#8]

/-- Section 5, one reel through its life at M1: LOADED, its diameter, and its announcement. -/
theorem test_reel_life :
    let s1 := after (.reelLoaded .m1 .b 20417733) (atM1 paperM1 (.empty (some ⟨5, 7⟩)))
    let s2 := after (.diameter .m1 .b 14000) s1
    let s3 := after (.announceReel announceM1) s2
    s1.slot .m1 .b = ⟨.loaded 20417733 0, true⟩ ∧ s2.slot .m1 .b = ⟨.loaded 20417733 14000, true⟩
      ∧ s3.slot .m1 .b = ⟨.verified paperM1, true⟩ ∧ s3.port.status = .ok := by decide

/-- Section 5.5: one forward count takes 1 mm and leaves a residue of 5,857 − 4,096. -/
theorem test_count_down : (after .forwardCount (atM1 paperM1 (.empty none))).slot .m1 .a
    = ⟨.running { paperM1 with remaining := 6614081, residue := 1761 } false 0, false⟩ := by decide

/-- Section 5, the diameter of 2,400 makes the running reel low: a LOW_REEL splice waits for a reel. -/
theorem test_low_reel :
    let t := after (.diameter .m1 .a 2400) (atM1 paperM1 (.empty none))
    (t.seq .m1).splice = some ⟨.lowReel, 0#32⟩ ∧ (t.seq .m1).state = .waitReel := by decide

/-- Section 5: the last millimetre runs out; RUN_OUT, FATAL, puts the line in HOLD and the stand in FAULT. -/
theorem test_run_out :
    let t := after .forwardCount (atM1 { paperM1 with remaining := 1 } (.empty none))
    t.slot .m1 .a = ⟨.exhausted { paperM1 with remaining := 0, residue := 1761 }, true⟩
      ∧ (t.seq .m1).state = .fault ∧ t.errors.hold = true ∧ t.errors.status = 1#18 := by decide

/-- Section 5: the joint makes slot 2 EMPTY with its spent reel and slot 3 RUNNING. -/
theorem test_joint :
    let t := after (.jointPulse .m1) (atM1 { paperM1 with remaining := 90 } (.verified paperM1))
    t.slot .m1 .a = ⟨.empty (some ⟨20417733, 90⟩), true⟩ ∧ t.slot .m1 .b = ⟨.running paperM1 false 0, false⟩
      ∧ t.marks.length = 1 := by decide

/-- Section 10, a busy link: SPLICE before KNIFE before STACKER before BOND. -/
theorem test_busy_link :
    let l : Link := { Link.reset with
      splice := [.spliceGo .m1 .b 0], knife := [.knifeSchedule 0#32 1000 none]
      stacker := [.stackChange 620 1 80 false], bond := [.bondSetpoint (.ph .m1) 500] }
    let s1 := after .arbiterTake { State.reset with link := l }
    let s2 := after .arbiterTake (after .spliceGo s1)
    s1.link.place = some (.spliceGo .m1 .b 0) ∧ s2.link.place = some (.knifeSchedule 0#32 1000 none)
      ∧ after .arbiterTake s2 = s2 := by decide

/-- R180: a waiting setpoint is replaced in place; a ninth command of a class is dropped with LINK_OVERRUN. -/
theorem test_class_queue :
    let s : State := { State.reset with link := { Link.reset with bond := [.bondSetpoint (.ph .m1) 490] } }
    (s.enqueue (.bondSetpoint (.ph .m1) 500)).link.bond = [.bondSetpoint (.ph .m1) 500]
      ∧ (let full : State := { State.reset with link := { Link.reset with stacker := List.replicate 8 (.stackChange 1 1 1 false) } }
         (full.enqueue (.stackChange 2 1 1 false)).errors.status = 0x10000#18
           ∧ (full.enqueue (.stackChange 2 1 1 false)).link = full.link) := by decide

/-! ### Samples for the witnesses -/

def curveBytes163 : List Byte :=
  [50, 200, 150, 450, 250, 700, 350, 850].flatMap (bytesOf 2)

/-- A grade body: number 7, codes 2150, the curve of R163, base gap 300 and joint bump 100 (R192). -/
def gradeBody7 : List Byte :=
  bytesOf 2 7 ++ (List.replicate 5 (bytesOf 2 2150)).flatten ++ (List.replicate 5 curveBytes163).flatten
    ++ (List.replicate 3 (bytesOf 2 300 ++ bytesOf 2 100)).flatten

def grade7 (refs active : Nat) : Grade := ⟨0, readGradeBody gradeBody7, refs, active⟩

/-- An order body: the number, grade 7, cut length 1,000, Q 100, allowance 2, stack 50, slits 0, 6,000 and 12,000. -/
def orderBody (n : Nat) : List Byte :=
  bytesOf 2 n ++ bytesOf 2 7 ++ bytesOf 2 1000 ++ bytesOf 3 100 ++ byteOf 2 ++ bytesOf 2 50 ++ byteOf 3 ++ byteOf 0
    ++ [0, 6000, 12000].flatMap (bytesOf 2)

def orderIn (slot n : Nat) (st : OrderState) : Order :=
  ⟨slot, readOrderBody (orderBody n), st, none, false, false, 0, 0, ⟨0, 0, 0, 0, 0⟩, 0, false, 0, 0, false⟩

/-- Order 620 in a state, with its grade. -/
def with620 (st : OrderState) : State :=
  { State.reset with orders := [orderIn 0 620 st], grades := [grade7 1 0] }

def held (s : State) : State := { s with errors := { s.errors with hold := true } }

/-- A status set, unmasked and FATAL. -/
def fatalState : State := held { State.reset with errors := { Errors.reset with status := 1#18 } }

/-- A provisional CHANGE mark of order 620 from 0 to 900,000, planned by the span planner. -/
def provisionalMark : ChangeMark :=
  ⟨0, 900000#32, none, some ⟨620, 0#32, 1000⟩, none, .provisional, false, 900000#32, 0, 0, []⟩

def provisional620 : State :=
  { with620 .running with marks := [.change provisionalMark], planner := some ⟨0, 0#32, 900⟩, serial := 1 }

/-- Stand L1 with a running reel at A and a verified one at B. -/
def atL1 (q : Sequencer) (a b : Reel) : State :=
  { State.reset with
    reels := { State.reset.reels with l1 := ⟨⟨a, false⟩, ⟨b, false⟩⟩ }
    seqs := { State.reset.seqs with l1 := q } }

def inState (st : SeqState) : Sequencer := { Sequencer.reset with state := st, splice := some ⟨.lowReel, 0#32⟩ }

/-- A CHANGE mark at P without pin, extension or waste. -/
def changeAt (uid : Nat) (p : Coord) (len : Option Nat) (out : Option Outgoing) (incoming : Option Nat) (st : MarkState)
    (cs : List CrossEntry) : ChangeMark := ⟨uid, p, len, out, incoming, st, false, p, 0, 0, cs⟩

/-- Order 620 RUNNING and order 621 QUEUED on a line with marks, at an odometer. -/
def onLine (odo : Nat) (marks : List Mark) : State :=
  { State.reset with
    odometer := BitVec.ofNat 32 odo
    orders := [{ orderIn 0 620 .running with segments := 1 }, orderIn 1 621 .queued], runSeq := [621]
    grades := [grade7 2 1], marks := marks, serial := 9 }

theorem sole {s : State} {e : CountEvent}
    (h : s.inputs.encCnt = false ∧ ((s.marks.map Mark.uid).Nodup ∧ ∀ m ∈ s.marks, m.uid < s.serial)
      ∧ countEvents s (advanced s) = [e]) : SoleEvent s e := h

def l1 : List Byte := [1#8]
def l1A : List Byte := [1#8, 1#8]

/-! ### Witnesses: the hypotheses of each statement are met -/

theorem witness_IdleStepIsAMillisecond : State.reset.pending = [] ∧ (∀ k, (State.reset.seq k).timer = none)
    ∧ (∀ st, (State.reset.station st).timer = none) ∧ State.reset.receiver = none ∧ State.reset.windowMs + 1 < 100
    ∧ ¬ ({ State.reset with windowMs := 99 } : State).windowMs + 1 < 100
    ∧ (let q : Sequencer := { Sequencer.reset with state := .splicing, timer := some ⟨12000, 12000⟩ }
       q.state = .splicing ∧ q.timer = some ⟨12000, 12000⟩) :=
  ⟨rfl, fun k => by cases k <;> rfl, fun st => by cases st <;> rfl, rfl, by decide, by decide, rfl, rfl⟩

/-- R174: a millisecond without a byte ends a frame in reception; the receiver that waits has none to end. -/
theorem test_reception_ends :
    ({ State.reset with receiver := some ⟨[9#8], 0⟩ } : State).tick.pending = [.reportFrameTimeout]
      ∧ State.reset.tick.pending = [] := by decide

/-- R111: the millisecond after the limit of 12,000 ms brings the timeout, and the next one no second. -/
theorem test_splice_timer :
    let at_ (ms : Nat) : State := { State.reset with
      seqs := { State.reset.seqs with l1 := { Sequencer.reset with state := .splicing, timer := some ⟨ms, 12000⟩ } } }
    (at_ 11999).tick.pending = [] ∧ (at_ 12000).tick.pending = [.spliceTimeout .l1] ∧ (at_ 12001).tick.pending = []
      ∧ ((at_ 12000).tick.seq .l1).timer = some ⟨12001, 12000⟩ := by decide

theorem witness_RequestFrameReadsBack : requestParts (.null []) = some (0x00, [])
    ∧ (Instr.null []).bodyLengthOk = true
    ∧ requestParts (.configure (List.replicate 120 0#8)) = some (0x02, List.replicate 120 0#8)
    ∧ (Instr.configure (List.replicate 120 0#8)).bodyLengthOk = true
    ∧ requestParts (.enterOrder (orderBody 620)) = some (0x10, orderBody 620)
    ∧ (Instr.enterOrder (orderBody 620)).bodyLengthOk = true ∧ (List.replicate 7 true).length < 8 := by decide

/-- R189: most significant bit first, eight edges a byte, the bits of an incomplete last byte discarded; SDO is driven only
while CSn is low and carries zero bits once the response is exhausted. -/
theorem test_port_bits :
    bytesOfBits [true, false, false, false, false, false, true, false, true, true] = [0x82#8]
      ∧ bytesOfBits (List.replicate 7 true) = []
      ∧ (let s : State := { State.reset with port := ⟨0x82#8, .range, []⟩ }
         [0, 6, 7, 14, 15, 24].map (s.sdo true) = [some true, some true, some false, some true, some true, some false]
           ∧ s.sdo false 0 = none) := by decide

theorem witness_BadFramesAreRefusedWithFormat : 124 < (125#8).toNat ∧ ([] : List Byte).length < (1#8).toNat
    ∧ (0x05#8).toNat ∉ requestKinds
    ∧ (List.replicate 7 true).length < 8 ∧ (List.replicate 16 true).length % 8 = 0 ∧ 1 < (List.replicate 16 true).length / 8
    ∧ ∃ make, requestOf 0x00 = some make ∧ (make [1#8]).bodyLengthOk = false :=
  ⟨by decide, by decide, by decide, by decide, by decide, by decide, _, rfl, rfl⟩

theorem witness_RefusedRequestChangesOnlyThePort : requestParts (.readOrder [0#8, 1#8]) = some (0x17, [0#8, 1#8])
    ∧ (after (.readOrder [0#8, 1#8]) .reset).port.status ≠ .ok
    ∧ (after (.readOrder [0#8, 1#8]) .reset).port.status ≠ .clamped := by decide

theorem witness_ReadsAreAnsweredAndChangeNothing :
    (with620 .entered).findOrder (field [2#8, 0x6C#8] 0 2) = some (orderIn 0 620 .entered) ∧ field [63#8] 0 1 ≤ 63
      ∧ field [0#8, 7#8, 0#8] 2 1 = 0 ∧ (with620 .entered).findGrade (field [0#8, 7#8, 0#8] 0 2) = some (grade7 1 0)
      ∧ field [0#8, 6#8, 1#8] 0 2 ≤ 9999 ∧ field [0#8, 6#8, 1#8] 2 1 = 1
      ∧ (grade7 1 0 ∈ (with620 .entered).grades ∧ field [0#8, 6#8, 1#8] 0 2 < (grade7 1 0).fields.number
        ∧ ∀ h ∈ (with620 .entered).grades, h = grade7 1 0)
      ∧ field [0x27#8, 0x0F#8, 1#8] 0 2 ≤ 9999 ∧ field [0x27#8, 0x0F#8, 1#8] 2 1 = 1
      ∧ (∀ g ∈ (with620 .entered).grades, g.fields.number ≤ field [0x27#8, 0x0F#8, 1#8] 0 2)
      ∧ sdist 0#32 (coordField [0x80#8, 0#8, 0#8, 1#8, 47#8] 0) ≠ -2147483648
      ∧ field [0x80#8, 0#8, 0#8, 1#8, 47#8] 4 1 ≤ 47
      ∧ placeOf [5#8, 2#8] = some (.l3, .b) ∧ standOf (field [5#8] 0 1) = some .l3
      ∧ (field [5#8] 0 1, State.reset.link.bond) ∈ [(1, []), (5, State.reset.link.bond)] ∧ 5 < field [6#8] 0 1
      ∧ field [0#8] 0 1 = 0 := by decide

/-- R21: the whole table is read from X = odometer − 2^31 + 1, the marks ahead of the odometer with it. -/
theorem test_read_whole_table :
    ((after (.readMarks [0x80#8, 0#8, 0#8, 1#8, 0#8]) provisional620).port.body.getD 1 0#8) = 1#8 := by decide

theorem witness_ReadLineReportsTheLine : provisional620.speed ≤ 9999 ∧ provisional620.zeroWindows ≤ 20
    ∧ provisional620.orders.length ≤ 64 ∧ provisional620.grades.length ≤ 32 ∧ provisional620.marks.length ≤ 48
    ∧ provisional620.runSeq.length ≤ 64 ∧ provisional620.suspended.length ≤ 3
    ∧ provisional620.provisionalEnd = some 900000#32 ∧ provisional620.provisional.isSome = true
    ∧ State.reset.zeroWindows = 20 ∧ State.reset.changes = [] ∧ State.reset.provisionalEnd = none
    ∧ (let m := changeAt 0 900000#32 none (some ⟨620, 0#32, 1000⟩) none .runOut []
       (onLine 0 [.change m]).provisional = none ∧ m ∈ (onLine 0 [.change m]).changes ∧ m.state = .runOut) := by decide

theorem witness_RecordsFollowTheirLayouts :
    orderInRange { orderIn 0 620 .queued with goodCuts := 16777215 }
    ∧ (∀ n ∈ [1, 620, 65535], n ≤ 65535) ∧ [1, 620, 65535] = [1] ++ 620 :: 65535 :: [] ∧ 620 ∉ [1]
    ∧ provisionalMark.extensions ≤ 65535 ∧ provisionalMark.waste ≤ 16777215
    ∧ (5000 : Nat) ≤ 5000 ∧ (1000000 : Nat) ≤ 1000000
    ∧ paperM1.readId < 4294967296 ∧ paperM1.ann.id < 4294967296 ∧ paperM1.ann.code ≤ 65535
    ∧ paperM1.ann.caliper ≤ 65535 ∧ paperM1.ann.core ≤ 65535 ∧ paperM1.diameter ≤ 65535
    ∧ paperM1.remaining ≤ 16777215 ∧ paperM1.residue ≤ 65535
    ∧ (∃ after, boundaryCrossings = [] ++ ⟨.ph .l1, .pending⟩ :: after)
    ∧ (∀ x ∈ [(⟨.freeze, .done⟩ : CrossEntry), ⟨.decision, .silent⟩], x.status = .done ∨ x.status = .silent) := by
  refine ⟨by unfold orderInRange; decide, ?_⟩
  refine ⟨by decide, by decide, by decide, by decide, by decide, by decide, by decide, by decide, by decide, by decide,
    by decide, by decide, by decide, by decide, by decide, ⟨_, rfl⟩, by decide⟩

theorem witness_RecordsFollowTheirLayouts_slitter :
    let full : Pattern := ⟨List.replicate 8 25000, List.replicate 12 65535⟩
    let x : SlitterStation := { SlitterStation.reset with
      order := some 65535, served := some provisionalMark.uid, pattern := some full, retry := 1
      timer := some ⟨65536, 65535⟩, exchangeSent := some true }
    x.order = some 65535 ∧ x.retry ≤ 255 ∧ (∀ y, x.timer = some y → y.ms ≤ 16777215)
      ∧ full.slits.length + full.scores.length ≤ 20 ∧ (full.slits ++ full.scores)[19]? = some 65535
      ∧ provisional620.findChange provisionalMark.uid = some provisionalMark
      ∧ provisionalMark.incoming = none ∧ provisionalMark.extensions ≤ 65535 := by decide

/-- READ STAND with a plan, whose change mark is live with a zone, live and open, or retired, and a running joint. -/
def planned (marks : List Mark) : State :=
  { atL1 { inState .armed with plan := some ⟨2150, 7#32, 0, 9#32⟩, runningJoint := some ⟨5#32, true⟩ } (.empty none)
      (.empty none) with marks := marks }

theorem witness_RecordsFollowTheirLayouts_stand :
    let m (g : Option Nat) : ChangeMark := changeAt 0 9#32 g none (some 621) .frozen []
    let s := planned [.change (m (some 4294967295))]
    (s.seq .l1).plan = some ⟨2150, 7#32, 0, 9#32⟩ ∧ s.findChange 0 = some (m (some 4294967295))
      ∧ (planned [.change (m none)]).findChange 0 = some (m none) ∧ (planned []).findChange 0 = none
      ∧ (s.seq .l1).runningJoint = some ⟨5#32, true⟩ := by decide

/-- R121: the G of the plan's mark, absent where that mark has retired. -/
theorem test_plan_zone :
    let m : ChangeMark := changeAt 0 9#32 (some 2700) none (some 621) .frozen []
    field (standBytes (planned [.change m]) .l1) 22 5 = 256 ^ 4 + 2700 ∧ field (standBytes (planned []) .l1) 22 5 = 0 := by
  decide

theorem witness_RecordsFollowTheirLayouts_grade :
    let g := grade7 255 64
    let c := g.fields.curves.get .l3
    g.fields.number ≤ 65535 ∧ g.slot ≤ 255 ∧ g.refs ≤ 255 ∧ g.active ≤ 255 ∧ g.fields.codes.get .l3 ≤ 65535
      ∧ [c.b0, c.b1, c.b2, c.b3][3]? = some c.b3 ∧ c.b3.speed ≤ 65535 ∧ c.b3.wrap ≤ 65535
      ∧ (g.fields.glue.get .g3).base ≤ 65535 ∧ (g.fields.glue.get .g3).bump ≤ 65535 := by decide

/-- R53: the last breakpoint of the fifth curve and the last bump stand where the record ends, before the two counts. -/
theorem test_grade_record :
    let b := gradeBytes (grade7 3 1)
    b.length = 107 ∧ field b 89 2 = 350 ∧ field b 91 2 = 850 ∧ field b 103 2 = 100 ∧ field b 105 2 = 256 * 3 + 1 := by
  decide

theorem witness_RecordsFollowTheirLayouts_knife :
    (∃ out, provisionalMark.outgoing = some out ∧ out.order ≤ 65535)
      ∧ (∀ n, (⟨65535, 65536, some 65535, false⟩ : Postponed).closed = some n → n ≤ 65535) :=
  ⟨⟨_, rfl, by decide⟩, by decide⟩

theorem witness_RecordsFollowTheirLayouts_bond :
    let c := curve163
    let g : GlueValues := ⟨1500, 500⟩
    (∀ x ∈ [c.b0, c.b1, c.b2, c.b3], x.speed ≤ 65535 ∧ x.wrap ≤ 65535) ∧ [c.b0, c.b1, c.b2, c.b3][3]? = some c.b3
      ∧ g.base ≤ 65535 ∧ g.bump ≤ 65535 := by decide

theorem witness_RaiseFollowsMaskAndSeverity :
    ErrorKind.runOut.isIn State.reset.errors.mask = false
      ∧ ErrorKind.runOut.isIn ({ Errors.reset with mask := 1#18 } : Errors).mask = true
      ∧ ErrorKind.reportInvalid.isIn ({ Errors.reset with mask := 0x20000#18 } : Errors).mask = true := by decide

theorem witness_ClearErrorsClearsTheNamed :
    let e : Errors := { Errors.reset with status := 1#18, first := some ⟨.runOut, .none, 0#32, true, false⟩ }
    ErrorKind.runOut.isIn e.status = true ∧ e.first.map (·.kind) = some .runOut
      ∧ ErrorKind.runOut.isIn (BitVec.ofNat 18 (field [0#8, 0#8, 1#8] 0 3)) = true
      ∧ ErrorKind.runOut.isIn (BitVec.ofNat 18 (field [0#8, 0#8, 0#8] 0 3)) = false := by decide

theorem witness_ReleaseHoldReturnsToRun : fatalState.errors.fatalSet = true
    ∧ (let s : State := held { State.reset with
        link := { Link.reset with splice := List.replicate 3 (.speedCap none) } }
       s.errors.fatalSet = false ∧ s.runSeq = [] ∧ s.suspended = [] ∧ s.link.splice.length ≤ 3) := by decide

theorem witness_ReleaseHoldReturnsToRun_go :
    let s := held (atL1 (inState .waitGo) (.running paperM1 false 0) (.verified paperM1))
    s.errors.hold = true ∧ s.errors.fatalSet = false ∧ s.runSeq = [] ∧ s.suspended = []
      ∧ s.speed ≤ spliceSpeedLimit s.config ∧ s.link.splice.length ≤ 3 ∧ (s.seq .l1).state = .waitGo
      ∧ (s.readyPos .l1).isSome = true := by decide

theorem witness_CollectTakesByPreference_error :
    let s : State := { State.reset with errors := { Errors.reset with
      first := some ⟨.runOut, .none, 0#32, true, true⟩ } }
    s.errors.first.map (·.unreported) = some true := by decide

theorem witness_CollectTakesByPreference_order :
    let o := { orderIn 3 620 .done with attention := true }
    let s : State := { State.reset with orders := [{ orderIn 5 621 .done with attention := true }, o] }
    s.errors.unreported = false ∧ o ∈ s.orders ∧ o.attention = true
      ∧ ∀ r ∈ s.orders, r.attention = true → r ≠ o → o.slot < r.slot := by decide

theorem witness_CollectTakesByPreference_reel :
    let s := (State.reset.setSlot .l1 .b ⟨.loaded 1 0, true⟩).setSlot .l3 .b ⟨.loaded 1 0, true⟩
    s.errors.unreported = false ∧ (∀ o ∈ s.orders, o.attention = false) ∧ (s.slot .l1 .b).attention = true
      ∧ ∀ (j : Stand) (q : Pos), 2 * j.idx + q.idx < 2 * Stand.l1.idx + Pos.b.idx → (s.slot j q).attention = false :=
  ⟨rfl, by decide, rfl, fun j q => by cases j <;> cases q <;> decide⟩

theorem witness_CollectTakesByPreference_none : State.reset.errors.unreported = false
    ∧ (∀ o ∈ State.reset.orders, o.attention = false)
    ∧ ∀ (k : Stand) (p : Pos), (State.reset.slot k p).attention = false :=
  ⟨rfl, by decide, fun k p => by cases k <;> cases p <;> rfl⟩

theorem witness_HoldIsLeftOnlyByReleaseHold : (held .reset).errors.hold = true
    ∧ (after (.releaseHold []) (held .reset)).errors.hold = false
    ∧ (after .deviceReset (held .reset)).errors.hold = false
    ∧ (after (.requestFrameRefused (bitsOfBytes [0x0B#8, 0#8])) (held .reset)).errors.hold = false := by decide

theorem witness_EnterOrderTestsAndAdds : orderBodyLengthOk (orderBody 620) = true ∧ (readOrderBody (orderBody 620)).valid = true
    ∧ (readOrderBody (orderBody 620)).spanOk = true
    ∧ (let s : State := { State.reset with grades := [grade7 0 0] }
       (s.findGrade (readOrderBody (orderBody 620)).grade).isSome = true
         ∧ s.findOrder (readOrderBody (orderBody 620)).number = none ∧ s.orders.length < 64)
    ∧ orderBodyLengthOk [] = false ∧ (readOrderBody (orderBody 0)).valid = false
    ∧ orderBodyLengthOk (orderBody 0) = true
    ∧ State.reset.findGrade (readOrderBody (orderBody 620)).grade = none
    ∧ ((with620 .entered).findOrder (readOrderBody (orderBody 620)).number).isSome = true := by decide

/-- Sixty-four orders, numbered 1000 to 1063. -/
def fullBook : State :=
  { State.reset with grades := [grade7 64 0], orders := (List.range 64).map fun i => orderIn i (1000 + i) .entered }

theorem witness_EnterOrderTestsAndAdds_full : 64 ≤ fullBook.orders.length ∧ fullBook.findOrder 620 = none := by decide

theorem witness_AmendOrderActsByState_waiting : (with620 .queued).findOrder (readOrderBody (orderBody 620)).number
      = some (orderIn 0 620 .queued)
    ∧ (orderIn 0 620 .queued).state = .queued
    ∧ ((with620 .queued).findGrade (readOrderBody (orderBody 620)).grade).isSome = true := by decide

theorem witness_AmendOrderActsByState_machine :
    let o := orderIn 0 620 .suspended
    let d := readOrderBody (orderBody 620)
    (with620 .suspended).findOrder d.number = some o
      ∧ { d with quantity := o.fields.quantity, stackSize := o.fields.stackSize } = o.fields
      ∧ 1 ≤ d.quantity ∧ d.quantity ≤ 999999 ∧ 5 ≤ d.stackSize ∧ d.stackSize ≤ 2000 ∧ d.spanOk = true
      ∧ (let e := { o with fields := { o.fields with cutLength := 900 } }
         { d with quantity := e.fields.quantity, stackSize := e.fields.stackSize } ≠ e.fields) := by decide

/-- An amend of order 620 from Q 100 to Q 200. -/
def amend200 : List Byte :=
  bytesOf 2 620 ++ bytesOf 2 7 ++ bytesOf 2 1000 ++ bytesOf 3 200 ++ byteOf 2 ++ bytesOf 2 50 ++ byteOf 3 ++ byteOf 0
    ++ [0, 6000, 12000].flatMap (bytesOf 2)

theorem witness_AmendOrderActsByState_end :
    orderBodyLengthOk amend200 = true
      ∧ provisional620.findOrder (readOrderBody amend200).number = some (orderIn 0 620 .running)
      ∧ (readOrderBody amend200).quantity ≠ (orderIn 0 620 .running).fields.quantity
      ∧ { readOrderBody amend200 with quantity := 100, stackSize := 50 } = (orderIn 0 620 .running).fields
      ∧ (readOrderBody amend200).spanOk = true
      ∧ provisional620.provisional = some (⟨0, 0#32, 900⟩, provisionalMark)
      ∧ provisionalMark.outgoing = some ⟨620, 0#32, 1000⟩ ∧ provisionalMark.pinned = false
      ∧ (with620 .running).provisional = none := by decide

/-- R75: Q 200 at 2 outs asks for 100 cuts and 2 of allowance from S; the floor C, 170,000, is greater. -/
theorem test_amend_end :
    let t := after (.amendOrder amend200) provisional620
    t.planner = some ⟨0, 0#32, 102⟩ ∧ t.changes.map (·.p) = [170000#32] ∧ t.port.status = .ok := by decide

theorem witness_ScheduleAndUnscheduleMoveInTheSequence_link :
    let s : State := held { with620 .entered with
      orders := [orderIn 0 620 .entered, orderIn 1 621 .queued], runSeq := [621] }
    s.errors.hold = true ∧ s.findOrder (field [2#8, 0x6C#8, 2#8, 2#8, 0x6D#8] 0 2) = some (orderIn 0 620 .entered)
      ∧ field [2#8, 0x6C#8, 2#8, 2#8, 0x6D#8] 2 1 = 2
      ∧ field [2#8, 0x6C#8, 2#8, 2#8, 0x6D#8] 3 2 ≠ field [2#8, 0x6C#8, 2#8, 2#8, 0x6D#8] 0 2
      ∧ s.findOrder (field [2#8, 0x6C#8, 2#8, 2#8, 0x6D#8] 3 2) = some (orderIn 1 621 .queued)
      ∧ field [2#8, 0x6C#8, 0#8, 0#8, 0#8] 2 1 ≤ 1 ∧ field [2#8, 0x6C#8, 1#8, 0#8, 0#8] 2 1 ≤ 1 := by decide

theorem witness_ScheduleOrderMakesALineStart :
    let s := with620 .entered
    s.errors.hold = false ∧ s.findOrder (field [2#8, 0x6C#8, 0#8, 0#8, 0#8] 0 2) = some (orderIn 0 620 .entered)
      ∧ s.changes = [] ∧ 2 ≤ s.freeMarks ∧ s.runSeq.filter (· != 620) = [] ∧ s.suspended = []
      ∧ field [2#8, 0x6C#8, 1#8, 0#8, 0#8] 2 1 = 1 ∧ s.link.knife.length < 8 := by decide

theorem witness_ScheduleAndUnscheduleMoveInTheSequence_unlink : State.reset.findOrder (field [2#8, 0x6C#8] 0 2) = none
    ∧ (with620 .queued).findOrder (field [2#8, 0x6C#8] 0 2) = some (orderIn 0 620 .queued)
    ∧ (with620 .done).findOrder (field [2#8, 0x6C#8] 0 2) = some (orderIn 0 620 .done) := by decide

theorem witness_RushOrderPutsItsOrderFirst :
    (held (with620 .queued)).findOrder (field [2#8, 0x6C#8] 0 2) = some (orderIn 0 620 .queued)
      ∧ (held (with620 .queued)).errors.hold = true ∧ (held (with620 .queued)).planner = none := by decide

/-- Order 621 queued behind the provisional segment of order 620. -/
def rushing (m : ChangeMark) (suspended : List Nat) : State :=
  { provisional620 with
    marks := [.change m], orders := provisional620.orders ++ [orderIn 1 621 .queued], runSeq := [621]
    suspended := suspended }

theorem witness_RushOrderPutsItsOrderFirst_curtail :
    let s := rushing provisionalMark [1, 2]
    let full := rushing provisionalMark [1, 2, 3]
    s.findOrder (field [2#8, 0x6D#8] 0 2) = some (orderIn 1 621 .queued) ∧ s.MarksKeyed ∧ s.openRunOut = none
      ∧ s.provisional = some (⟨0, 0#32, 900⟩, provisionalMark) ∧ provisionalMark.pinned = false
      ∧ provisionalMark.outgoing = some ⟨620, 0#32, 1000⟩
      ∧ before (s.floorEnd ⟨620, 0#32, 1000⟩) provisionalMark.p = true ∧ 620 ∉ s.suspended ∧ s.suspended.length < 3
      ∧ (held s).errors.hold = true ∧ full.provisional = s.provisional ∧ 620 ∉ full.suspended ∧ 3 ≤ full.suspended.length
      ∧ (rushing provisionalMark [620, 2, 3]).suspended.contains 620 = true :=
  ⟨by decide, ⟨by decide, by decide⟩, by decide⟩

theorem witness_RushOrderPutsItsOrderFirst_stays :
    (let m := { provisionalMark with pinned := true }
     (rushing m []).provisional = some (⟨0, 0#32, 900⟩, m) ∧ m.pinned = true)
      ∧ (let m := { provisionalMark with p := 170000#32, xEx := 170000#32 }
         (rushing m []).provisional = some (⟨0, 0#32, 900⟩, m)
           ∧ before ((rushing m []).floorEnd ⟨620, 0#32, 1000⟩) m.p = false)
      ∧ State.reset.findOrder 621 = none := by decide

/-- R77, R78: the curtail in RUN, its refusal on a full stack, a pinned mark, and test 4 of a mark that is not curtailed. -/
theorem test_rush :
    (let t := after (.rushOrder [2#8, 0x6D#8]) (rushing provisionalMark [1, 2])
     t.port.body = [1#8, 1#8, 1#8] ++ coordBytes 170000#32 ∧ t.suspended = [620, 1, 2] ∧ t.runSeq = [621])
      ∧ (after (.rushOrder [2#8, 0x6D#8]) (rushing provisionalMark [1, 2, 3])).port.status = .full
      ∧ (let t := after (.rushOrder [2#8, 0x6D#8]) (rushing { provisionalMark with pinned := true } [1, 2, 3])
         t.port.body = [1#8, 0#8, 1#8] ++ coordBytes 900000#32 ∧ t.changes.map (·.p) = [900000#32]) := by decide

theorem witness_CancelOrderActsByState :
    [OrderState.done, .entered, .queued, .suspended, .running].all (fun st =>
      (with620 st).findOrder (field [2#8, 0x6C#8] 0 2) == some (orderIn 0 620 st)) = true
    ∧ (orderIn 0 620 .running).cancel = false ∧ (orderIn 0 620 .running).stacked = false
    ∧ (with620 .running).provisional = none
    ∧ provisional620.provisional = some (⟨0, 0#32, 900⟩, provisionalMark) ∧ provisionalMark.pinned = false
    ∧ provisionalMark.outgoing = some ⟨620, 0#32, 1000⟩ ∧ provisionalMark.outgoing.map (·.order) = some 620
    ∧ ({ orderIn 0 620 .running with stacked := true, cancel := true } : Order).stacked = true := by decide

/-- R40: a cancel curtails to the floor C = 170,000 and pins; without a measure it is TOO_LATE. -/
theorem test_cancel_running :
    (after (.cancelOrder [2#8, 0x6C#8]) provisional620).changes.map (fun m => (m.p, m.pinned)) = [(170000#32, true)]
      ∧ (after (.cancelOrder [2#8, 0x6C#8]) (with620 .running)).port.status = .tooLate := by decide

/-- Order 620's provisional end at the floor C, and L1 in WAIT_REEL with a VERIFIED reel whose code a plan has since made
acceptable. -/
def waitingAtFloor : State :=
  let m := { provisionalMark with p := 170000#32, xEx := 170000#32 }
  let l1 := atL1 { inState .waitReel with plan := some ⟨2150, 900000#32, 0, 170000#32⟩ } (.running paperM1 false 0)
    (.verified paperM1)
  { rushing m [] with planner := some ⟨0, 0#32, 170⟩, reels := l1.reels, seqs := l1.seqs }

/-- R108: a cancel that only pins, and a recompute that leaves P, repeat the check; a rush that makes no curtail does not. -/
theorem test_recheck_where_the_end_stays :
    (let t := after (.cancelOrder [2#8, 0x6C#8]) waitingAtFloor
     t.changes.map (fun m => (m.p, m.pinned)) = [(170000#32, true)] ∧ (t.seq .l1).state = .splicing)
    ∧ waitingAtFloor.recomputeEnd.changes = waitingAtFloor.changes ∧ (waitingAtFloor.recomputeEnd.seq .l1).state = .splicing
    ∧ ((after (.rushOrder [2#8, 0x6D#8]) waitingAtFloor).seq .l1).state = .waitReel := by decide

theorem witness_RetireOrderFreesItsSlot : State.reset.findOrder (field [2#8, 0x6C#8] 0 2) = none
    ∧ (with620 .done).findOrder (field [2#8, 0x6C#8] 0 2) = some (orderIn 0 620 .done)
    ∧ (with620 .running).findOrder (field [2#8, 0x6C#8] 0 2) = some (orderIn 0 620 .running) := by decide

theorem witness_GradeTableByItsCounts_enter : gradeBody7.length = 104 ∧ field gradeBody7 0 2 = 7
    ∧ (readGradeBody gradeBody7).valuesOk = true ∧ State.reset.findGrade (field gradeBody7 0 2) = none
    ∧ State.reset.grades.length < 32 := by decide

theorem witness_GradeTableByItsCounts_use :
    (with620 .entered).findGrade (field gradeBody7 0 2) = some (grade7 1 0) ∧ (grade7 1 0).active = 0
      ∧ 0 < (grade7 1 0).refs ∧ 0 < (grade7 1 1).active ∧ (grade7 0 0).refs = 0
      ∧ (with620 .entered).findGrade (field [0#8, 7#8] 0 2) = some (grade7 1 0) := by decide

/-- A HOST cull of 100,000 mm from coordinate 200,000. -/
def cullBody : List Byte := bytesOf 4 200000 ++ bytesOf 4 100000

theorem witness_PlaceCullPlacesAHostMark : cullBody.length = 8 ∧ 1 ≤ field cullBody 4 4 ∧ field cullBody 4 4 ≤ 100000
    ∧ sdist 0#32 (coordField cullBody 0) ≠ -2147483648
    ∧ sdist 0#32 (plusMm (coordField cullBody 0) (field cullBody 4 4)) ≤ 1073741824
    ∧ reached (shiftBy 0#32 (-(knOffset State.reset.config))) (coordField cullBody 0) = false
    ∧ provisional620.marks.length ≤ 40
    ∧ provisional620.provisional = some (⟨0, 0#32, 900⟩, provisionalMark) ∧ provisionalMark.pinned = false
    ∧ provisionalMark.outgoing = some ⟨620, 0#32, 1000⟩
    ∧ overlaps 0#32 provisionalMark.p 200000#32 300000#32 = true
    ∧ overlaps 0#32 provisionalMark.p 900000#32 1000000#32 = false
    ∧ ({ provisionalMark with pinned := true } : ChangeMark).pinned = true := by decide

/-- R72: five cuts of 1,000 from 100,000; a cull over [102,500, 103,500) makes two of them unclean, and the end moves by two
cuts, X_ex with it; a pinned end stays, and so does one that the cull does not reach. -/
theorem test_cull_moves_the_end :
    let m : ChangeMark := ⟨0, 105000#32, none, some ⟨620, 100000#32, 1000⟩, none, .provisional, false, 105000#32, 0, 0, []⟩
    let s (m : ChangeMark) : State := { provisional620 with marks := [.change m], planner := some ⟨0, 100000#32, 5⟩ }
    let ends (x : Nat) (m : ChangeMark) : List (Coord × Coord) :=
      ((after (.placeCull (bytesOf 4 x ++ bytesOf 4 1000)) (s m)).changes).map fun y => (y.p, y.xEx)
    ends 102500 m = [(107000#32, 107000#32)] ∧ ends 105000 m = [(105000#32, 105000#32)]
      ∧ ends 102500 { m with pinned := true } = [(105000#32, 105000#32)] := by decide

theorem witness_ForwardCountAdvancesAndPaysOut :
    let s := atM1 paperM1 (.empty none)
    s.inputs.encCnt = false ∧ ({ idleInputs with encCnt := true } : InputLevels).encCnt = true ∧ s.marks = [] ∧ (∀ k, (s.seq k).state = .idle) ∧ (∀ g, (s.glue.get g).bumpEnd = none)
      ∧ s.knife.owner = .unassigned ∧ s.runningPos .m1 = some .a
      ∧ ∀ k p r st t, s.runningPos k = some p → (s.slot k p).reel = .running r st t →
          reserveOf s.config k + 2 < r.remaining ∧ takeUpOf s.config k ≤ 8192 ∧ r.residue < 4096 := by
  refine ⟨rfl, rfl, rfl, fun k => by cases k <;> rfl, fun g => by cases g <;> rfl, rfl, by decide, ?_⟩
  intro k p r st t h e
  cases k <;> cases p <;> first
    | (exact absurd h (by decide))
    | (cases e; decide)

theorem witness_ReverseCountRaisesOnce : State.reset.inputs.encCnt = false ∧ State.reset.reverseRun = false
    ∧ ({ State.reset with reverseRun := true } : State).reverseRun = true
    ∧ ({ idleInputs with encCnt := true } : InputLevels).encCnt = true := by decide

/-- An open run-out mark with its preheater and glue crossings, at P 900,000 (PH1 stands 135,000 mm upstream). -/
def openMark : ChangeMark :=
  changeAt 4 900000#32 none (some ⟨620, 0#32, 1000⟩) none .runOut (⟨.freeze, .done⟩ :: boundaryCrossings)

theorem witness_CrossingsFireAtTheirPoints :
    SoleEvent (onLine 764999 [.change openMark]) (.fire 4 (.ph .l1))
      ∧ (onLine 764999 [.change openMark]).findMark 4 = some (.change openMark) ∧ openMark.incoming = none
      ∧ (⟨.decision, .silent⟩ : CrossEntry).status = .silent ∧ (⟨.ph .l1, .done⟩ : CrossEntry).status ≠ .silent :=
  ⟨sole (by decide), by decide, rfl, rfl, by decide⟩

/-- The open run-out of order 620 at P 900,000 with order 621 at the head, its PH1 crossing done without a call. -/
def closing : State :=
  onLine 800000
    [.change { openMark with crossings := [⟨.ph .l1, .silent⟩, ⟨.decision, .silent⟩, ⟨.knife, .pending⟩] },
     .host ⟨5, 2000000#32, 9⟩]

theorem witness_ScheduleOrderMakesALineStart_closing :
    let m := { openMark with crossings := [⟨.ph .l1, .silent⟩, ⟨.decision, .silent⟩, ⟨.knife, .pending⟩] }
    closing.openRunOut = some m ∧ m.outgoing = some ⟨620, 0#32, 1000⟩ ∧ closing.MarksKeyed ∧ closing.marks.length < 48
      ∧ closing.suspended = [] ∧ closing.link.knife.length < 8 ∧ closing.errors.hold = false ∧ closing.planner = none
      ∧ closing.findOrder (field [2#8, 0x6D#8] 0 2) = some (orderIn 1 621 .queued)
      ∧ closing.runSeq.filter (· != field [2#8, 0x6D#8] 0 2) = []
      ∧ (held closing).errors.fatalSet = false ∧ (held closing).link.splice.length ≤ 3 ∧ (held closing).runSeq = 621 :: []
      ∧ (held closing).openRunOut = some m :=
  ⟨by decide, rfl, ⟨by decide, by decide⟩, by decide⟩

/-- A state whose stand L3 runs a reel of another code than order 621's. -/
def otherPaper (s : State) (q : Sequencer) : State :=
  { s.setSlot .l3 .a ⟨.running { paperM1 with ann := { annM1 with code := 1 } } false 0, false⟩ with
    seqs := { s.seqs with l3 := q } }

/-- Section 4.3: the run-out of order 410 at 2,400,000, closed at odometer 2,300,000: S_I 2,470,000, E 2,468,000, L3 due at
2,438,000. R69: a line start at P 470,000 plans L3 for P − 30,000; a stand in FAULT keeps its state. -/
theorem test_start_plans :
    let runOut : Mark := .change { openMark with p := 2400000#32 }
    let plan (s : State) : Option Splice × Option Plan × SeqState :=
      let q := (after (.scheduleOrder [2#8, 0x6D#8, 0#8, 0#8, 0#8]) s).seq .l3
      (q.splice, q.plan, q.state)
    let code := (grade7 2 1).fields.codes.l3
    plan (otherPaper (onLine 2300000 [runOut]) .reset)
        = (some ⟨.grade, 2438000#32⟩, some ⟨code, 2438000#32, 4, 2400000#32⟩, .armed)
      ∧ plan (otherPaper (onLine 300000 []) .reset)
        = (some ⟨.grade, 440000#32⟩, some ⟨code, 440000#32, 9, 470000#32⟩, .armed)
      ∧ plan (otherPaper (onLine 300000 []) { Sequencer.reset with state := .fault })
        = (none, some ⟨code, 440000#32, 9, 470000#32⟩, .fault) := by decide

theorem witness_StartPlansHanded :
    let s := otherPaper (onLine 300000 []) .reset
    s.findGrade (orderIn 1 621 .queued).fields.grade = some (grade7 2 1) ∧ s.runningCode .l3 = some 1
      ∧ 1 ≠ (grade7 2 1).fields.codes.l3 ∧ s.runningCode .l1 = none ∧ (s.seq .l3).state = .idle ∧ (s.seq .l3).plan = none
      ∧ reached s.odometer 440000#32 = false
      ∧ (let old : Plan := ⟨2170, 2000000#32, 8, 870000#32⟩
         old.mark ≠ 9 ∧ old.mark < s.serial ∧ s.findChange old.mark = none
           ∧ (otherPaper s { Sequencer.reset with state := .fault, plan := some old }).runningCode .l3 = some 1) := by decide

/-- R60, R64: a HOST cull over one cut of 1,000 mm puts the end of 52 clean cuts at the 53rd. -/
theorem witness_EndsSpan :
    let zones : List (Coord × Coord) := [(975000#32, 976000#32)]
    53 ≤ 52 + dirtyBound zones 1000 ∧ countCuts zones 1000 (fun _ => true) 53 970000#32 = 52
      ∧ cleanCut zones (plusMm 970000#32 (52 * 1000)) (plusMm 970000#32 (53 * 1000)) = true := by decide

/-- R71: S_I is the first cut end of 1,000 at or after 800,000 + F of 170,000; the closing start, the schedule and the
provisional end behind 52 cuts (Q 100, outs 2, allowance 2). -/
theorem test_closing_launch :
    (after (.scheduleOrder [2#8, 0x6D#8, 0#8, 0#8, 0#8]) closing).changes.map (fun m => (m.p, m.length, m.incoming, m.xEx))
        = [(900000#32, some 70000, some 621, 970000#32), (1022000#32, none, none, 1022000#32)]
      ∧ (after (.rushOrder [2#8, 0x6D#8]) closing).knife.split = [⟨4, 970000#32⟩]
      ∧ (after (.releaseHold []) (held closing)).link.knife = [.knifeSchedule 970000#32 1000 (some 621)] := by decide

/-- R15, R16: done without a call, then pending again at the incoming start. -/
theorem test_closing_rearms :
    (after .forwardCount (onLine 764999 [.change openMark])).changes.map (fun m => m.crossings.take 3)
        = [[⟨.freeze, .done⟩, ⟨.ph .l1, .silent⟩, ⟨.ph .m1, .pending⟩]]
      ∧ ((changeAt 4 900000#32 none none none .runOut [⟨.ph .l1, .silent⟩, ⟨.decision, .silent⟩]).closed 621 3000
          903000#32).crossings = [⟨.ph .l1, .rearmed⟩, ⟨.decision, .pending⟩]
      ∧ (changeAt 4 900000#32 (some 4000) none (some 621) .frozen []).point State.reset.config ⟨.ph .l1, .rearmed⟩
          = some 769000#32 := by decide

/-- The mark of order 620 whose freeze is due at the next count (F is 170,000). -/
def freezing : ChangeMark :=
  changeAt 0 900000#32 none (some ⟨620, 0#32, 1000⟩) none .provisional [⟨.freeze, .pending⟩, ⟨.decision, .pending⟩]

def atFreeze : State := { onLine 729999 [.change freezing] with planner := some ⟨0, 0#32, 900⟩ }

/-- The same with a full mark table. -/
def fullFreeze : State :=
  { atFreeze with
    marks := .change freezing :: (List.range 47).map fun i => .host ⟨i + 1, 2000000#32, 100⟩
    serial := 48 }

theorem witness_FreezeLaunchesOrRunsOut :
    SoleEvent atFreeze (.fire 0 .freeze) ∧ SoleEvent (held atFreeze) (.fire 0 .freeze)
      ∧ SoleEvent { atFreeze with runSeq := [] } (.fire 0 .freeze)
      ∧ SoleEvent fullFreeze (.fire 0 .freeze)
      ∧ atFreeze.findMark 0 = some (.change freezing) ∧ freezing.outgoing = some ⟨620, 0#32, 1000⟩
      ∧ atFreeze.link.knife.length < 8 ∧ atFreeze.errors.hold = false ∧ atFreeze.marks.length < 48
      ∧ atFreeze.suspended = [] ∧ atFreeze.runSeq = 621 :: []
      ∧ atFreeze.findOrder 621 = some (orderIn 1 621 .queued) :=
  ⟨sole (by decide), sole (by decide), sole (by decide), sole (by decide), by decide⟩

/-- A freeze with order 622 of grade 8 on the stack, in a state and with a number of segments and good cuts. -/
def stackFreeze (st : OrderState) (segments good : Nat) (seq : List Nat) : State :=
  { atFreeze with
    orders := atFreeze.orders ++ [{ orderIn 2 622 st with
      fields := { (orderIn 2 622 st).fields with grade := 8 }, segments := segments, goodCuts := good, stacked := true }]
    grades := [grade7 2 1, ⟨1, { readGradeBody gradeBody7 with number := 8, codes := ⟨2150, 2200, 2150, 2150, 2150⟩ }, 1, 1⟩]
    suspended := [622], runSeq := seq }

theorem witness_FreezeLaunchesOrRunsOut_candidate :
    SoleEvent (stackFreeze .running 2 0 [621]) (.fire 0 .freeze) ∧ SoleEvent (stackFreeze .suspended 0 50 []) (.fire 0 .freeze)
      ∧ SoleEvent (stackFreeze .running 3 0 [621]) (.fire 0 .freeze)
      ∧ (let s := stackFreeze .running 2 0 [621]
         ∃ c, s.findOrder 622 = some c ∧ c.segments < 3 ∧ 0 < launchNeed s c ∧ c.state = .running
           ∧ s.findOrder 621 = some (orderIn 1 621 .queued) ∧ s.suspended = 622 :: [])
      ∧ (let s := stackFreeze .suspended 0 50 []
         ∃ c, s.findOrder 622 = some c ∧ c.segments < 3 ∧ launchNeed s c = 0 ∧ c.state = .suspended ∧ s.runSeq = [])
      ∧ (let s := stackFreeze .running 3 0 [621]
         ∃ c, s.suspended = 622 :: [] ∧ s.findOrder 622 = some c ∧ 3 ≤ c.segments) :=
  ⟨sole (by decide), sole (by decide), sole (by decide),
   ⟨_, rfl, by decide, by decide, by decide, by decide, by decide⟩,
   ⟨_, rfl, by decide, by decide, by decide, by decide⟩, ⟨_, by decide, rfl, by decide⟩⟩

/-- R62, R29, R63: the continuation goes before the head, popped; one that needs nothing is dropped, DONE and COMPLETE; with
3 segments it stays and the head is taken. -/
theorem test_candidate :
    (let t := after .forwardCount (stackFreeze .running 2 30 [621])
     t.changes.map (·.incoming) = [some 622, none] ∧ t.suspended = [] ∧ t.planner.map (·.count) = some 22
       ∧ t.runSeq = [621])
    ∧ (let t := after .forwardCount (stackFreeze .suspended 0 50 [])
       (t.findOrder 622).map (fun o => (o.state, o.outcome)) = some (.done, some .complete)
         ∧ t.changes.map (·.state) = [.runOut])
    ∧ (let t := after .forwardCount (stackFreeze .running 3 0 [621])
       t.changes.map (·.incoming) = [some 621, none] ∧ t.suspended = [622]) := by decide

/-- The freeze to grade 8, which changes the paper of M1, with M1's sequencer and running reel. -/
def planFreeze (q : Sequencer) (code : Nat) (more : List Mark) : State :=
  let s := stackFreeze .running 2 0 [621]
  { s with
    marks := s.marks ++ more
    seqs := { s.seqs with m1 := q }
    reels := { s.reels with m1 := ⟨⟨.running { paperM1 with ann := { annM1 with code := code } } false 0, false⟩,
      ⟨.empty none, false⟩⟩ } }

/-- The change before, its plan for M1 still pending: P 870,000 and a zone of 2,000 mm. -/
def missed : ChangeMark := changeAt 8 870000#32 (some 2000) (some ⟨619, 0#32, 1000⟩) (some 620) .frozen []

def missedPlan : Sequencer :=
  { Sequencer.reset with state := .armed, splice := some ⟨.grade, 2000000#32⟩, plan := some ⟨2170, 2000000#32, 8, 870000#32⟩ }

theorem witness_FreezeLaunchesOrRunsOut_plans :
    SoleEvent (planFreeze .reset 2150 []) (.fire 0 .freeze) ∧ SoleEvent (planFreeze .reset 2200 []) (.fire 0 .freeze)
      ∧ SoleEvent (planFreeze missedPlan 2150 [.change missed]) (.fire 0 .freeze)
      ∧ SoleEvent (planFreeze { Sequencer.reset with state := .fault } 2150 []) (.fire 0 .freeze)
      ∧ SoleEvent (planFreeze { Sequencer.reset with state := .splicing } 2150 []) (.fire 0 .freeze)
      ∧ SoleEvent (planFreeze { Sequencer.reset with state := .armed, splice := some ⟨.manual, 2000000#32⟩ } 2150 [])
          (.fire 0 .freeze)
      ∧ (let s := planFreeze missedPlan 2150 [.change missed]
         s.findChange 8 = some missed ∧ s.runningCode .m1 = some 2150 ∧ (planFreeze .reset 2200 []).runningCode .m1 = some 2200
           ∧ reached (s.odometer + 1#32) (shiftBy 900000#32 ((jointAim s.config : Int) - (pathOf s.config .m1 : Int))) = false)
      ∧ (∃ go gi, (planFreeze .reset 2150 []).findGrade 7 = some go ∧ (planFreeze .reset 2150 []).findGrade 8 = some gi
          ∧ go.fields.codes.get .m1 ≠ gi.fields.codes.get .m1 ∧ go.fields.codes.get .l1 = gi.fields.codes.get .l1) :=
  ⟨sole (by decide), sole (by decide), sole (by decide), sole (by decide), sole (by decide), sole (by decide), by decide,
   _, _, rfl, rfl, by decide, by decide⟩

/-- R103, R104: an idle stand arms GRADE; a plan that the running reel meets is cleared with the gap from the knife
coordinate, 730,000 - 78,000, to P; a replaced plan leaves the gap from 872,000 to P. -/
theorem test_plans :
    ((after .forwardCount (planFreeze .reset 2150 [])).seq .m1).state = .armed
      ∧ (let t := after .forwardCount (planFreeze .reset 2200 [])
         t.seq .m1 = .reset ∧ (t.marks.filter Mark.isGap).map Mark.start = [652000#32]
           ∧ ErrorKind.gradeGap.isIn t.errors.status = true)
      ∧ (let t := after .forwardCount (planFreeze missedPlan 2150 [.change missed])
         t.marks.filter Mark.isGap = [.gap ⟨10, 872000#32, 28000, .m1⟩] ∧ (t.seq .m1).plan.map (·.code) = some 2200) := by
  decide

/-- R66, R64: order 621 follows behind a zone of two of its cuts (G_min is 2,000); the outgoing order keeps its P. -/
theorem test_freeze :
    let t := after .forwardCount atFreeze
    t.changes.map (fun m => (m.state, m.p, m.length, m.incoming))
        = [(.frozen, 900000#32, some 2000, some 621), (.provisional, 954000#32, none, none)]
      ∧ t.link.knife = [.knifeSchedule 900000#32 1000 (some 621)] ∧ t.runSeq = [] ∧ t.errors.status = 0#18
      ∧ (after .forwardCount { atFreeze with runSeq := [] }).errors.status = 0x40#18 := by decide

/-- A HOST mark whose end passes the knife's clearance at the next count: 3,000 + 78,000 + 9,000 (section 1.7). -/
def passing : State :=
  { provisional620 with
    odometer := 89999#32, marks := [.host ⟨7, 500#32, 2500⟩, .change provisionalMark], serial := 9 }

/-- An open run-out mark whose segment start lies 2^30 mm behind at the next count. -/
def longRunOut : ChangeMark := changeAt 4 0#32 none (some ⟨620, 0#32, 1000⟩) none .runOut []

theorem witness_MarksRetireAndRebase :
    SoleEvent passing (.retire 7) ∧ passing.findMark 7 = some (.host ⟨7, 500#32, 2500⟩)
      ∧ (Mark.host ⟨7, 500#32, 2500⟩).cullZone = some (500#32, 3000#32)
      ∧ passing.provisional = some (⟨0, 0#32, 900⟩, provisionalMark)
      ∧ overlaps 0#32 provisionalMark.p 500#32 3000#32 = true
      ∧ overlaps 3000#32 provisionalMark.p 500#32 3000#32 = false
      ∧ SoleEvent (onLine 1073741823 [.change longRunOut]) (.rebase 4)
      ∧ (onLine 1073741823 [.change longRunOut]).findMark 4 = some (.change longRunOut) :=
  ⟨sole (by decide), by decide, by decide, by decide, by decide, by decide, sole (by decide), by decide⟩

/-- R73: no clean cut is lost before the zone's end, so the base moves to 3,000 and the count stays; R19: P and S go to the
first cut end at or after 2^29. -/
theorem test_retire_rebase :
    (after .forwardCount passing).planner = some ⟨0, 3000#32, 900⟩ ∧ (after .forwardCount passing).marks.length = 1
      ∧ (after .forwardCount (onLine 1073741823 [.change longRunOut])).changes.map (·.p) = [536871000#32] := by decide

theorem witness_WindowCloseSetsSpeedAndCondition : State.reset.delta = 0 ∧ State.reset.zeroWindows = 20
    ∧ 0 < ({ State.reset with delta := 1 } : State).delta
    ∧ (after .speedWindowClose { State.reset with zeroWindows := 18 }).zeroWindows ≠ 20
    ∧ ({ State.reset with zeroWindows := 19 } : State).zeroWindows ≠ 20 := by decide

/-- A preheater L1 with an active grade at an output, and a window that has seen some counts. -/
def heated (output delta : Nat) : State :=
  { State.reset with
    delta := delta, zeroWindows := 0, stopped := false
    preheaters := { State.reset.preheaters with l1 := ⟨some ⟨7, curve163⟩, none, output, none⟩ } }

theorem witness_WindowCloseSlewsThePreheaters :
    ((heated 0 0).preheaters.get .l1).active = some ⟨7, curve163⟩ ∧ ((heated 0 0).preheaters.get .m1).active = none
      ∧ ((after .speedWindowClose (heated 0 0)).preheaters.get .l1).output = 10
      ∧ (heated 0 0).link.bond.length ≤ 3 := by decide

theorem witness_WindowCloseSlewsThePreheaters_target :
    ((heated 0 305).preheaters.get .l1).active = some ⟨7, curve163⟩ ∧ curve163.valid = true
      ∧ min 9999 (6 * (heated 0 83).delta) ≤ 10 * curve163.b0.speed
      ∧ 10 * curve163.b3.speed ≤ min 9999 (6 * (heated 0 1667).delta)
      ∧ 10 * curve163.b1.speed ≤ min 9999 (6 * (heated 0 250).delta)
      ∧ min 9999 (6 * (heated 0 250).delta) < 10 * curve163.b2.speed := by decide

theorem witness_AnnounceReelActsByState : announceM1.length = 13 ∧ placeOf announceM1 = some (.m1, .b)
    ∧ announcementOf announceM1 = some annM1
    ∧ ((atM1 paperM1 (.empty none)).slot .m1 .b).reel.inRole = false
    ∧ (atM1 paperM1 (.empty none)).splicingReady .m1 .b = false
    ∧ ((atM1 paperM1 (.loaded 20417733 14000)).slot .m1 .b).reel = .loaded 20417733 14000
    ∧ ((atM1 paperM1 (.mismatch 1 annM1 9)).slot .m1 .b).reel = .mismatch 1 annM1 9
    ∧ ((atM1 paperM1 (.verified paperM1)).slot .m1 .b).reel = .verified paperM1
    ∧ paperM1.readId ≠ 0 ∧ paperM1.readId = annM1.id
    ∧ ((atM1 paperM1 (.exhausted paperM1)).slot .m1 .b).reel.inRole = true := by decide

theorem witness_WithdrawReelDropsHostData : placeOf l1A = some (.l1, .a) ∧ l1A.length = 2
    ∧ [Reel.announced annM1, .verified paperM1, .mismatch 1 annM1 9].all (fun r =>
        ((atL1 (inState .idle) r (.empty none)).slot .l1 .a).reel == r
          && !(atL1 (inState .idle) r (.empty none)).splicingReady .l1 .a) = true
    ∧ (atL1 (inState .splicing) (.verified paperM1) (.running paperM1 false 0)).splicingReady .l1 .a = true := by decide

theorem witness_ReelsEnterAndLeaveTheRunningRole_thread : placeOf l1A = some (.l1, .a)
    ∧ (let s := atL1 { Sequencer.reset with plan := some ⟨2300, 0#32, 0, 0#32⟩ } (.verified paperM1) (.empty none)
       s.runningPos .l1 = none ∧ (s.slot .l1 .a).reel = .verified paperM1
         ∧ reserveOf s.config .l1 < paperM1.remaining ∧ (2300 : Nat) ≠ paperM1.ann.code)
    ∧ (let s := atL1 .reset (.loaded 5 0) (.empty none)
       s.runningPos .l1 = none ∧ (s.slot .l1 .a).reel = .loaded 5 0)
    ∧ (let s := atL1 .reset (.mismatch 5 annM1 0) (.empty none)
       s.runningPos .l1 = none ∧ (s.slot .l1 .a).reel = .mismatch 5 annM1 0)
    ∧ ((atL1 .reset (.exhausted paperM1) (.empty none)).runningPos .l1).isSome = true := by decide

theorem witness_ReelsEnterAndLeaveTheRunningRole_unthread : standOf (field l1 0 1) = some .l1
    ∧ [Reel.running paperM1 true 7, .unidentified 5 0, .exhausted paperM1].all (fun r =>
        let s := atL1 (inState .fault) (.empty none) r
        s.runningPos .l1 == some .b && s.stopped && (s.seq .l1).state == .fault && (s.slot .l1 .b).reel == r) = true
    ∧ State.reset.runningPos .l1 = none := by decide

theorem witness_ReelReportsActByState : (99999999 : Nat) ≤ 99999999
    ∧ [Reel.empty none, .loaded 1 2, .announced annM1, .verified paperM1, .mismatch 1 annM1 2,
        .running paperM1 false 0].all (fun r => ((atL1 .reset r (.empty none)).slot .l1 .a).reel == r) = true
    ∧ annM1.force = false ∧ annM1.id = 20417733 ∧ (Reel.unidentified 0 0).inRole = true := by decide

theorem witness_DiameterRecomputesTheLength :
    [Reel.empty none, .announced annM1, .loaded 1 2, .mismatch 1 annM1 2, .unidentified 1 2, .exhausted paperM1,
        .verified paperM1, .running paperM1 true 30100].all
      (fun r => ((atL1 .reset r (.empty none)).slot .l1 .a).reel == r) = true
    ∧ (atL1 .reset (.running paperM1 true 30100) (.empty none)).runningPos .l1 = some .a
    ∧ paperLength 20000 1520 230 ≠ 0 ∧ reserveOf State.reset.config .l1 < paperLength 20000 1520 230
    ∧ paperLength 1520 1520 230 = 0 := by decide

theorem witness_RunOutAndStaleReels :
    (let s := atM1 { paperM1 with remaining := 0 } (.empty none)
     s.runningPos .m1 = some .a ∧ (s.seq .m1).deferred = none
       ∧ ErrorKind.runOut.isIn s.errors.mask = false ∧ ErrorKind.runOut.isIn s.errors.severity = true)
    ∧ staleLimit State.reset.config < 30001 ∧ 30000 ≤ staleLimit State.reset.config
    ∧ (29900 : Nat) + 100 ≤ staleLimit State.reset.config ∧ staleLimit State.reset.config ≤ 120000
    ∧ 0 < (heated 0 1).delta := by decide

theorem witness_RequestSpliceArmsAndChecks : standOf (field l1 0 1) = some .l1
    ∧ (let s := atL1 { Sequencer.reset with state := .armed, splice := some ⟨.grade, 5#32⟩ } (.running paperM1 false 0)
          (.verified paperM1)
       (s.runningPos .l1).isSome = true ∧ (s.seq .l1).state = .armed ∧ (s.checkPasses .l1 .manual).isSome = true)
    ∧ (let s := atL1 .reset (.running paperM1 false 0) (.empty none)
       (s.runningPos .l1).isSome = true ∧ (s.seq .l1).state = .idle ∧ s.checkPasses .l1 .manual = none)
    ∧ State.reset.runningPos .l1 = none ∧ (inState .splicing).state ≠ .idle ∧ (inState .splicing).state ≠ .armed := by
  decide

theorem witness_ClearStandTakesTheNextState : standOf (field l1 0 1) = some .l1
    ∧ (let s := atL1 (inState .fault) (.empty none) (.empty none)
       (s.seq .l1).state = .fault ∧ s.runningPos .l1 = none ∧ (s.seq .l1).plan = none ∧ s.low .l1 = false)
    ∧ (let s := atL1 (inState .fault) (.running { paperM1 with remaining := 150000 } false 0) (.empty none)
       (s.seq .l1).plan = none ∧ s.low .l1 = true)
    ∧ (let s := atL1 { inState .fault with plan := some ⟨2300, 1#32, 0, 9#32⟩ } (.running paperM1 false 0) (.empty none)
       s.low .l1 = false ∧ reached s.odometer 1#32 = false)
    ∧ (let s := atL1 (inState .fault) (.exhausted paperM1) (.empty none)
       s.runningPos .l1 = some .a ∧ (s.slot .l1 .a).reel = .exhausted paperM1) := by decide

theorem witness_JointPulseSwapsTheRoles :
    (let s := atL1 (inState .splicing) (.running paperM1 false 0) (.verified paperM1)
     s.runningPos .l1 = some .a ∧ s.marks.length < 48 ∧ (s.slot .l1 Pos.a.other).reel = .verified paperM1
       ∧ 0 < paperM1.remaining ∧ (s.seq .l1).state = .splicing ∧ (s.seq .l1).plan = none
       ∧ (s.seq .l1).deferred = none ∧ reserveOf s.config .l1 < paperM1.remaining)
    ∧ (let s : State := { atL1 (inState .fault) (.exhausted paperM1) (.announced annM1) with
          marks := List.replicate 48 (.host ⟨0, 9#32, 1⟩) }
       s.runningPos .l1 = some .a ∧ 48 ≤ s.marks.length ∧ (s.seq .l1).state = .fault)
    ∧ jointLevel State.reset.inputs .l1 = true ∧ jointLevel { idleInputs with jnt1 := false } .l1 = false
    ∧ (let s := atL1 (inState .idle) (.unidentified 1 2) (.mismatch 3 annM1 4)
       s.runningPos .l1 = some .a ∧ (s.slot .l1 Pos.a.other).reel = .mismatch 3 annM1 4)
    ∧ (let s : State := { atL1 (inState .splicing) (.running paperM1 false 0) (.verified paperM1) with
          marks := [.change provisionalMark], planner := some ⟨0, 0#32, 900⟩, serial := 1 }
       (s.seq .l1).plan = none ∧ s.provisional = some (⟨0, 0#32, 900⟩, provisionalMark) ∧ s.marks.length < 48
         ∧ overlaps 0#32 provisionalMark.p (shiftBy (plusMm s.odometer (pathOf s.config .l1)) (-600))
             (plusMm (plusMm s.odometer (pathOf s.config .l1)) 1800) = true) := by decide

/-- L1 in SPLICING for a plan to 2,150 at P, the change mark with a zone of 2,000 mm, if it is live. -/
def gradeSplice (p : Coord) (out : Option Outgoing) (live : Bool) : State :=
  { atL1 { inState .splicing with plan := some ⟨2150, 0#32, 0, p⟩ } (.running paperM1 false 0) (.verified paperM1) with
    odometer := 800000#32, serial := 9
    marks := if live then [.change (changeAt 0 p (some 2000) out (some 621) .frozen [])] else [] }

theorem witness_JointPulseSwapsTheRoles_grade :
    let s := gradeSplice 1000000#32 (some ⟨620, 0#32, 1000⟩) true
    let j := plusMm s.odometer (pathOf s.config .l1)
    s.MarksKeyed ∧ s.runningPos .l1 = some .a ∧ (s.seq .l1).deferred = none ∧ 0 < paperM1.remaining
      ∧ (s.seq .l1).plan = some ⟨2150, 0#32, 0, 1000000#32⟩ ∧ paperM1.ann.code = 2150
      ∧ s.findChange 0 = some (changeAt 0 1000000#32 (some 2000) (some ⟨620, 0#32, 1000⟩) (some 621) .frozen [])
      ∧ before j 1000000#32 = true ∧ s.marks.length + 2 ≤ 48
      ∧ before j 900000#32 = false ∧ before (plusMm 900000#32 2000) j = true
      ∧ before j j = false ∧ before (plusMm j 2000) j = false
      ∧ ({ paperM1 with ann := { annM1 with code := 2120 } } : Paper).ann.code ≠ 2150
      ∧ (gradeSplice 1000000#32 none true).MarksKeyed ∧ (gradeSplice 0#32 none false).MarksKeyed
      ∧ (gradeSplice 0#32 none false).findChange 0 = none :=
  ⟨⟨by decide, by decide⟩, by decide, by decide, by decide, by decide, by decide, by decide, by decide, by decide,
   by decide, by decide, by decide, by decide, by decide, ⟨by decide, by decide⟩, ⟨by decide, by decide⟩, by decide⟩

theorem witness_JointPulseSwapsTheRoles_noRole :
    let s := atL1 (inState .idle) (.verified paperM1) (.announced annM1)
    s.runningPos .l1 = none ∧ (s.slot .l1 .a).reel.reported = true ∧ (s.slot .l1 Pos.a.other).reel.reported = false
      ∧ (let u := atL1 (inState .idle) (.verified paperM1) (.loaded 1 2)
         u.runningPos .l1 = none ∧ (u.slot .l1 .a).reel.reported = (u.slot .l1 .b).reel.reported)
      ∧ (let u := atL1 (inState .idle) (.empty none) (.mismatch 1 annM1 2)
         u.runningPos .l1 = none ∧ (u.slot .l1 .b).reel.reported = true) := by decide

/-- R114: the gap before P, after the zone and from a retired mark; R113: a joint at a stand without a running role. -/
theorem test_joint_gaps :
    let gaps (s : State) : List Mark := (after (.jointPulse .l1) s).marks.filter Mark.isGap
    let out : Option Outgoing := some ⟨620, 0#32, 1000⟩
    let j := plusMm 800000#32 (pathOf State.reset.config .l1)
    gaps (gradeSplice (j + 5000#32) out true) = [.gap ⟨10, j, 5000, .l1⟩]
      ∧ gaps (gradeSplice (j + 5000#32) none true) = [] ∧ gaps (gradeSplice (j - 2000#32) out true) = []
      ∧ gaps (gradeSplice (j - 3000#32) out true) = [.gap ⟨10, j - 1000#32, 1000, .l1⟩]
      ∧ (gaps (gradeSplice 0#32 out false)).map Mark.start = [knifeCoord (gradeSplice 0#32 out false)]
      ∧ (after (.jointPulse .l1) (atL1 (inState .idle) (.verified paperM1) (.announced annM1))).slot .l1 .a
          = ⟨.running paperM1 false 0, false⟩ := by decide

def settingStation (retry : Nat) (timer : Option Timer) : SlitterStation :=
  ⟨.setting, some 620, some 0, some ⟨[0, 6000, 12000], [3000]⟩, retry, timer, none, some 4, none⟩

def setting (retry : Nat) (timer : Option Timer) : State :=
  { State.reset with stations := ⟨settingStation retry timer, .reset⟩, decisions := [⟨0, .servedBy .a⟩], serial := 5 }

theorem witness_TimersPutTheirUnitInFault :
    (let s := atL1 { inState .splicing with timer := some ⟨12001, 12000⟩ } (.running paperM1 false 0) (.empty none)
     (s.seq .l1).state = .splicing ∧ (s.seq .l1).timer = some ⟨12001, 12000⟩ ∧ (s.seq .l1).deferred = none)
    ∧ State.reset.spliceExpired .l1 = false ∧ State.reset.setExpired .a = false
    ∧ ((setting 0 (some ⟨45001, 45000⟩)).station .a).state = .setting
    ∧ ((setting 0 (some ⟨45001, 45000⟩)).station .a).timer = some ⟨45001, 45000⟩ := by decide

theorem witness_SetPositionsVerifiesTheStation :
    (setting 0 (some ⟨0, 45000⟩)).station .a = settingStation 0 (some ⟨0, 45000⟩)
    ∧ slitterTolerance State.reset.config = 5
    ∧ (([5, 5995, 12005, 3000].zip ([0, 6000, 12000] ++ [3000])).all fun q => decide (q.1 ≤ q.2 + 5 ∧ q.2 ≤ q.1 + 5)) = true
    ∧ ¬ (6 : Nat) ≤ 0 + 5 ∧ (setting 0 none).link.slitter.length < 8 ∧ (settingStation 1 none).retry ≠ 0
    ∧ (settingStation 1 none).timer = none := by decide

/-- R130, section 7: positions within the tolerance make the station READY; a first failure sets it again; a second fails it. -/
theorem test_set_positions :
    ((after (.setPositions .a [5, 5995, 12005, 3000]) (setting 0 (some ⟨9, 45000⟩))).station .a).state = .ready
    ∧ ((after (.setPositions .a [6, 6000, 12000, 3000]) (setting 0 (some ⟨9, 45000⟩))).station .a).retry = 1
    ∧ (after (.setPositions .a [0, 6000, 12000]) (setting 1 (some ⟨9, 45000⟩))).errors.status = 0x400#18 := by decide

theorem witness_ClearStationReturnsToStandby : stationOf (field [1#8] 0 1) = some .a
    ∧ ((setting 0 none).station .a).state ≠ .fault
    ∧ ({ State.reset with stations := ⟨{ SlitterStation.reset with state := .fault }, .reset⟩ } : State).station .a
        = { SlitterStation.reset with state := .fault } := by
  decide

/-- Three entries of the decision list, for orders 620, 622 and 621; 620 and 621 share a pattern, 622 has another. -/
def walking (a b : SlitterStation) (x y z : DecisionStatus) : State :=
  let mark (uid n : Nat) : Mark := .change (changeAt uid 9000#32 (some 600) none (some n) .frozen [])
  { with620 .running with
    orders := [orderIn 0 620 .running, orderIn 1 621 .running,
      { orderIn 2 622 .running with fields := { readOrderBody (orderBody 622) with pattern := ⟨[0, 500], []⟩ } }]
    marks := [mark 0 620, mark 1 622, mark 2 621], serial := 3
    decisions := [⟨0, x⟩, ⟨1, y⟩, ⟨2, z⟩], stations := ⟨a, b⟩ }

def faulted : SlitterStation := { SlitterStation.reset with state := .fault, retry := 1 }

def engagedOn620 : SlitterStation :=
  { SlitterStation.reset with state := .engaged, pattern := some ⟨[0, 6000, 12000], []⟩ }

/-- R128: the walk passes the entry of the engaged pattern as a skip, gives the next to the IDLE station and leaves the third;
of two IDLE stations it takes A; an entry served by a station ends it; a list of skips is walked to its end. -/
theorem test_walk :
    (let t := after (.clearStation [2#8]) (walking engagedOn620 faulted .unassigned .unassigned .unassigned)
     t.decisions = [⟨0, .skip⟩, ⟨1, .servedBy .b⟩, ⟨2, .unassigned⟩] ∧ (t.station .b).order = some 622
       ∧ (t.station .b).pattern = some ⟨[0, 500], []⟩)
    ∧ (let t := after (.clearStation [1#8]) (walking faulted .reset .unassigned .unassigned .unassigned)
       t.decisions = [⟨0, .servedBy .a⟩, ⟨1, .unassigned⟩, ⟨2, .unassigned⟩] ∧ (t.station .b).state = .idle)
    ∧ (let t := after (.clearStation [1#8]) (walking faulted .reset (.servedBy .b) .unassigned .unassigned)
       t.decisions = [⟨0, .servedBy .b⟩, ⟨1, .unassigned⟩, ⟨2, .unassigned⟩] ∧ (t.station .a).state = .idle)
    ∧ (after (.clearStation [2#8]) (walking engagedOn620 faulted .skip .skip .unassigned)).decisions
        = [⟨0, .skip⟩, ⟨1, .skip⟩, ⟨2, .skip⟩] := by decide

theorem witness_Walked :
    let u := walking engagedOn620 .reset .skip .unassigned .unassigned
    u.decisions = [⟨0, .skip⟩] ++ [⟨1, .unassigned⟩, ⟨2, .unassigned⟩] ∧ u.engaged = some .a
      ∧ (u.station .a).pattern = some ⟨[0, 6000, 12000], []⟩ ∧ (u.station .b).state = .idle ∧ (u.station .a).state ≠ .idle
      ∧ u.link.slitter.length < 8
      ∧ (∃ o m, u.findOrder o.fields.number = some o ∧ u.findChange 1 = some m ∧ m.incoming = some o.fields.number
          ∧ o.fields.pattern = ⟨[0, 500], []⟩)
      ∧ (∃ o m, u.findOrder o.fields.number = some o ∧ u.findChange 2 = some m ∧ m.incoming = some o.fields.number
          ∧ (u.station .a).pattern = some o.fields.pattern)
      ∧ ((walking engagedOn620 faulted .skip .unassigned .unassigned).station .b).state ≠ .idle :=
  ⟨rfl, by decide, rfl, rfl, by decide, by decide,
   ⟨{ orderIn 2 622 .running with fields := { readOrderBody (orderBody 622) with pattern := ⟨[0, 500], []⟩ } },
     changeAt 1 9000#32 (some 600) none (some 622) .frozen [], by decide, by decide, by decide, by decide⟩,
   ⟨orderIn 1 621 .running, changeAt 2 9000#32 (some 600) none (some 621) .frozen [], by decide, by decide, by decide,
     by decide⟩, by decide⟩

/-- A frozen boundary at 900,000 whose decision point, P + 62,000 − 5,000, is reached at the next count. -/
def deciding : ChangeMark :=
  changeAt 0 900000#32 (some 2000) (some ⟨620, 0#32, 1000⟩) (some 621) .frozen [⟨.decision, .pending⟩]

/-- The mark behind it, at the end of order 621's segment. -/
def laterMark (p : Coord) : ChangeMark := changeAt 1 p none (some ⟨621, 902000#32, 1000⟩) none .provisional []

def atDecision (p : Coord) (status : DecisionStatus) (b : StationState) : State :=
  { onLine 956999 [.change deciding, .change (laterMark p)] with
    decisions := [⟨0, status⟩]
    stations := ⟨{ SlitterStation.reset with state := .engaged, order := some 620, pattern := some ⟨[0, 500], []⟩ },
      { SlitterStation.reset with state := b, order := some 621, served := some 0 }⟩ }

/-- A late change whose later mark is provisional, planned for five cuts; the zone before it as given. -/
def lateProvisional (g : Nat) : State :=
  { atDecision 1500000#32 (.servedBy .b) .setting with
    marks := [.change { deciding with length := some g }, .change (laterMark 1500000#32)], planner := some ⟨1, 1495000#32, 5⟩ }

theorem witness_DecisionServesSkipsOrExtends :
    SoleEvent (atDecision 1500000#32 .skip .idle) (.fire 0 .decision)
      ∧ SoleEvent (atDecision 1500000#32 (.servedBy .b) .ready) (.fire 0 .decision)
      ∧ SoleEvent (atDecision 1500000#32 (.servedBy .b) .setting) (.fire 0 .decision)
      ∧ SoleEvent (atDecision 903000#32 (.servedBy .b) .setting) (.fire 0 .decision)
      ∧ SoleEvent { atDecision 1500000#32 .unassigned .fault with decisions := [] } (.fire 0 .decision)
      ∧ (let s := atDecision 1500000#32 (.servedBy .b) .setting
         s.findMark 0 = some (.change deciding) ∧ s.engaged = some .a ∧ s.link.slitter.length < 8 ∧ s.planner = none
           ∧ s.nextChange 0 = some (laterMark 1500000#32) ∧ plusMm 902000#32 1000 ≠ 1500000#32
           ∧ plusMm 902000#32 1000 = 903000#32 ∧ deciding.extensions = 0
           ∧ gMax s.config < 29001 + 1000 ∧ 29001 ≤ gMax s.config)
      ∧ SoleEvent (lateProvisional 2000) (.fire 0 .decision) ∧ SoleEvent (lateProvisional 29001) (.fire 0 .decision)
      ∧ (let s := lateProvisional 29001
         s.findMark 0 = some (.change { deciding with length := some 29001 })
           ∧ s.nextChange 0 = some (laterMark 1500000#32) ∧ s.planner = some ⟨1, 1495000#32, 5⟩
           ∧ (laterMark 1500000#32).pinned = false ∧ ({ laterMark 1500000#32 with pinned := true } : ChangeMark).pinned = true) :=
  ⟨sole (by decide), sole (by decide), sole (by decide), sole (by decide), sole (by decide), by decide,
   sole (by decide), sole (by decide), by decide⟩

/-- R74, R136: a late change moves the base to the new start and the provisional end with it, never back; above G_max the
end is curtailed to the floor and pinned. -/
theorem test_late_provisional :
    (let t := after .forwardCount (lateProvisional 2000)
     t.planner = some ⟨1, 903000#32, 5⟩ ∧ t.changes.map (fun m => (m.p, m.pinned)) = [(900000#32, false), (1500000#32, false)])
    ∧ (let s := { lateProvisional 2000 with marks := [.change deciding, .change (laterMark 907000#32)] }
       (after .forwardCount s).changes.map (fun m => (m.p, m.xEx)) = [(900000#32, 901000#32), (908000#32, 908000#32)])
    ∧ (let t := after .forwardCount (lateProvisional 29001)
       t.changes.map (fun m => (m.p, m.pinned)) = [(900000#32, false), (1127000#32, true)]) := by decide

/-- R133, R134, R135, R137: exchange, skip, extension, void. -/
theorem test_decision :
    (after .forwardCount (atDecision 1500000#32 (.servedBy .b) .ready)).link.slitter
        = [.slitterExchange .b (some .a) (some 900000#32) (atDecision 1500000#32 (.servedBy .b) .ready).serial]
      ∧ ((after .forwardCount (atDecision 1500000#32 .skip .idle)).station .a).order = some 621
      ∧ (let t := after .forwardCount (atDecision 1500000#32 (.servedBy .b) .setting)
         t.changes.map (fun m => (m.length, m.xEx)) = [(some 3000, 901000#32), (none, 1500000#32)]
           ∧ t.errors.status = 0x80#18 ∧ t.decisions = [⟨0, .servedBy .b⟩])
      ∧ (let t := after .forwardCount (atDecision 903000#32 (.servedBy .b) .setting)
         t.decisions = [] ∧ (t.station .b).state = .idle) := by decide

/-- The knife in the segment of the provisional mark, the nominal cut at a distance from the knife. -/
def cutting (n : Coord) (spoiled : Bool) : State :=
  { provisional620 with
    odometer := shiftBy 5000#32 (knOffset State.reset.config)
    knife := { Knife.reset with owner := .segment 0, grid := some ⟨.segment 0, n, 1000, spoiled⟩ } }

theorem witness_CutPulseJudgesTheSheet : State.reset.knife.owner = .unassigned ∧ State.reset.inputs.cut = true
    ∧ ({ idleInputs with cut := false } : InputLevels).cut = false
    ∧ knifeCoord (cutting 5000#32 false) = 5000#32
    ∧ (let s := cutting 4997#32 false
       s.knife.owner ≠ .unassigned ∧ s.findChange 0 = some provisionalMark
         ∧ provisionalMark.outgoing = some ⟨620, 0#32, 1000⟩ ∧ 2 * sdist 4997#32 (knifeCoord s) < 1000
         ∧ -(1000 : Int) ≤ 2 * sdist 4997#32 (knifeCoord s) ∧ (4997#32 : Coord) ≠ provisionalMark.p
         ∧ sdist 4997#32 (knifeCoord s) ≤ cutTolerance s.config
         ∧ s.findOrder 620 = some (orderIn 0 620 .running)
         ∧ min 2000 ((orderIn 0 620 .running).stackFill + 1) < (orderIn 0 620 .running).fields.stackSize)
    ∧ (cutTolerance State.reset.config : Int) < sdist 4996#32 (knifeCoord (cutting 4996#32 false))
    ∧ 2 * sdist 5501#32 (knifeCoord (cutting 5501#32 false)) < -(1000 : Int)
    ∧ ¬ 2 * sdist 5500#32 (knifeCoord (cutting 5500#32 false)) < -(1000 : Int) := by decide

/-- R145: a match 3 mm late is a good cut, 4 mm late deviates, a cut 501 mm early is an extra one. -/
theorem test_cut_pulse :
    ((after .cutPulse (cutting 4997#32 false)).findOrder 620).map (·.goodCuts) = some 1
    ∧ ((after .cutPulse (cutting 4996#32 false)).findOrder 620).map (·.byReason.deviation) = some 1
    ∧ (after .cutPulse (cutting 5501#32 false)).knife.grid = some ⟨.segment 0, 5501#32, 1000, true⟩
    ∧ (after .cutPulse (cutting 4997#32 false)).knife.grid = some ⟨.segment 0, 5997#32, 1000, false⟩ := by decide

theorem matching {s : State} {g : Grid}
    (h : s.inputs.cut = true ∧ s.knife.owner ≠ .unassigned ∧ s.knife.grid = some g ∧ 2 * cutTolerance s.config < g.sheet
      ∧ -(cutTolerance s.config : Int) ≤ sdist g.n (knifeCoord s)
      ∧ sdist g.n (knifeCoord s) ≤ cutTolerance s.config) : MatchingCut s g := h

/-- The nominal cut 5,000 at a grid position, the knife on it, culls of every kind over its sheet. -/
def gridCut (pos : GridPos) (spoiled : Bool) (marks : List Mark) : State :=
  { cutting 5000#32 spoiled with
    knife := { Knife.reset with owner := .segment 0, grid := some ⟨pos, 5000#32, 1000, spoiled⟩ }
    marks := marks, serial := 9 }

/-- The sheet [4,000, 5,000) with cull zones and a lag stretch on either side of it, none of which overlaps it. -/
def besideCulls (s : State) : State :=
  { s with
    marks := [.gap ⟨3, 3000#32, 1000, .l1⟩, .host ⟨5, 5000#32, 1⟩] ++ s.marks
    knife := { s.knife with lag := [⟨3500#32, 4000#32⟩, ⟨5000#32, 5001#32⟩] } }

/-- Whether a sheet is clear of culls, as a computation. -/
def isClear (s : State) (g : Grid) : Bool :=
  (s.marks.all fun m => match m.cullZone with
    | some z => !overlaps (g.n - BitVec.ofNat 32 g.sheet) g.n z.1 z.2
    | none => true)
  && s.knife.lag.all fun e => !overlaps (g.n - BitVec.ofNat 32 g.sheet) g.n e.start e.stop

theorem clear {s : State} {g : Grid} (h : isClear s g = true) : ClearSheet s g := by
  simp only [isClear, Bool.and_eq_true, List.all_eq_true] at h
  refine ⟨fun x hx z hz => ?_, fun e he => by simpa using h.2 e he⟩
  have := h.1 x hx
  simp_all

theorem witness_CutPulseJudgesTheSheet_clear :
    let s := besideCulls (cutting 5000#32 false)
    let g : Grid := ⟨.segment 0, 5000#32, 1000, false⟩
    ClearSheet s g ∧ s.inputs.cut = true ∧ s.knife.owner ≠ .unassigned ∧ s.knife.grid = some g
      ∧ s.findChange 0 = some provisionalMark ∧ sdist g.n (knifeCoord s) = 0 ∧ g.n ≠ provisionalMark.p
      ∧ s.findOrder 620 = some (orderIn 0 620 .running)
      ∧ (ClearSheet (besideCulls (cutting 4996#32 false)) ⟨.segment 0, 4996#32, 996, false⟩) :=
  ⟨clear (by decide), by decide, by decide, by decide, by decide, by decide, by decide, by decide, clear (by decide)⟩

/-- R145, R148: culls beside the sheet do not cull it. -/
theorem test_cut_beside_culls :
    ((after .cutPulse (besideCulls (cutting 5000#32 false))).findOrder 620).map (·.goodCuts) = some 1 := by decide

/-- A boundary zone that ends at the nominal cut, and the mark behind it. -/
def zoneMarks : List Mark :=
  [.change (changeAt 0 3000#32 (some 2000) (some ⟨620, 0#32, 1000⟩) (some 621) .frozen []),
   .change (changeAt 1 90000#32 none (some ⟨621, 5000#32, 800⟩) none .provisional [])]

def gapOver : Mark := .gap ⟨3, 4000#32, 500, .l1⟩
def jointOver : Mark := .joint ⟨4, 4500#32, .m1, 600, 1800, []⟩
def hostOver : Mark := .host ⟨5, 4999#32, 1⟩

theorem witness_SheetsAreChargedByPlace :
    (let g : Grid := ⟨.zone 0, 5000#32, 1000, false⟩
     let s := gridCut g.pos false zoneMarks
     MatchingCut s g ∧ s.MarksKeyed ∧ (∃ m, s.findChange 0 = some m ∧ m.stop = some g.n)
       ∧ (∃ next, s.nextChange 0 = some next ∧ next.outgoing = some ⟨621, 5000#32, 800⟩ ∧ (5000#32 : Coord) ≠ next.p)
       ∧ (∃ m, (gridCut (.lead 1) false zoneMarks).findChange 1 = some m ∧ m.stop ≠ some g.n))
    ∧ (let g : Grid := ⟨.segment 0, 5000#32, 1000, true⟩
       let s := gridCut g.pos true [gapOver, jointOver, hostOver, .change provisionalMark]
       MatchingCut s g ∧ s.MarksKeyed ∧ s.findChange 0 = some provisionalMark ∧ g.n ≠ provisionalMark.p
         ∧ [gapOver, jointOver, hostOver].all (fun m => match m.cullZone with
             | some z => overlaps (g.n - BitVec.ofNat 32 g.sheet) g.n z.1 z.2
             | none => false) = true
         ∧ overlaps (g.n - BitVec.ofNat 32 g.sheet) g.n 3999#32 4001#32 = true) :=
  ⟨⟨matching (by decide), ⟨by decide, by decide⟩, ⟨_, rfl, by decide⟩, ⟨_, rfl, by decide, by decide⟩, _, rfl, by decide⟩,
   matching (by decide), ⟨by decide, by decide⟩, by decide, by decide, by decide, by decide⟩

/-- R148: GAP before JOINT before HOST before CHANGE before DEVIATION; the zone's last sheet is waste. -/
theorem test_charge :
    let culls (marks : List Mark) : Option CullCounts :=
      ((after .cutPulse (gridCut (.segment 0) true (marks ++ [.change provisionalMark]))).findOrder 620).map (·.byReason)
    culls [gapOver, jointOver, hostOver] = some ⟨0, 1, 0, 0, 0⟩ ∧ culls [jointOver, hostOver] = some ⟨0, 0, 1, 0, 0⟩
      ∧ culls [hostOver] = some ⟨0, 0, 0, 1, 0⟩ ∧ culls [] = some ⟨0, 0, 0, 0, 1⟩
      ∧ (let t := after .cutPulse (gridCut (.zone 0) false zoneMarks)
         t.changes.map (·.waste) = [1, 0] ∧ t.knife.grid = some ⟨.segment 1, 5800#32, 800, false⟩) := by decide

/-- Order 620 at a stack fill, its segment ending at P, the nominal cut 5,000 under the knife. -/
def stacking (fill outstanding : Nat) (p : Coord) (postponed : Option Postponed) : State :=
  { gridCut (.segment 0) false [.change { provisionalMark with p := p }] with
    orders := [{ orderIn 0 620 .running with segments := 1, stackFill := fill }]
    knife := ⟨.segment 0, some ⟨.segment 0, 5000#32, 1000, false⟩, [], [], outstanding, postponed⟩ }

theorem witness_StacksCloseWhenFullAndAtSegmentEnds_clear :
    let s := besideCulls (stacking 49 1 900000#32 none)
    let g : Grid := ⟨.segment 0, 5000#32, 1000, false⟩
    MatchingCut s g ∧ ClearSheet s g ∧ s.findChange 0 = some provisionalMark
      ∧ ClearSheet (stacking 49 2 900000#32 none) g ∧ ClearSheet (stacking 48 1 5000#32 none) g
      ∧ ClearSheet (stacking 60 2 900000#32 (some ⟨620, 3, none, false⟩)) g :=
  ⟨matching (by decide), clear (by decide), by decide, clear (by decide), clear (by decide), clear (by decide)⟩

theorem witness_StacksCloseWhenFullAndAtSegmentEnds :
    (let g : Grid := ⟨.segment 0, 5000#32, 1000, false⟩
     let s := stacking 49 1 900000#32 none
     MatchingCut s g ∧ s.findChange 0 = some provisionalMark
       ∧ s.findOrder 620 = some { orderIn 0 620 .running with segments := 1, stackFill := 49 }
       ∧ s.link.stacker.length < 8
       ∧ g.n ≠ provisionalMark.p ∧ 50 ≤ min 2000 (49 + 1) ∧ s.knife.outstanding < 2)
    ∧ MatchingCut (stacking 49 2 900000#32 none) ⟨.segment 0, 5000#32, 1000, false⟩
    ∧ (2 ≤ (stacking 49 2 900000#32 none).knife.outstanding ∧ (stacking 49 2 900000#32 none).knife.postponed = none)
    ∧ MatchingCut (stacking 60 2 900000#32 (some ⟨620, 3, none, false⟩)) ⟨.segment 0, 5000#32, 1000, false⟩
    ∧ MatchingCut (stacking 48 1 5000#32 none) ⟨.segment 0, 5000#32, 1000, false⟩
    ∧ (let m := { provisionalMark with p := 5000#32 }
       (stacking 48 1 5000#32 none).findChange 0 = some m ∧ m.stop ≠ some 5000#32 ∧ min 2000 (48 + 1) < 50) := by
  refine ⟨⟨matching (by decide), ?_⟩, matching (by decide), ?_, matching (by decide), matching (by decide), ?_⟩ <;> decide

/-- R154, R153, R151: a full stack closes, waits as the postponed one, and the segment end closes the last and ends the
order SHORT. -/
theorem test_stacks :
    (let t := after .cutPulse (stacking 49 1 900000#32 none)
     t.link.stacker = [.stackChange 620 1 50 false] ∧ t.knife.outstanding = 2
       ∧ (t.findOrder 620).map (fun o => (o.stackFill, o.stacksClosed)) = some (0, 1))
    ∧ (after .cutPulse (stacking 49 2 900000#32 none)).knife.postponed = some ⟨620, 1, none, false⟩
    ∧ (let t := after .cutPulse (stacking 48 1 5000#32 none)
       t.link.stacker = [.stackChange 620 1 49 true]
         ∧ (t.findOrder 620).map (fun o => (o.state, o.outcome)) = some (.done, some .short)
         ∧ t.knife.grid.map (·.pos) = some (.zone 0)) := by decide

/-- A line-start mark whose lead point, half a cut of 1,000 before P at the knife, is reached at the next count. -/
def startMarks : List Mark :=
  [.change (changeAt 0 170000#32 (some 0) none (some 620) .frozen []),
   .change (changeAt 1 900000#32 none (some ⟨620, 170000#32, 1000⟩) none .provisional [])]

def ownedBy (odo : Nat) (owner : Owner) (n : Coord) (marks : List Mark) : State :=
  { onLine odo marks with knife := { Knife.reset with owner := owner, grid := some ⟨.segment 0, n, 1000, false⟩ } }

/-- The boundary whose knife crossing, P + G + 78,000, fires at the next count. -/
def crossingMarks : List Mark :=
  [.change (changeAt 0 900000#32 (some 2000) (some ⟨620, 0#32, 1000⟩) (some 621) .frozen [⟨.knife, .pending⟩]),
   .change (laterMark 1500000#32)]

theorem witness_KnifeOwnerAndOverdueCuts :
    SoleEvent (onLine 247499 startMarks) .owner ∧ (onLine 247499 startMarks).knife.owner = .unassigned
      ∧ (onLine 247499 startMarks).inCut 0 = 1000
      ∧ SoleEvent (ownedBy 977999 (.segment 0) 900500#32 [.change provisionalMark]) .owner
      ∧ SoleEvent (ownedBy 979999 (.zone 0) 902000#32 crossingMarks) (.fire 0 .knife)
      ∧ (ownedBy 979999 (.zone 0) 902000#32 crossingMarks).nextChange 0 = some (laterMark 1500000#32)
      ∧ SoleEvent (ownedBy 979999 (.zone 1) 902000#32 crossingMarks) (.fire 0 .knife)
      ∧ SoleEvent (ownedBy 83499 (.segment 0) 5000#32 [.change provisionalMark]) .overdue
      ∧ (let s := ownedBy 83499 (.segment 0) 5000#32 [.change provisionalMark]
         s.findChange 0 = some provisionalMark
           ∧ 2 * sdist (plusMm 5000#32 1000) (knifeCoord (advanced s)) < 1000) :=
  ⟨sole (by decide), by decide, by decide, sole (by decide), sole (by decide), by decide, sole (by decide),
   sole (by decide), by decide⟩

theorem witness_KnifeOwnerAndOverdueCuts_clear :
    let s := { besideCulls (ownedBy 83499 (.segment 0) 5000#32 [.change provisionalMark]) with serial := 9 }
    SoleEvent s .overdue ∧ ClearSheet s ⟨.segment 0, 5000#32, 1000, false⟩ ∧ s.findChange 0 = some provisionalMark :=
  ⟨sole (by decide), clear (by decide), by decide⟩

/-- R142, R146: the lead point, the knife crossing, a missed cut. -/
theorem test_owner :
    (after .forwardCount (onLine 247499 startMarks)).knife.grid = some ⟨.lead 0, 170000#32, 1000, false⟩
      ∧ (after .forwardCount (ownedBy 979999 (.zone 0) 902000#32 crossingMarks)).knife.owner = .segment 1
      ∧ (let t := after .forwardCount (ownedBy 83499 (.segment 0) 5000#32 [.change provisionalMark])
         (t.findOrder 620).map (·.byReason.deviation) = some 1 ∧ t.errors.status = 0x800#18) := by decide

theorem witness_StackTakenIssuesThePostponed : State.reset.knife.outstanding = 0
    ∧ 0 < ({ Knife.reset with outstanding := 1 } : Knife).outstanding
    ∧ (stacking 49 2 900000#32 (some ⟨620, 3, some 40, true⟩)).knife.postponed = some ⟨620, 3, some 40, true⟩
    ∧ (stacking 49 2 900000#32 (some ⟨620, 3, none, false⟩)).findOrder 620
        = some { orderIn 0 620 .running with segments := 1, stackFill := 49 }
    ∧ (with620 .done).findOrder 620 = some (orderIn 0 620 .done) ∧ (orderIn 0 620 .done).state = .done
    ∧ (with620 .running).link.stacker.length < 8 := by decide

/-- R154, R41: a postponed change of a retired order counts in no record, not in a new one of its number. -/
theorem test_postponed_retired :
    let s := stacking 49 2 900000#32 (some ⟨620, 3, some 40, true⟩)
    (after .stackTaken s).link.stacker = [.stackChange 620 3 40 true] ∧ (after .stackTaken s).orders = s.orders
      ∧ (after (.retireOrder [2#8, 0x6C#8]) { with620 .done with
          knife := { Knife.reset with outstanding := 2, postponed := some ⟨620, 3, some 40, false⟩ } }).knife.postponed
        = some ⟨620, 3, some 40, true⟩ := by decide

theorem witness_RefreshBondQueuesEveryUnit : ([0#8] : List Byte) ≠ []
    ∧ (heated 10 0).link.bond.length + ((heated 10 0).activeUnits.filter fun u => !(heated 10 0).setpointQueued u).length ≤ 8
    ∧ (heated 10 0).activeUnits = [.ph .l1] := by decide

/-- A glue unit G2 in a bump that ends at 1,500 (section 9.4's default length). -/
def bumped (gap : Nat) : State :=
  { State.reset with
    odometer := 1500#32
    glue := { State.reset.glue with g2 := ⟨some ⟨7, ⟨300, 100⟩⟩, some 1500#32, gap, none⟩ } }

/-- G2 (70,000 mm upstream) with a gap of 300 and no bump, a joint of L2 whose crossing fires at the next count. -/
def jointing (gap : Nat) (ends : Option Coord) : State :=
  { onLine 29999 [.joint ⟨4, 100000#32, .l2, 600, 1800, [⟨.glue .g2, .pending⟩, ⟨.glue .g3, .pending⟩]⟩] with
    glue := { State.reset.glue with g2 := ⟨some ⟨7, ⟨300, 100⟩⟩, ends, gap, none⟩ } }

theorem witness_BumpRunsFromJointToItsEnd_start :
    SoleEvent (jointing 300 none) (.fire 4 (.glue .g2)) ∧ SoleEvent (jointing 400 (some 30500#32)) (.fire 4 (.glue .g2))
      ∧ (jointing 300 none).findMark 4
          = some (.joint ⟨4, 100000#32, .l2, 600, 1800, [⟨.glue .g2, .pending⟩, ⟨.glue .g3, .pending⟩]⟩)
      ∧ ((jointing 300 none).glue.get .g2).active = some ⟨7, ⟨300, 100⟩⟩ ∧ bumpLength State.reset.config = 1500
      ∧ (jointing 300 none).link.bond.length < 8 ∧ (jointing 300 none).setpointQueued (.glue .g2) = false :=
  ⟨sole (by decide), sole (by decide), by decide⟩

/-- R166: the bump ends 1,500 mm on; a bump in progress keeps the later end. -/
theorem test_bump :
    (after .forwardCount (jointing 300 none)).glue.g2 = ⟨some ⟨7, ⟨300, 100⟩⟩, some 31500#32, 400, none⟩
      ∧ ((after .forwardCount (jointing 400 (some 40000#32))).glue.g2).bumpEnd = some 40000#32
      ∧ (after .forwardCount (jointing 300 none)).link.bond = [.bondSetpoint (.glue .g2) 400] := by decide

/-- A boundary to order 620 at one of its bond crossings. -/
def switching (c : Cross) : ChangeMark :=
  changeAt 4 900000#32 (some 2000) (some ⟨619, 0#32, 1000⟩) (some 620) .frozen [⟨c, .pending⟩]

theorem witness_BondUnitsSwitchAtCrossings :
    SoleEvent (onLine 764999 [.change (switching (.ph .l1))]) (.fire 4 (.ph .l1))
      ∧ SoleEvent (onLine 829999 [.change (switching (.glue .g2))]) (.fire 4 (.glue .g2))
      ∧ (let s := onLine 764999 [.change (switching (.ph .l1))]
         s.findMark 4 = some (.change (switching (.ph .l1))) ∧ (switching (.ph .l1)).incoming = some 620
           ∧ s.findOrder 620 = some { orderIn 0 620 .running with segments := 1 }
           ∧ s.findGrade (orderIn 0 620 .running).fields.grade = some (grade7 2 1) ∧ s.link.bond.length < 8
           ∧ s.setpointQueued (.glue .g2) = false)
      ∧ (let s : State := { onLine 829999 [.change (switching (.glue .g2))] with
            link := { Link.reset with bond := [.bondSetpoint (.glue .g2) 5] } }
         SoleEvent s (.fire 4 (.glue .g2)) ∧ s.setpointQueued (.glue .g2) = true) :=
  ⟨sole (by decide), sole (by decide), by decide, sole (by decide), by decide⟩

/-- R162, R168: PH1 and G2 take grade 7; G2 commands its base gap of 300. -/
theorem test_switch :
    ((after .forwardCount (onLine 764999 [.change (switching (.ph .l1))])).preheaters.l1).active = some ⟨7, curve163⟩
      ∧ (after .forwardCount (onLine 829999 [.change (switching (.glue .g2))])).link.bond
          = [.bondSetpoint (.glue .g2) 300] := by decide

theorem witness_BumpRunsFromJointToItsEnd_end : State.reset.bumpDue .g2 = false
    ∧ ((bumped 400).glue.get .g2).bumpEnd = some 1500#32 ∧ reached (bumped 400).odometer 1500#32 = true
    ∧ (300 : Nat) ≠ ((bumped 400).glue.get .g2).gap ∧ (300 : Nat) = ((bumped 300).glue.get .g2).gap
    ∧ (bumped 400).link.bond.length < 8 ∧ (bumped 400).setpointQueued (.glue .g2) = false := by decide

theorem witness_ArbiterTakesByPriority :
    let s : State := { State.reset with link := { Link.reset with bond := [.bondSetpoint (.ph .m1) 490] } }
    s.link.place = none ∧ s.link.queue .bond = .bondSetpoint (.ph .m1) 490 :: []
      ∧ (∀ d, linkClasses.idxOf d < linkClasses.idxOf LinkClass.bond → s.link.queue d = [])
      ∧ (∀ c, State.reset.link.queue c = [])
      ∧ ({ Link.reset with place := some (.speedCap none) } : Link).place.isSome = true :=
  ⟨rfl, rfl, fun d => by cases d <;> decide, fun c => by cases c <;> rfl, rfl⟩

/-- A state whose place for sending holds a command. -/
def sending (c : Command) : State := { State.reset with link := { Link.reset with place := some c } }

theorem witness_SentCommandsMakeTheirHandOffs :
    (sending (.spliceGo .l1 .a 0)).link.place = some (.spliceGo .l1 .a 0)
    ∧ (let s : State := { sending (.slitterExchange .a none (some 1#32) 7) with
          odometer := shiftBy 2#32 (ssOffset State.reset.config)
          stations := ⟨{ SlitterStation.reset with state := .engaged, exchangeTag := some 7 }, .reset⟩ }
       (s.station .a).state = .engaged ∧ (s.station .a).exchangeTag = some 7 ∧ atOrAfter 1#32 (slitterCoord s) = false ∧ s.knife.lag.length < 4
         ∧ atOrAfter 2#32 (slitterCoord s) = true)
    ∧ 4 ≤ ({ Knife.reset with lag := List.replicate 4 ⟨1#32, 2#32⟩ } : Knife).lag.length
    ∧ (∀ x, (sending (.speedCap none)).link.place = some x → sentRow x ≠ .spliceGo)
    ∧ (∀ x, State.reset.link.place = some x → sentRow x ≠ .bondSetpoint) :=
  ⟨rfl, by decide, by decide, fun x h => by cases h; decide, fun x h => by cases h⟩

theorem witness_BadReportsAreDiscarded :
    State.reset.receiver = none
    ∧ (let f : LinkFrame := ⟨9#8, 0#8, []⟩
       f.body.length < 256 ∧ (bytesOf 2 (Config.frameCheck f.checked).toNat).length = 2 ∧ sourceOf f.address.toNat = some .stacker
         ∧ 2 < (f.checked ++ [0#8, 0#8]).length)
    ∧ sourceOf (8#8).toNat = none ∧ Source.stacker.sends .diameter = false
    ∧ reportLengthOk .setPositions [2#8, 0#8, 0#8] = false
    ∧ reportRangesOk .reelLoaded [1#8, 0x05#8, 0xF5#8, 0xE1#8, 0x00#8] = false
    ∧ (sourceOf (1#8).toNat = some (.stand .l1) ∧ (Source.stand .l1).sends .reelLoaded = true
      ∧ reportLengthOk .reelLoaded [2#8, 0x05#8, 0xF5#8, 0xE0#8, 0xFF#8] = true
      ∧ reportRangesOk .reelLoaded [2#8, 0x05#8, 0xF5#8, 0xE0#8, 0xFF#8] = true ∧ posOf (byteAt [2#8] 0) = some .b)
    ∧ ({ State.reset with receiver := some ⟨[9#8], 60⟩ } : State).receiver = some ⟨[9#8], 60⟩
    ∧ (⟨[9#8], 60⟩ : Reception).rest + 40 ≤ 100 ∧ 100 < (⟨[9#8], 60⟩ : Reception).rest + 41
    ∧ Config.startDelimiter ∉ ([] : List Byte)
    ∧ exec (.malformedReport (linkBitsOf [])) State.reset = .next State.reset
    ∧ (99999999 : Nat) < 100000000 ∧ 20 < (List.replicate 21 0).length ∧ (65535 : Nat) < 65536 := by
  refine ⟨rfl, ⟨by decide, rfl, by decide, by decide⟩, ?_⟩
  refine ⟨by decide, by decide, by decide, by decide, by decide, rfl, by decide, by decide, by simp, ?_, by decide⟩
  rw [exec, execMalformedReport, heardAtLnkRx_linkBitsOf]; rfl

/-- R174: 100 bit times of rest leave a frame in reception, the 101st ends it as malformed. -/
theorem test_rest_ends_the_frame :
    let s : State := { State.reset with receiver := some ⟨[9#8], 0⟩ }
    let rest (n : Nat) : Instr := .malformedReport (List.replicate n (!Config.linkStartLevel))
    exec (rest 100) s = .next { s with receiver := some ⟨[9#8], 100⟩ }
      ∧ exec (rest 101) s = .next (State.reset.raise .reportInvalid .none) := by
  have heard (n : Nat) : heardAtLnkRx (List.replicate n (!Config.linkStartLevel)) = List.replicate n none := by
    have h := heardAtLnkRx_rest n []
    rwa [List.append_nil, show heardAtLnkRx [] = [] from rfl, List.append_nil] at h
  dsimp only [exec, execMalformedReport]
  rw [heard, heard, receive_rest_within 100 _ _ rfl (by decide), receive_rest_beyond 101 _ _ rfl (by decide) (by decide)]
  exact ⟨rfl, rfl⟩

/-- R174, R175, R177: the bits of a frame from address 8, the knife drive, which sends no reports: REPORT_INVALID with object
none, whatever its check. -/
theorem test_unknown_source (c d : Byte) :
    exec (.malformedReport (linkBitsOf [Config.startDelimiter, 8#8, 0#8, 0#8, c, d])) State.reset
      = .next (State.reset.raise .reportInvalid .none) := by
  have e : testFrame [8#8, 0#8, 0#8, c, d] = .error .none := by
    show (if _ then _ else _) = _
    split <;> rfl
  rw [exec, execMalformedReport, heardAtLnkRx_linkBitsOf]
  simp [State.receive, State.receiveOne, State.receiveByte, State.reportFrame, frameComplete, byteAt, State.reset, e]
  rfl

/-- A CONFIGURE body of one pair. -/
def pairBody (n v : Nat) : List Byte := byteOf n ++ bytesOf 4 v

theorem witness_ConfigurationIsStoredAndRead : configInRange State.reset.config = true ∧ (pairBody 34 21).length = 5 ∧ State.reset.config.length = 40
    ∧ (∀ p ∈ configPairs (pairBody 34 21), 1 ≤ p.number ∧ p.number ≤ 40)
    ∧ ((configPairs (pairBody 34 21)).map (·.number)).Nodup
    ∧ offsetsOrdered (merged State.reset.config (configPairs (pairBody 34 21))) = true
    ∧ State.reset.orders = [] ∧ State.reset.marks = []
    ∧ ((with620 .running).orders.any fun o => o.state == .running) = true
    ∧ (configPairs (pairBody 41 0)).map (·.number) = [41]
    ∧ offsetsOrdered (merged State.reset.config (configPairs (pairBody 19 2000000000))) = false := by decide

theorem witness_LineResetEndsTheRun : State.reset.stopped = true ∧ (∀ k, (State.reset.seq k).state ≠ .splicing)
    ∧ ((atL1 (inState .splicing) (.empty none) (.empty none)).seq .l1).state = .splicing
    ∧ (heated 0 0).stopped = false
    ∧ (let s := atL1 (inState .waitGo) (.running { paperM1 with remaining := 150000 } false 0) (.empty none)
       (s.seq .l1).state ≠ .fault ∧ s.low .l1 = true ∧ s.speed ≤ spliceSpeedLimit s.config)
    ∧ (let s : State := { State.reset with
          capFlag := true
          stations := ⟨{ SlitterStation.reset with state := .engaged, exchangeSent := some false },
            settingStation 0 none⟩ }
       s.engaged = some .a ∧ (s.station .a).exchangeSent = some false ∧ (s.station .b).state = .setting
         ∧ s.capFlag = true ∧ s.link.splice.length < 8) :=
  ⟨rfl, fun k => by cases k <;> decide, rfl, rfl, by decide, by decide⟩

/-- R140, R188: the exchange that a LINE RESET found in the place goes out and leaves exchange sent no, so that a second
LINE RESET queues the immediate form again; that command's own end makes it yes. By the slitter exchange's part of the reset,
since the order of the blocks is free. -/
theorem test_immediate_exchange :
    let s : State := { sending (.slitterExchange .a none (some 1#32) 7) with
      serial := 8
      stations := ⟨{ SlitterStation.reset with state := .engaged, exchangeSent := some false, exchangeTag := some 7 }, .reset⟩ }
    let first := after .slitterExchange s.flushLink.resetSlitter
    let last := after .slitterExchange (after .arbiterTake first)
    (first.station .a).exchangeSent = some false ∧ first.link.slitter = [.slitterExchange .a (some .b) none 8]
      ∧ first.flushLink.resetSlitter.link.slitter = [.slitterExchange .a (some .b) none 9]
      ∧ (last.station .a).exchangeSent = some true ∧ last.flushLink.resetSlitter.link.slitter = [] := by decide

/-- R187: an input low when the reset ends gives no pulse until it has been high. -/
theorem test_reset_levels :
    let s : State := { State.reset with inputs := { idleInputs with cut := false, encCnt := true } }
    (after .cutPulse s).errors.status = 0#18 ∧ (after .cutPulse (after .cutPulse s)).errors.status = 0x1000#18
      ∧ (after .forwardCount s).odometer = 0#32 ∧ (after .forwardCount (after .forwardCount s)).odometer = 1#32 := by
  decide

theorem witness_SafetyIsKept : (heated 10 0).Safe ∧ ∃ t, step (heated 10 0) = .next t := by
  refine ⟨⟨?_, ?_, ?_, ?_, ?_, ?_, ?_, ?_, ?_, ?_⟩, _, rfl⟩
  · intro h; exact absurd h (by decide)
  · intro c; cases c <;> decide
  · show (heated 10 0).marks.length ≤ 48; decide
  · show (heated 10 0).suspended.length ≤ 3; decide
  · constructor <;> decide
  · show ¬ (_ ∧ _); decide
  · constructor <;> decide
  · constructor <;> decide
  · intro k; cases k <;> exact ⟨by decide, fun t h => by cases h⟩
  · constructor <;> decide

theorem witness_ConsistencyIsKept : (onLine 764999 [.change openMark]).Consistent
    ∧ ∃ t, step { onLine 764999 [.change openMark] with pending := [.forwardCount] } = .next t := by
  refine ⟨⟨⟨?_, ?_⟩, ⟨?_, ?_, ?_, ?_⟩, ⟨?_, fun n => ?_⟩, ⟨?_, ?_⟩, fun k => ?_, fun u => ⟨?_, fun a h => ?_, ?_⟩⟩, _, rfl⟩
  · decide
  · decide
  · decide
  · decide
  · decide
  · decide
  · decide
  · constructor
    · intro h
      have e : n = 621 := by simpa [onLine] using h
      subst e
      exact ⟨orderIn 1 621 .queued, by decide, by decide, rfl⟩
    · rintro ⟨o, ho, rfl, hq⟩
      have ho : o = { orderIn 0 620 .running with segments := 1 } ∨ o = orderIn 1 621 .queued := by
        simpa [onLine] using ho
      rcases ho with rfl | rfl
      · exact absurd hq (by decide)
      · decide
  · decide
  · decide
  · cases k <;> decide
  · cases u <;> decide
  · cases u <;> exact nomatch h
  · cases u <;> decide

end Sys2Proof.Tests
end

section
/-! PROOF. Safety: the state after reset is safe, and every step keeps it so (O58, O59). An event that evolves the state
(Laws/Evolves.lean) keeps it safe; what is left is the commands that write a bounded record by themselves. -/

namespace Sys2Proof.Machine

open Sys2Proof

/-! ### What a request leaves behind -/

/-- The answer is a refusal, or the state it leaves has the property. -/
def Answer.Leaves (P : State → Prop) : Answer → Prop
  | .error _ => True
  | .ok r => P r.state

namespace Answer

variable {P Q : State → Prop}

@[simp] theorem leaves_error {st : Status} : Answer.Leaves P (.error st) := trivial

@[simp] theorem leaves_ok {r : Reply} : Answer.Leaves P (.ok r) ↔ P r.state := Iff.rfl

@[simp] theorem leaves_done {s : State} {b : List Byte} : Answer.Leaves P (done s b) ↔ P s := Iff.rfl

@[simp] theorem leaves_refuseIf {test : Bool} {st : Status} {a : Answer} :
    Answer.Leaves P (refuseIf test st a) ↔ (test = false → Answer.Leaves P a) := by
  cases test <;> simp [refuseIf]

theorem Leaves.imp {a : Answer} (h : a.Leaves P) (f : ∀ t, P t → Q t) : a.Leaves Q := by
  cases a with
  | error st => trivial
  | ok r => exact f _ h

end Answer

/-! ### Requests that only evolve the state -/

namespace Evolves

variable {s t : State}

/-- An update of the records of one number evolves where it keeps that number. -/
theorem updateOrderAt (h : Evolves s t) {n : Nat} {f : Order → Order}
    (b : ∀ o, o.fields.number = n → (f o).fields.number = n) : Evolves s (t.updateOrder n f) := by
  refine h.trans { refl t with orders := ?_ }
  simp only [State.updateOrder_orders, List.map_map]
  refine List.map_congr_left fun o _ => ?_
  by_cases e : o.fields.number = n
  · simp [e, b o e]
  · simp [e]

theorem updateGradeAt (h : Evolves s t) {n : Nat} {f : Grade → Grade}
    (b : ∀ g, g.fields.number = n → (f g).fields.number = n) : Evolves s (t.updateGrade n f) := by
  refine h.trans { refl t with grades := ?_ }
  simp only [State.updateGrade_grades, List.map_map]
  refine List.map_congr_left fun g _ => ?_
  by_cases e : g.fields.number = n
  · simp [e, b g e]
  · simp [e]

end Evolves

section Requests

variable {s : State} {b : List Byte}

theorem answerAmendWaiting_evolves {d : OrderDef} {o : Order} : (answerAmendWaiting d o s).Leaves (Evolves s) := by
  have amended : Evolves s (s.updateOrder d.number fun r => { r with fields := d }) :=
    (Evolves.refl s).updateOrderAt fun _ _ => rfl
  simp only [answerAmendWaiting, Answer.leaves_refuseIf, Answer.leaves_done]
  intro _ _ _
  split
  · exact amended.recheckAll
  · exact amended.gradeRefDown.gradeRefUp.recheckAll

theorem answerAmendRunning_evolves {d : OrderDef} {o : Order} : (answerAmendRunning d o s).Leaves (Evolves s) := by
  have amended : Evolves s (s.updateOrder d.number fun r => { r with fields := d }) :=
    (Evolves.refl s).updateOrderAt fun _ _ => rfl
  simp only [answerAmendRunning, Answer.leaves_refuseIf, Answer.leaves_done]
  intro _ _ _
  split
  · exact amended.amendEnd.recheckAll
  · exact amended.recheckAll

theorem answerAmendOrder_evolves : (answerAmendOrder b s).Leaves (Evolves s) := by
  simp only [answerAmendOrder, Answer.leaves_refuseIf]
  intro _
  split
  · trivial
  · split
    · trivial
    · exact answerAmendWaiting_evolves
    · exact answerAmendWaiting_evolves
    · exact answerAmendRunning_evolves
    · exact answerAmendRunning_evolves

theorem scheduleAt_evolves {n place a : Nat} : (scheduleAt n place a s).Leaves (Evolves s) := by
  have moved : Evolves s ((s.unlink n).updateOrder n fun o => { o with rush := false }) :=
    (Evolves.refl s).unlink.updateOrder (by intro _; rfl)
  simp only [scheduleAt, Answer.leaves_done]
  refine Evolves.attemptLaunch ?_
  split
  · exact moved.linkHead
  · exact moved.linkTail
  · exact moved.linkAfter

theorem answerScheduleOrder_evolves : (answerScheduleOrder b s).Leaves (Evolves s) := by
  simp only [answerScheduleOrder, Answer.leaves_refuseIf]
  intro _ _
  split
  · trivial
  · rw [Answer.leaves_refuseIf]
    intro _
    split
    · rw [Answer.leaves_refuseIf]
      intro _
      split
      · trivial
      · exact Answer.leaves_refuseIf.mpr fun _ => scheduleAt_evolves
    · exact scheduleAt_evolves

theorem answerUnscheduleOrder_evolves : (answerUnscheduleOrder b s).Leaves (Evolves s) := by
  simp only [answerUnscheduleOrder, Answer.leaves_refuseIf]
  intro _
  split
  · trivial
  · exact Answer.leaves_refuseIf.mpr fun _ => (Evolves.refl s).unlink.updateOrder (by intro _; rfl)

theorem answerRushOrder_evolves : (answerRushOrder b s).Leaves (Evolves s) := by
  simp only [answerRushOrder, Answer.leaves_refuseIf]
  intro _
  split
  · trivial
  · simp only [Answer.leaves_refuseIf, Answer.leaves_done]
    intro _ _
    exact ((Evolves.refl s).unlink.linkHead.updateOrder (by intro _; rfl)).curtailForRush.attemptLaunch

theorem answerCancelRunning_evolves {n : Nat} {o : Order} : (answerCancelRunning n o s).Leaves (Evolves s) := by
  simp only [answerCancelRunning, Answer.leaves_refuseIf, Answer.leaves_done]
  intro _ _
  refine Evolves.updateOrder ?_ (by intro _; rfl)
  have unstacked : Evolves s (if o.stacked then s.unstack n else s) := by
    split
    · exact (Evolves.refl s).unstack
    · exact Evolves.refl s
  split
  · exact unstacked.curtailAndPin
  · exact unstacked

theorem answerCancelOrder_evolves : (answerCancelOrder b s).Leaves (Evolves s) := by
  have same := Evolves.refl s
  simp only [answerCancelOrder, Answer.leaves_refuseIf]
  intro _
  split
  · trivial
  · split
    · exact same.finishOrder
    · exact (same.unlink.updateOrder (by intro _; rfl)).finishOrder
    · exact same.unstack.finishOrder
    · trivial
    · exact answerCancelRunning_evolves

theorem answerAmendGrade_evolves : (answerAmendGrade b s).Leaves (Evolves s) := by
  simp only [answerAmendGrade, Answer.leaves_refuseIf]
  intro _ _
  split
  · trivial
  · simp only [Answer.leaves_refuseIf, Answer.leaves_done]
    intro _ _
    exact ((Evolves.refl s).updateGradeAt (by intro _ _; rfl)).recheckAll

theorem answerRefreshBond_evolves : (answerRefreshBond b s).Leaves (Evolves s) :=
  Answer.leaves_refuseIf.mpr fun _ => (Evolves.refl s).refreshAll

theorem answerLineReset_evolves : (answerLineReset b s).Leaves (Evolves s) := by
  simp only [answerLineReset, Answer.leaves_refuseIf, Answer.leaves_done]
  exact fun _ _ _ => (Evolves.refl s).lineReset

theorem answerPlaceCull_evolves : (answerPlaceCull b s).Leaves (Evolves s) := by
  simp only [answerPlaceCull, Answer.leaves_refuseIf, Answer.leaves_done]
  intro _ _ _ _ _ room
  have free : 8 ≤ s.freeMarks := not_lt.mp (of_decide_eq_false room)
  exact (Evolves.refl s).bumpSerial.placeCullMark (by rw [State.bumpSerial_freeMarks]; omega)

theorem answerAnnounceReel_evolves : (answerAnnounceReel b s).Leaves (Evolves s) := by
  simp only [answerAnnounceReel, Answer.leaves_refuseIf]
  intro _
  split
  · simp only [Answer.leaves_refuseIf, Answer.leaves_done]
    exact fun _ _ => (Evolves.refl s).announce
  · trivial

theorem answerWithdrawReel_evolves : (answerWithdrawReel b s).Leaves (Evolves s) := by
  simp only [answerWithdrawReel, Answer.leaves_refuseIf]
  intro _
  split
  · trivial
  · rw [Answer.leaves_refuseIf]
    intro _
    split
    · trivial
    · exact (Evolves.refl s).setSlot.readyChanged

theorem answerThreadReel_evolves : (answerThreadReel b s).Leaves (Evolves s) := by
  simp only [answerThreadReel, Answer.leaves_refuseIf]
  intro _
  split
  · trivial
  · rw [Answer.leaves_refuseIf]
    intro _
    split
    · trivial
    · exact (Evolves.refl s).setSlot.afterThread

theorem answerUnthreadReel_evolves : (answerUnthreadReel b s).Leaves (Evolves s) := by
  simp only [answerUnthreadReel, Answer.leaves_refuseIf]
  intro _
  split
  · trivial
  · split
    · trivial
    · simp only [Answer.leaves_refuseIf, Answer.leaves_done]
      exact fun _ _ => (Evolves.refl s).setSlot.setSeq

theorem answerRequestSplice_evolves : (answerRequestSplice b s).Leaves (Evolves s) := by
  simp only [answerRequestSplice, Answer.leaves_refuseIf]
  intro _
  split
  · trivial
  · simp only [Answer.leaves_refuseIf, Answer.leaves_done]
    exact fun _ _ => (Evolves.refl s).armNow

theorem answerClearStand_evolves : (answerClearStand b s).Leaves (Evolves s) := by
  simp only [answerClearStand, Answer.leaves_refuseIf]
  intro _
  split
  · trivial
  · simp only [Answer.leaves_refuseIf, Answer.leaves_done]
    exact fun _ _ => (Evolves.refl s).setSeq.nextState

theorem answerClearStation_evolves : (answerClearStation b s).Leaves (Evolves s) := by
  simp only [answerClearStation, Answer.leaves_refuseIf]
  intro _
  split
  · trivial
  · exact Answer.leaves_refuseIf.mpr fun _ => (Evolves.refl s).clearStation

/-! ### Requests that read -/

theorem answerNull_leaves : (answerNull b s).Leaves (· = s) := by simp [answerNull]
theorem answerReadLine_leaves : (answerReadLine b s).Leaves (· = s) := by simp [answerReadLine]
theorem answerReadConfig_leaves : (answerReadConfig b s).Leaves (· = s) := by simp [answerReadConfig]
theorem answerReadErrors_leaves : (answerReadErrors b s).Leaves (· = s) := by simp [answerReadErrors]
theorem answerReadSequence_leaves : (answerReadSequence b s).Leaves (· = s) := by simp [answerReadSequence]
theorem answerReadMarks_leaves : (answerReadMarks b s).Leaves (· = s) := by simp [answerReadMarks]
theorem answerReadSlitter_leaves : (answerReadSlitter b s).Leaves (· = s) := by simp [answerReadSlitter]
theorem answerReadKnife_leaves : (answerReadKnife b s).Leaves (· = s) := by simp [answerReadKnife]
theorem answerReadBond_leaves : (answerReadBond b s).Leaves (· = s) := by simp [answerReadBond]

theorem answerReadOrder_leaves : (answerReadOrder b s).Leaves (· = s) := by
  rw [answerReadOrder, Answer.leaves_refuseIf]; intro _; split <;> simp

theorem answerReadGrade_leaves : (answerReadGrade b s).Leaves (· = s) := by
  simp only [answerReadGrade, Answer.leaves_refuseIf]
  intro _ _
  split
  · split <;> simp
  · simp

theorem answerReadReel_leaves : (answerReadReel b s).Leaves (· = s) := by
  rw [answerReadReel, Answer.leaves_refuseIf]; intro _; split <;> simp

theorem answerReadStand_leaves : (answerReadStand b s).Leaves (· = s) := by
  rw [answerReadStand, Answer.leaves_refuseIf]; intro _; split <;> simp

theorem answerReadStationQueues_leaves : (answerReadStationQueues b s).Leaves (· = s) := by
  rw [answerReadStationQueues, Answer.leaves_refuseIf]; intro _; split <;> simp

end Requests

end Sys2Proof.Machine
end

section
/-! PROOF. Safety, continued: the configuration store, and the commands that write a bounded record by themselves. -/

namespace Sys2Proof.Machine

open Sys2Proof

namespace State.Safe

variable {s t : State}

/-- What evolves from a safe state is safe. -/
theorem evolves (h : s.Safe) (e : Evolves s t) : t.Safe := by
  obtain ⟨fatal, queues, marks, stack, ⟨orders, grades⟩, engaged, ⟨outstanding, lag⟩, ⟨speed, zero⟩, outputs, config⟩ := h
  refine ⟨e.fatal fatal, fun c => ?_, ?_, ?_, ⟨?_, ?_⟩, e.engaged engaged, ⟨?_, ?_⟩, ⟨?_, ?_⟩,
    fun k => ⟨?_, fun v hv => ?_⟩, ?_⟩
  · exact (e.queues c).trans (max_le (queues c) le_rfl)
  · exact e.marks.trans (max_le marks le_rfl)
  · exact e.stack.trans (max_le stack le_rfl)
  · simpa using (congrArg List.length e.orders).le.trans (by simpa using orders)
  · simpa using (congrArg List.length e.grades).le.trans (by simpa using grades)
  · exact e.outstanding.trans (max_le outstanding le_rfl)
  · exact e.lag.trans (max_le lag le_rfl)
  · exact e.speed ▸ speed
  · exact e.zeroWindows ▸ zero
  · exact (e.outputs k).trans (max_le (outputs k).1 le_rfl)
  · exact (e.targets k v hv).elim id ((outputs k).2 v)
  · unfold State.ConfigSafe; rw [e.config]; exact config

/-- R141: at most two stack changes are outstanding. -/
theorem outstanding (h : s.Safe) : s.knife.outstanding ≤ 2 := by
  obtain ⟨-, -, -, -, -, -, ⟨out, -⟩, -⟩ := h
  exact out

theorem respond (h : s.Safe) {kind : Byte} {st : Status} {b : List Byte} : (s.respond kind st b).Safe := h

/-- R200, R203: safety but for the rule of HOLD, which a new error unit has to meet by itself. -/
theorem setErrors (h : s.Safe) {e : Errors} (fatal : e.fatalSet = true → e.hold = true) :
    State.Safe { s with errors := e } := ⟨fatal, h.2⟩

theorem setOrders (h : s.Safe) {l : List Order} (b : l.length ≤ 64) : State.Safe { s with orders := l } := by
  obtain ⟨fatal, queues, marks, stack, ⟨-, grades⟩, rest⟩ := h
  exact ⟨fatal, queues, marks, stack, ⟨b, grades⟩, rest⟩

theorem setGrades (h : s.Safe) {l : List Grade} (b : l.length ≤ 32) : State.Safe { s with grades := l } := by
  obtain ⟨fatal, queues, marks, stack, ⟨orders, -⟩, rest⟩ := h
  exact ⟨fatal, queues, marks, stack, ⟨orders, b⟩, rest⟩

theorem setConfig (h : s.Safe) {c : List Int} (range : configInRange c = true) (offsets : offsetsOrdered c = true) :
    State.Safe { s with config := c } := by
  obtain ⟨fatal, queues, marks, stack, tables, engaged, knife, speed, outputs, -⟩ := h
  exact ⟨fatal, queues, marks, stack, tables, engaged, knife, speed, outputs, range, offsets⟩

theorem answered (h : s.Safe) {a : Answer} {k : Nat} (g : a.Leaves State.Safe) : (answered k s a).Safe := by
  cases a with
  | error st => exact h.respond
  | ok r => exact respond g

theorem answeredEvolves (h : s.Safe) {a : Answer} {k : Nat} (g : a.Leaves (Evolves s)) :
    (Machine.answered k s a).Safe := h.answered (g.imp fun _ => h.evolves)

theorem answeredRead (h : s.Safe) {a : Answer} {k : Nat} (g : a.Leaves (· = s)) : (Machine.answered k s a).Safe :=
  h.answered (g.imp fun _ e => e ▸ h)

end State.Safe

/-! ### The configuration store (R8, R193, R194) -/

theorem item_set_same {c : List Int} {n : Nat} (hn : n ≤ c.length) (h1 : 1 ≤ n) (v : Int) :
    item (c.set (n - 1) v) n = v := by
  have : n - 1 < c.length := by omega
  simp [item, List.getD_eq_getElem?_getD, this]

theorem item_set_other {c : List Int} {i n : Nat} (h : i ≠ n - 1) (v : Int) : item (c.set i v) n = item c n := by
  simp [item, List.getD_eq_getElem?_getD, List.getElem?_set_ne h]

theorem merged_cons (c : List Int) (p : ConfigPair) (ps : List ConfigPair) :
    merged c (p :: ps) = merged (c.set (p.number - 1) p.clamped) ps := rfl

theorem merged_length (c : List Int) (ps : List ConfigPair) : (merged c ps).length = c.length := by
  induction ps generalizing c with
  | nil => rfl
  | cons p ps ih => rw [merged_cons, ih, List.length_set]

theorem raiseFreeze_length (c : List Int) : (raiseFreeze c).length = c.length := List.length_set

/-- R8, R194: the raise of F touches item 21 alone. -/
theorem item_raiseFreeze_other {c : List Int} {n : Nat} (h : n ≠ 21) : item (raiseFreeze c) n = item c n :=
  item_set_other (by omega) _

theorem item_raiseFreeze {c : List Int} (h : c.length = 40) :
    item (raiseFreeze c) 21 = max (item c 21) (minFreeze c) :=
  item_set_same (n := 21) (by omega) (by omega) _

theorem minFreeze_congr {c d : List Int} (h : ∀ n, n ≠ 21 → item c n = item d n) : minFreeze c = minFreeze d := by
  simp only [minFreeze, knOffset, List.map, h 1 (by omega), h 2 (by omega), h 3 (by omega), h 4 (by omega),
    h 5 (by omega), h 20 (by omega)]

theorem minFreeze_raiseFreeze (c : List Int) : minFreeze (raiseFreeze c) = minFreeze c :=
  minFreeze_congr fun _ => item_raiseFreeze_other

theorem offsetsOrdered_congr {c d : List Int} (h : ∀ n, n ≠ 21 → item c n = item d n) :
    offsetsOrdered c = offsetsOrdered d := by
  simp only [offsetsOrdered, Stand.all, List.all, pathOf, phOffset, glueOffset, ssOffset, knOffset, itemNat, Stand.idx,
    GlueUnit.idx, Nat.reduceAdd]
  simp only [h 1 (by omega), h 2 (by omega), h 3 (by omega), h 4 (by omega), h 5 (by omega), h 11 (by omega),
    h 12 (by omega), h 13 (by omega), h 14 (by omega), h 15 (by omega), h 16 (by omega), h 17 (by omega),
    h 18 (by omega), h 19 (by omega), h 20 (by omega)]
  rfl

/-- R8, R194: the raise of F keeps the ordering of the station offset table, which does not read F. -/
theorem offsetsOrdered_raiseFreeze (c : List Int) : offsetsOrdered (raiseFreeze c) = offsetsOrdered c :=
  offsetsOrdered_congr fun _ => item_raiseFreeze_other

/-- R193: the value lies in the range of item n. -/
def InRow (n : Nat) (v : Int) : Prop := (rowOf n).lo ≤ v ∧ v ≤ (rowOf n).hi

theorem configInRange_iff {c : List Int} : configInRange c = true ↔
    c.length = 40 ∧ (∀ n, 1 ≤ n → n ≤ 40 → InRow n (item c n)) ∧ minFreeze c ≤ item c 21 := by
  simp only [configInRange, Bool.and_eq_true, decide_eq_true_eq, List.all_eq_true, and_assoc]
  refine and_congr_right fun len => and_congr_left fun _ => ?_
  have rows : Config.itemRows.length = 40 := by decide
  have at_ (n : Nat) (h1 : 1 ≤ n) (h2 : n ≤ 40) :
      (item c n, rowOf n) = (c.zip Config.itemRows)[n - 1]'(by simp [len, rows]; omega) := by
    simp [item, rowOf, List.getD_eq_getElem?_getD, len, rows, show n - 1 < 40 by omega]
  constructor
  · intro all n h1 h2
    exact all (item c n, rowOf n) (at_ n h1 h2 ▸ List.getElem_mem _)
  · intro all p mem
    obtain ⟨i, hi, rfl⟩ := List.getElem_of_mem mem
    have i40 : i < 40 := by simpa [len, rows] using hi
    have := at_ (i + 1) (by omega) (by omega)
    simp only [Nat.add_sub_cancel] at this
    rw [← this]
    exact all (i + 1) (by omega) (by omega)

/-- R193: the lowest value of a row is at or below its highest. -/
theorem rowOf_ordered {n : Nat} (h1 : 1 ≤ n) (h2 : n ≤ 40) : (rowOf n).lo ≤ (rowOf n).hi := by
  have all : ∀ i < 41, (rowOf i).lo ≤ (rowOf i).hi := by decide
  exact all n (by omega)

theorem clamped_inRow {p : ConfigPair} (h1 : 1 ≤ p.number) (h2 : p.number ≤ 40) : InRow p.number p.clamped := by
  have := rowOf_ordered h1 h2
  simp only [InRow, ConfigPair.clamped, clampTo]; omega

/-- R194: clamped values merged into a store of 40 items in range leave every item in range. -/
theorem merged_inRow {c : List Int} {ps : List ConfigPair} (len : c.length = 40)
    (range : ∀ n, 1 ≤ n → n ≤ 40 → InRow n (item c n)) (named : ∀ p ∈ ps, 1 ≤ p.number ∧ p.number ≤ 40) :
    ∀ n, 1 ≤ n → n ≤ 40 → InRow n (item (merged c ps) n) := by
  induction ps generalizing c with
  | nil => exact range
  | cons p ps ih =>
    obtain ⟨h1, h2⟩ := named p List.mem_cons_self
    refine ih (by simpa using len) (fun n n1 n2 => ?_) fun q hq => named q (List.mem_cons_of_mem _ hq)
    by_cases e : n = p.number
    · subst e; rw [item_set_same (by omega) h1]; exact clamped_inRow h1 h2
    · rw [item_set_other (by omega)]; exact range n n1 n2

/-- R8: the least freeze distance lies below the highest value of F. -/
theorem minFreeze_le {c : List Int} (range : ∀ n, 1 ≤ n → n ≤ 40 → InRow n (item c n)) :
    minFreeze c ≤ 1000000 := by
  have h1 : item c 1 ≤ 300000 := (range 1 (by omega) (by omega)).2
  have h2 : item c 2 ≤ 300000 := (range 2 (by omega) (by omega)).2
  have h3 : item c 3 ≤ 300000 := (range 3 (by omega) (by omega)).2
  have h4 : item c 4 ≤ 300000 := (range 4 (by omega) (by omega)).2
  have h5 : item c 5 ≤ 300000 := (range 5 (by omega) (by omega)).2
  have h20 : item c 20 ≤ 300000 := (range 20 (by omega) (by omega)).2
  simp only [minFreeze, knOffset, List.map, List.foldl]
  omega

theorem configInRange_raiseFreeze {c : List Int} (len : c.length = 40)
    (range : ∀ n, 1 ≤ n → n ≤ 40 → InRow n (item c n)) : configInRange (raiseFreeze c) = true := by
  refine configInRange_iff.mpr ⟨by rw [raiseFreeze_length, len], fun n h1 h2 => ?_, ?_⟩
  · by_cases e : n = 21
    · subst e
      have bound := minFreeze_le range
      have f := range 21 h1 h2
      rw [item_raiseFreeze len]
      exact ⟨f.1.trans (le_max_left _ _), max_le f.2 bound⟩
    · rw [item_raiseFreeze_other e]; exact range n h1 h2
  · rw [minFreeze_raiseFreeze, item_raiseFreeze len]; exact le_max_right _ _

theorem itemsOk_iff {ps : List ConfigPair} :
    itemsOk ps = true ↔ (∀ p ∈ ps, 1 ≤ p.number ∧ p.number ≤ 40) ∧ (ps.map (·.number)).Nodup := by
  simp [itemsOk, inRange]

theorem answerConfigure_safe {s : State} {b : List Byte} (h : s.Safe) :
    (answerConfigure b s).Leaves State.Safe := by
  simp only [answerConfigure, Answer.leaves_refuseIf, Answer.leaves_ok, Bool.not_eq_false']
  intro _ _ items ordered
  obtain ⟨range, -⟩ := h.2.2.2.2.2.2.2.2.2
  obtain ⟨len, rows, -⟩ := configInRange_iff.mp range
  have stored := h.setConfig (configInRange_raiseFreeze (by rw [merged_length, len])
      (merged_inRow len rows (itemsOk_iff.mp items).1))
    (by rw [offsetsOrdered_raiseFreeze]; exact ordered)
  exact stored.evolves ((Evolves.refl _).setDraws.takeEvents fun _ v => (Evolves.refl v).lowReelIfLow)

end Sys2Proof.Machine
end

section
/-! PROOF. Safety, concluded: every command keeps a safe state safe (O59), and the state after reset is safe (O58). -/

namespace Sys2Proof.Machine

open Sys2Proof

/-! ### The requests that write a table or the error unit -/

section Requests

variable {s : State} {b : List Byte}

theorem answerEnterOrder_safe (h : s.Safe) : (answerEnterOrder b s).Leaves State.Safe := by
  simp only [answerEnterOrder, Answer.leaves_refuseIf, Answer.leaves_done]
  intro _ _ _ _ _ room
  have free : s.orders.length < 64 := by
    simp [State.freeOrders, Config.orderSlots] at room; omega
  exact (h.setOrders (by simpa using free)).evolves (Evolves.refl _).gradeRefUp

theorem answerRetireOrder_safe (h : s.Safe) : (answerRetireOrder b s).Leaves State.Safe := by
  simp only [answerRetireOrder, Answer.leaves_refuseIf]
  intro _
  split
  · trivial
  · simp only [Answer.leaves_refuseIf, Answer.leaves_done]
    intro _
    obtain ⟨orders, -⟩ := h.2.2.2.2.1
    exact (h.setOrders ((List.length_filter_le _ _).trans orders)).evolves
      ((Evolves.refl _).gradeRefDown.setPostponed).recheckAll

theorem answerEnterGrade_safe (h : s.Safe) : (answerEnterGrade b s).Leaves State.Safe := by
  simp only [answerEnterGrade, Answer.leaves_refuseIf, Answer.leaves_done]
  intro _ _ _ room
  have free : s.grades.length < 32 := by
    simp [State.freeGrades, Config.gradeSlots] at room; omega
  exact h.setGrades (by simpa using free)

theorem answerRetireGrade_safe (h : s.Safe) : (answerRetireGrade b s).Leaves State.Safe := by
  simp only [answerRetireGrade, Answer.leaves_refuseIf]
  intro _ _
  split
  · trivial
  · simp only [Answer.leaves_refuseIf, Answer.leaves_done]
    intro _
    obtain ⟨-, grades⟩ := h.2.2.2.2.1
    exact (h.setGrades ((List.length_filter_le _ _).trans grades)).evolves (Evolves.refl _).recheckAll

/-- R200: the new masks and severities put the line in HOLD where a status is then set, unmasked and FATAL. -/
theorem answerSetErrorPolicy_safe (h : s.Safe) : (answerSetErrorPolicy b s).Leaves State.Safe := by
  simp only [answerSetErrorPolicy, Answer.leaves_refuseIf, Answer.leaves_done]
  intro _
  refine h.setErrors fun fatal => ?_
  simp only [Errors.withPolicy, Bool.or_eq_true]
  exact Or.inr fatal

/-- R204: no status is set, unmasked and FATAL where it was not before its set shrank. -/
theorem Errors.fatalSet_mono {e f : Errors} (mask : f.mask = e.mask) (severity : f.severity = e.severity)
    (status : ∃ m, f.status = e.status &&& m) (fatal : f.fatalSet = true) : e.fatalSet = true := by
  obtain ⟨m, status⟩ := status
  simp only [Errors.fatalSet, Errors.unmasked, mask, severity, status, bne_iff_ne, ne_eq] at fatal ⊢
  intro none
  apply fatal
  calc e.status &&& m &&& ~~~e.mask &&& e.severity
      = (e.status &&& ~~~e.mask &&& e.severity) &&& m := by ac_rfl
    _ = 0#18 := by rw [none]; simp

theorem answerClearErrors_safe (h : s.Safe) : (answerClearErrors b s).Leaves State.Safe := by
  simp only [answerClearErrors, Answer.leaves_refuseIf, Answer.leaves_done]
  intro _
  exact h.setErrors fun fatal => h.1 (Errors.fatalSet_mono (f := s.errors.cleared _) rfl rfl ⟨_, rfl⟩ fatal)

/-- R204: HOLD is left where no status is set, unmasked and FATAL. -/
theorem answerReleaseHold_safe (h : s.Safe) : (answerReleaseHold b s).Leaves State.Safe := by
  simp only [answerReleaseHold, Answer.leaves_refuseIf, Answer.leaves_done]
  intro _ clear
  refine State.Safe.evolves ?_ (Evolves.refl _).attemptLaunch
  unfold State.leaveHold
  split
  · exact (h.setErrors fun fatal => absurd fatal (by simpa [Errors.fatalSet, Errors.unmasked] using clear)).evolves
      (Evolves.refl _).goTestAll
  · exact h

theorem clearWaiting_safe (h : s.Safe) (w : Waiting) : (s.clearWaiting w).Safe := by
  cases w with
  | error => exact h.setErrors h.1
  | order o => exact h.evolves ((Evolves.refl s).updateOrder (by intro _; rfl))
  | reel k p => exact h.evolves (Evolves.refl s).setSlot
  | nothing => exact h

theorem answerCollect_safe (h : s.Safe) : (answerCollect b s).Leaves State.Safe := by
  simp only [answerCollect, Answer.leaves_refuseIf, Answer.leaves_done]
  exact fun _ => clearWaiting_safe h _

/-- A request leaves a safe state safe. -/
theorem takeRequest_safe (h : s.Safe) (i : Instr) : (takeRequest i s).Safe := by
  cases i
  case null => exact h.answeredRead answerNull_leaves
  case readLine => exact h.answeredRead answerReadLine_leaves
  case configure => exact h.answered (answerConfigure_safe h)
  case readConfig => exact h.answeredRead answerReadConfig_leaves
  case lineReset => exact h.answeredEvolves answerLineReset_evolves
  case readErrors => exact h.answeredRead answerReadErrors_leaves
  case setErrorPolicy => exact h.answered (answerSetErrorPolicy_safe h)
  case clearErrors => exact h.answered (answerClearErrors_safe h)
  case releaseHold => exact h.answered (answerReleaseHold_safe h)
  case collect => exact h.answered (answerCollect_safe h)
  case enterOrder => exact h.answered (answerEnterOrder_safe h)
  case amendOrder => exact h.answeredEvolves answerAmendOrder_evolves
  case scheduleOrder => exact h.answeredEvolves answerScheduleOrder_evolves
  case unscheduleOrder => exact h.answeredEvolves answerUnscheduleOrder_evolves
  case rushOrder => exact h.answeredEvolves answerRushOrder_evolves
  case cancelOrder => exact h.answeredEvolves answerCancelOrder_evolves
  case retireOrder => exact h.answered (answerRetireOrder_safe h)
  case readOrder => exact h.answeredRead answerReadOrder_leaves
  case readSequence => exact h.answeredRead answerReadSequence_leaves
  case enterGrade => exact h.answered (answerEnterGrade_safe h)
  case amendGrade => exact h.answeredEvolves answerAmendGrade_evolves
  case retireGrade => exact h.answered (answerRetireGrade_safe h)
  case readGrade => exact h.answeredRead answerReadGrade_leaves
  case placeCull => exact h.answeredEvolves answerPlaceCull_evolves
  case readMarks => exact h.answeredRead answerReadMarks_leaves
  case announceReel => exact h.answeredEvolves answerAnnounceReel_evolves
  case withdrawReel => exact h.answeredEvolves answerWithdrawReel_evolves
  case threadReel => exact h.answeredEvolves answerThreadReel_evolves
  case unthreadReel => exact h.answeredEvolves answerUnthreadReel_evolves
  case readReel => exact h.answeredRead answerReadReel_leaves
  case requestSplice => exact h.answeredEvolves answerRequestSplice_evolves
  case clearStand => exact h.answeredEvolves answerClearStand_evolves
  case readStand => exact h.answeredRead answerReadStand_leaves
  case clearStation => exact h.answeredEvolves answerClearStation_evolves
  case readSlitter => exact h.answeredRead answerReadSlitter_leaves
  case readKnife => exact h.answeredRead answerReadKnife_leaves
  case refreshBond => exact h.answeredEvolves answerRefreshBond_evolves
  case readBond => exact h.answeredRead answerReadBond_leaves
  case readStationQueues => exact h.answeredRead answerReadStationQueues_leaves
  all_goals exact h

/-- A request is answered by the block that owns the record it names, by whichever way it comes in. -/
theorem exec_request {i : Instr} (r : (requestParts i).isSome = true) (s : State) :
    exec i s = .next (takeRequest i s) := by
  cases i <;> first | rfl | cases r

end Requests

/-! ### The other commands -/

section Commands

variable {s : State}

theorem forwardCount_safe (h : s.Safe) : s.forwardCount.Safe :=
  State.Safe.evolves (s := s.advance) h s.forwardCount_evolves

theorem closeWindow_safe (h : s.Safe) : s.closeWindow.Safe := by
  obtain ⟨fatal, queues, marks, stack, tables, engaged, knife, ⟨-, zero⟩, outputs, config⟩ := h
  refine ⟨fatal, queues, marks, stack, tables, engaged, knife, ⟨min_le_left _ _, ?_⟩, outputs, config⟩
  simp only [State.closeWindow, zeroAfter]
  split <;> omega

theorem windowClose_safe (h : s.Safe) : s.windowClose.Safe := (closeWindow_safe h).evolves s.windowClose_evolves

theorem routeReport_evolves {src : Source} {k : ReportKind} {body : List Byte} (out : s.knife.outstanding ≤ 2) :
    Evolves s (s.routeReport src k body) := by
  unfold State.routeReport
  have same := Evolves.refl s
  repeat' split
  all_goals
    first
    | exact same
    | exact same.reelLoaded
    | exact same.reelRemoved
    | exact same.diameterReport
    | exact same.setPositions
    | exact same.stackTaken out

theorem reportFrame_safe (h : s.Safe) (bs : List Byte) : (s.reportFrame bs).Safe := by
  unfold State.reportFrame
  split
  · exact h.evolves (Evolves.refl s).raise
  · exact h.evolves (routeReport_evolves h.outstanding)

/-- The receiver has no bound of its own. -/
theorem endReception_safe (h : s.Safe) : s.endReception.Safe := by
  unfold State.endReception
  split
  · exact State.Safe.evolves (s := { s with receiver := none }) h (Evolves.refl _).raise
  · exact h

theorem receiveOne_safe (h : s.Safe) (x : Option Byte) : (s.receiveOne x).Safe := by
  cases x with
  | some b =>
    simp only [State.receiveOne, State.receiveByte]
    split
    · split <;> exact h
    · split
      · exact reportFrame_safe (s := { s with receiver := none }) h _
      · exact h
  | none =>
    simp only [State.receiveOne, State.receiveRest]
    split
    · exact h
    · split
      · exact h
      · exact endReception_safe h

theorem receive_safe (h : s.Safe) (heard : List (Option Byte)) : (s.receive heard).Safe := by
  unfold State.receive
  induction heard generalizing s with
  | nil => exact h
  | cons x xs ih => exact ih (receiveOne_safe h x)

theorem exchangeEnds_safe (h : s.Safe) (frame : List Byte) : (s.exchangeEnds frame).Safe := by
  unfold State.exchangeEnds
  split
  · exact h
  · split
    · exact takeRequest_safe h _
    · exact h.respond

/-- R22, R45, R193, R208: the state after device reset keeps every bound. -/
theorem reset_safe : State.reset.Safe := by
  have config : State.reset.ConfigSafe := ⟨by decide, by decide⟩
  refine ⟨fun fatal => absurd fatal (by decide), fun c => ?_, Nat.zero_le _, Nat.zero_le _,
    ⟨Nat.zero_le _, Nat.zero_le _⟩, fun both => absurd both.1 (by decide), ⟨Nat.zero_le _, Nat.zero_le _⟩,
    ⟨Nat.zero_le _, le_rfl⟩, fun k => ⟨?_, fun t e => ?_⟩, config⟩
  · cases c <;> exact Nat.zero_le _
  · cases k <;> exact Nat.zero_le _
  · cases k <;> cases e

theorem tick_safe (h : s.Safe) : s.tick.Safe := by
  have start : s.millisecond.Safe := by
    obtain ⟨fatal, queues, marks, stack, tables, engaged, rest⟩ := h
    exact ⟨fatal, queues, marks, stack, tables, engaged, rest⟩
  have queued : ∀ (n : Nat) (es : List Instr) (u : State), u.Safe → (runEvents State.queueEvent n es u).Safe := by
    intro n
    induction n with
    | zero => exact fun _ _ h => h
    | succ n ih =>
      intro es u h
      match es with
      | [] => exact h
      | [_] => exact h
      | _ :: _ :: _ => exact ih _ _ h
  exact queued _ _ _ start

/-- Every command leads from a safe state to a safe state. -/
theorem exec_safe (h : s.Safe) (i : Instr) : ∃ t, exec i s = .next t ∧ t.Safe := by
  have same := Evolves.refl s
  by_cases r : (requestParts i).isSome = true
  · exact ⟨_, exec_request r s, takeRequest_safe h i⟩
  · cases i <;> first | exact absurd rfl r | refine ⟨_, rfl, ?_⟩
    case forwardCount =>
      unfold State.encoderPeriod
      dsimp only
      split
      · exact h
      · exact forwardCount_safe (s := { s with inputs := _ }) h
    case reverseCount =>
      unfold State.encoderPeriod State.reverseCount
      dsimp only
      split
      · exact h
      · split
        · exact h
        · exact State.Safe.evolves (s := { s with inputs := _, reverseRun := true }) h (Evolves.refl _).raise
    case speedWindowClose => exact windowClose_safe h
    case lineStopped => split <;> exact h
    case cutPulse =>
      unfold State.cutPeriod
      split
      · exact h.evolves same.cutPulse
      · exact h
    case jointPulse =>
      unfold State.jointPeriod
      split
      · exact h.evolves same.jointPulse
      · exact h
    case deviceReset => exact reset_safe
    case reelLoaded => split <;> [exact h.evolves same.raise; exact h.evolves same.reelLoaded]
    case reelRemoved => exact h.evolves same.reelRemoved
    case diameter => split <;> [exact h.evolves same.raise; exact h.evolves same.diameterReport]
    case setPositions => split <;> [exact h.evolves same.setPositions; exact h.evolves same.raise]
    case stackTaken => exact h.evolves (same.stackTaken h.outstanding)
    case malformedReport => exact receive_safe h _
    case reportFrameTimeout => exact endReception_safe h
    case spliceTimeout => exact h.evolves same.spliceTimeout
    case setTimeout => exact h.evolves same.setTimeout
    case diameterStale => exact h.evolves same.staleTest
    case runOut => exact h.evolves same.runOutIfEmpty
    case bumpEnd => exact h.evolves same.endBump
    case arbiterTake => exact h.evolves same.arbiterTake
    case spliceGo => split <;> [exact h.evolves same.goSent.freePlace; exact h]
    case speedCap => split <;> [exact h.evolves same.freePlace; exact h]
    case knifeSchedule => split <;> [exact h.evolves same.freePlace; exact h]
    case slitterSet => split <;> [exact h.evolves same.setSent.freePlace; exact h]
    case slitterExchange => split <;> [exact h.evolves same.exchangeSent.freePlace; exact h]
    case stackChange => split <;> [exact h.evolves same.freePlace; exact h]
    case bondSetpoint => split <;> [exact h.evolves same.setpointSent.freePlace; exact h]
    case requestFrameRefused => exact exchangeEnds_safe h _

/-- Settles O59: a step is the front command or a millisecond, and each keeps a safe state safe. -/
theorem safetyIsKept : Obligations.SafetyIsKept := by
  intro s t h e
  unfold step at e
  split at e
  · cases e
    exact tick_safe h
  · next i rest _ =>
    obtain ⟨u, run, safe⟩ := exec_safe (s := { s with pending := rest }) h i
    cases run.symm.trans e
    exact safe

end Commands

end Sys2Proof.Machine
end

section
/-! PROOF. The state after device reset: safe and consistent (O58), each record at its value (O57). -/

namespace Sys2Proof.Machine

open Sys2Proof

/-- R24, R47, R49, R83, R161: with empty tables and empty slots the tables agree. -/
theorem reset_consistent : State.reset.Consistent := by
  refine ⟨⟨List.nodup_nil, nofun⟩, ⟨List.nodup_nil, List.nodup_nil, List.nodup_nil, List.nodup_nil⟩,
    ⟨List.nodup_nil, fun n => ⟨nofun, nofun⟩⟩, ⟨nofun, nofun⟩, fun k => ?_, fun u => ⟨?_, ?_, nofun⟩⟩
  · cases k <;> decide
  · cases u <;> exact Nat.zero_le _
  · cases u <;> exact nofun

/-- Settles O58. -/
theorem resetIsSafe : Obligations.ResetIsSafe := ⟨reset_safe, reset_consistent⟩

theorem reset_slot (k : Stand) (p : Pos) : State.reset.slot k p = ⟨.empty none, false⟩ := by
  cases k <;> cases p <;> rfl

theorem reset_seq (k : Stand) : State.reset.seq k = ⟨.idle, none, none, none, none, none, none, none⟩ := by
  cases k <;> rfl

theorem reset_station (st : Station) :
    State.reset.station st = ⟨.idle, none, none, none, 0, none, none, none, none⟩ := by
  cases st <;> rfl

theorem reset_preheater (k : Stand) : State.reset.preheaters.get k = ⟨none, none, 0, none⟩ := by cases k <;> rfl

theorem reset_glue (g : GlueUnit) : State.reset.glue.get g = ⟨none, none, 0, none⟩ := by cases g <;> rfl

/-- R197, R208: after device reset kinds 1, 2, 9, 14 and 17 are FATAL. -/
theorem reset_severity (k : ErrorKind) : k.isIn State.reset.errors.severity = [1, 2, 9, 14, 17].contains k.number := by
  cases k <;> decide

/-- R205: no order, no reel and no status asks for attention after device reset. -/
theorem reset_attnLow : State.reset.attnLow = false := by decide

/-- Settles O57: DEVICE_RESET leaves the reset state but for the input levels it draws and the command queue. -/
theorem deviceResetValues : Obligations.DeviceResetValues := by
  intro s
  exact ⟨_, rfl, rfl, rfl, rfl, rfl, rfl, rfl, rfl, rfl, rfl, rfl, rfl, rfl, rfl, reset_slot, reset_seq, rfl,
    reset_station, rfl, rfl, reset_preheater, reset_glue, rfl, rfl, rfl, rfl, rfl, rfl, rfl, rfl, reset_severity,
    rfl, reset_attnLow, rfl, rfl, rfl, rfl⟩

end Sys2Proof.Machine
end

section
/-! PROOF. Separate events taken in a free order (log entry 5), and the millisecond that a step on an empty queue lets pass
(O2). -/

namespace Sys2Proof.Machine

open Sys2Proof

/-! ### Separate events -/

/-- What holds of the events still to be taken and the state, and is kept by a free value drawn and by each event taken out
of the list, holds at the end, when no event is left. -/
theorem takeEvents_induct {ε : Type} {act : ε → State → State} (I : List ε → State → Prop)
    (drawn : ∀ es s, I es s → I es s.drawn)
    (event : ∀ es i s, (h : i < es.length) → I es s → I (es.eraseIdx i) (act es[i] s)) {es : List ε} {s : State}
    (start : I es s) : I [] (takeEvents act es s) := by
  have run : ∀ (n : Nat) (es : List ε) (s : State), es.length = n → I es s → I [] (runEvents act n es s) := by
    intro n
    induction n with
    | zero => intro es s len h; rw [List.length_eq_zero_iff.mp len] at h; exact h
    | succ n ih =>
      intro es s len h
      match es with
      | [e] => exact event [e] 0 s (by simp) h
      | e :: f :: rest =>
        have bound : s.choice (rest.length + 2) < (e :: f :: rest).length := Nat.mod_lt _ (by simp)
        have taken := event (e :: f :: rest) _ s.drawn bound (drawn _ _ h)
        simp only [runEvents]
        refine ih _ _ (by rw [List.length_eraseIdx_of_lt bound, len]; rfl) ?_
        rwa [List.getD_eq_getElem?_getD, List.getElem?_eq_getElem bound]
  exact run _ _ _ rfl start

@[simp] theorem takeEvents_nil {ε : Type} (act : ε → State → State) (s : State) : takeEvents act [] s = s := rfl

@[simp] theorem takeEvents_singleton {ε : Type} (act : ε → State → State) (e : ε) (s : State) :
    takeEvents act [e] s = act e s := rfl

/-! ### The millisecond -/

/-- What a millisecond brings about joins the command queue, in some order. -/
theorem takeEvents_queueEvent (es : List Instr) (s : State) : ∃ l, l.Perm es ∧
    takeEvents State.queueEvent es s
      = { s with draws := (takeEvents State.queueEvent es s).draws, pending := s.pending ++ l } := by
  have taken := takeEvents_induct (act := State.queueEvent) (es := es) (s := s)
    (fun left t => ∃ l, (l ++ left).Perm es ∧ t = { s with draws := t.draws, pending := s.pending ++ l })
    (fun left t ⟨l, perm, eq⟩ => ⟨l, perm, by rw [eq]; rfl⟩)
    (fun left i t h ⟨l, perm, eq⟩ => by
      refine ⟨l ++ [left[i]], ?_, by rw [eq]; simp [State.queueEvent]⟩
      rw [List.append_assoc]
      exact ((List.getElem_cons_eraseIdx_perm h).append_left l).trans perm)
    ⟨[], by simp, by simp⟩
  obtain ⟨l, perm, eq⟩ := taken
  exact ⟨l, by simpa using perm, eq⟩

theorem seq_millisecond (s : State) (k : Stand) : s.millisecond.seq k = (s.seq k).tick := by cases k <;> rfl

/-- R3: the window in progress is a millisecond older, or a new one begins. -/
theorem windowMs_millisecond (s : State) :
    s.millisecond.windowMs = if s.windowMs + 1 < 100 then s.windowMs + 1 else 0 := by
  by_cases w : s.windowMs + 1 < 100
  · rw [if_pos w]; exact if_neg (not_le.mpr w)
  · rw [if_neg w]; exact if_pos (not_lt.mp w)

theorem station_millisecond (s : State) (st : Station) : s.millisecond.station st = (s.station st).tick := by
  cases st <;> rfl

/-- A timer exceeds its limit by a millisecond where it stood at it. -/
theorem Timer.advance_exceeds {t : Timer} (before : ¬ t.limit < t.ms) :
    t.advance.limit < t.advance.ms ↔ t.ms = t.limit := by
  simp only [Timer.advance]; omega

/-- R111: the splice timers that exceed their limit by this millisecond. -/
theorem spliceExpired_newly {s : State} {k : Stand} :
    (s.millisecond.spliceExpired k && !s.spliceExpired k) = true ↔
      ∃ x, (s.seq k).state = .splicing ∧ (s.seq k).timer = some x ∧ x.ms = x.limit := by
  simp only [State.spliceExpired, seq_millisecond, Sequencer.tick]
  cases (s.seq k).timer with
  | none => simp
  | some x =>
    by_cases st : (s.seq k).state = .splicing
    · by_cases before : x.limit < x.ms
      · simp [st, before]; omega
      · simp [st, before, Timer.advance_exceeds before]
    · simp [st]

/-- R129: the set timers that exceed their limit by this millisecond. -/
theorem setExpired_newly {s : State} {st : Station} :
    (s.millisecond.setExpired st && !s.setExpired st) = true ↔
      ∃ x, (s.station st).state = .setting ∧ (s.station st).timer = some x ∧ x.ms = x.limit := by
  simp only [State.setExpired, station_millisecond, SlitterStation.tick]
  cases (s.station st).timer with
  | none => simp
  | some x =>
    by_cases set : (s.station st).state = .setting
    · by_cases before : x.limit < x.ms
      · simp [set, before]; omega
      · simp [set, before, Timer.advance_exceeds before]
    · simp [set]

theorem mem_standAll (k : Stand) : k ∈ Stand.all := by cases k <;> decide

theorem nodup_standAll : Stand.all.Nodup := by decide

theorem mem_tickEvents {s : State} {i : Instr} : i ∈ tickEvents s s.millisecond ↔
    (i = .speedWindowClose ∧ 100 ≤ s.windowMs + 1)
      ∨ (∃ k x, i = .spliceTimeout k ∧ (s.seq k).state = .splicing ∧ (s.seq k).timer = some x ∧ x.ms = x.limit)
      ∨ (∃ st x, i = .setTimeout st ∧ (s.station st).state = .setting ∧ (s.station st).timer = some x
          ∧ x.ms = x.limit)
      ∨ (i = .reportFrameTimeout ∧ s.receiver ≠ none) := by
  have splice : i ∈ (Stand.all.filter fun k => s.millisecond.spliceExpired k && !s.spliceExpired k).map
      Instr.spliceTimeout ↔
      ∃ k x, i = .spliceTimeout k ∧ (s.seq k).state = .splicing ∧ (s.seq k).timer = some x ∧ x.ms = x.limit := by
    simp only [List.mem_map, List.mem_filter, mem_standAll, true_and, spliceExpired_newly]
    exact ⟨fun ⟨k, ⟨x, h⟩, e⟩ => ⟨k, x, e.symm, h⟩, fun ⟨k, x, e, h⟩ => ⟨k, ⟨x, h⟩, e.symm⟩⟩
  have set : i ∈ ([Station.a, Station.b].filter fun st => s.millisecond.setExpired st && !s.setExpired st).map
      Instr.setTimeout ↔
      ∃ st x, i = .setTimeout st ∧ (s.station st).state = .setting ∧ (s.station st).timer = some x
        ∧ x.ms = x.limit := by
    have all (st : Station) : st ∈ [Station.a, Station.b] := by cases st <;> simp
    simp only [List.mem_map, List.mem_filter, all, true_and, setExpired_newly]
    exact ⟨fun ⟨k, ⟨x, h⟩, e⟩ => ⟨k, x, e.symm, h⟩, fun ⟨k, x, e, h⟩ => ⟨k, ⟨x, h⟩, e.symm⟩⟩
  have close : (100 ≤ s.windowMs + 1 ↔ windowLength ≤ s.windowMs + 1) := Iff.rfl
  rw [close]
  simp only [tickEvents, List.mem_append, splice, set, List.mem_ite_nil_right, List.mem_singleton,
    Option.isSome_iff_ne_none, or_assoc]
  exact or_congr and_comm (or_congr_right (or_congr_right and_comm))

theorem nodup_tickEvents (s : State) : (tickEvents s s.millisecond).Nodup := by
  have splice : ((Stand.all.filter fun k => s.millisecond.spliceExpired k && !s.spliceExpired k).map
      Instr.spliceTimeout).Nodup := (nodup_standAll.filter _).map fun _ _ => Instr.spliceTimeout.inj
  have set : (([Station.a, Station.b].filter fun st => s.millisecond.setExpired st && !s.setExpired st).map
      Instr.setTimeout).Nodup := ((by decide : [Station.a, Station.b].Nodup).filter _).map fun _ _ => Instr.setTimeout.inj
  have single (c : Prop) [Decidable c] (i : Instr) : (if c then [i] else []).Nodup := by split <;> simp
  simp only [tickEvents]
  refine ((((single _ _).append splice ?_).append set ?_).append (single _ _) ?_) <;>
    intro i a b <;> simp only [List.mem_append, List.mem_map, List.mem_ite_nil_right, List.mem_singleton] at a b
  · obtain ⟨k, -, rfl⟩ := b; simp at a
  · obtain ⟨k, -, rfl⟩ := b; simp at a
  · obtain ⟨-, rfl⟩ := b; simp at a

theorem millisecond_noTimer {s : State} (q : ∀ k, (s.seq k).timer = none) (x : ∀ st, (s.station st).timer = none) :
    s.millisecond = { s with windowMs := if s.windowMs + 1 < 100 then s.windowMs + 1 else 0 } := by
  have seqs (k : Stand) : (s.seq k).tick = s.seq k := by
    simp only [Sequencer.tick, q k, Option.map_none]
    rw [← q k]
  have stations (st : Station) : (s.station st).tick = s.station st := by
    simp only [SlitterStation.tick, x st, Option.map_none]
    rw [← x st]
  have l1 := seqs .l1; have m1 := seqs .m1; have l2 := seqs .l2; have m2 := seqs .m2; have l3 := seqs .l3
  have a := stations .a; have b := stations .b
  simp only [State.seq, State.station, PerStand.get, Pair.get] at *
  rw [← windowMs_millisecond]
  simp only [State.millisecond, l1, m1, l2, m2, l3, a, b]

theorem tickEvents_quiet {s : State} (q : ∀ k, (s.seq k).timer = none) (x : ∀ st, (s.station st).timer = none)
    (r : s.receiver = none) :
    tickEvents s s.millisecond = if 100 ≤ s.windowMs + 1 then [.speedWindowClose] else [] := by
  have splice (k : Stand) : s.millisecond.spliceExpired k = false := by
    simp [State.spliceExpired, seq_millisecond, Sequencer.tick, q k]
  have set (st : Station) : s.millisecond.setExpired st = false := by
    simp [State.setExpired, station_millisecond, SlitterStation.tick, x st]
  simp [tickEvents, splice, set, r, windowLength]

/-- Settles O2. -/
theorem idleStepIsAMillisecond : Obligations.IdleStepIsAMillisecond := by
  intro s idle
  have run : step s = .next s.tick := by simp only [step, idle]
  refine ⟨⟨s.tick, run, ?_⟩, fun q x r => ?_⟩
  · obtain ⟨l, perm, eq⟩ := takeEvents_queueEvent (tickEvents s s.millisecond) s.millisecond
    have queue : s.tick.pending = l := by
      rw [State.tick, eq]; simp [State.millisecond, idle]
    have seq (k : Stand) : s.tick.seq k = s.millisecond.seq k := by rw [State.tick, eq]; rfl
    have station (st : Station) : s.tick.station st = s.millisecond.station st := by rw [State.tick, eq]; rfl
    refine ⟨by rw [State.tick, eq]; rfl, ?_, fun k => ?_, fun st => ?_, ?_, fun i => ?_⟩
    · rw [State.tick, eq]; exact windowMs_millisecond s
    · rw [seq, seq_millisecond]; rfl
    · rw [station, station_millisecond]; rfl
    · rw [queue]; exact perm.nodup_iff.mpr (nodup_tickEvents s)
    · rw [queue, perm.mem_iff, mem_tickEvents]
  · rw [run, State.tick, tickEvents_quiet q x r, millisecond_noTimer q x]
    by_cases w : s.windowMs + 1 < 100
    · rw [if_neg (not_le.mpr w)]
      simp only [w, if_true, takeEvents_nil]
    · rw [if_pos (not_lt.mp w)]
      simp only [w, if_false, takeEvents_singleton, State.queueEvent, idle, List.nil_append]

end Sys2Proof.Machine
end

section
/-! PROOF. The web tracker: a forward count, its count-downs and its separate events (O24), the reverse count (O25), the close
of a speed window (O29). -/

namespace Sys2Proof.Machine

open Sys2Proof

/-! ### The count-downs (R95) -/

/-- R95: a slot whose reel pays out one count at a take-up. -/
def ReelSlot.paidOut (takeUp : Nat) (x : ReelSlot) : ReelSlot :=
  match x.reel with
  | .running r st t => { x with reel := .running (r.counted takeUp) st t }
  | _ => x

theorem ReelSlot.paidOut_inRole (takeUp : Nat) (x : ReelSlot) : (x.paidOut takeUp).reel.inRole = x.reel.inRole := by
  unfold ReelSlot.paidOut
  split
  · next e => simp [e, Reel.inRole]
  · rfl

theorem ReelSlot.paidOut_of_not_running {takeUp : Nat} {x : ReelSlot} (h : ∀ r st n, x.reel ≠ .running r st n) :
    x.paidOut takeUp = x := by
  unfold ReelSlot.paidOut
  split
  · next r st n e => exact absurd e (h r st n)
  · rfl

theorem ReelSlot.paidOut_of_running {takeUp : Nat} {x : ReelSlot} {r : Paper} {st : Bool} {n : Nat}
    (h : x.reel = .running r st n) : x.paidOut takeUp = ⟨.running (r.counted takeUp) st n, x.attention⟩ := by
  unfold ReelSlot.paidOut
  simp only [h]

theorem State.slot_setSlot (s : State) (k j : Stand) (p q : Pos) (x : ReelSlot) :
    (s.setSlot k p x).slot j q = if j = k ∧ q = p then x else s.slot j q := by
  by_cases e : j = k
  · subst e
    by_cases f : q = p
    · subst f; simp
    · simp [f, State.slot_setSlot_otherPos _ _ _ f]
  · simp [e, State.slot_setSlot_otherStand _ _ _ _ e]

theorem State.setSlot_self (s : State) (k : Stand) (p : Pos) : s.setSlot k p (s.slot k p) = s := by
  cases k <;> cases p <;> rfl

theorem countDown_eq (s : State) (k : Stand) : s.countDown k = match s.runningPos k with
    | some p => s.setSlot k p ((s.slot k p).paidOut (takeUpOf s.config k))
    | none => s := by
  unfold State.countDown
  cases s.runningPos k with
  | none => rfl
  | some p =>
    dsimp only
    split
    · next e => rw [ReelSlot.paidOut_of_running e]
    · next h => rw [ReelSlot.paidOut_of_not_running h, State.setSlot_self]

/-- R95: what the count-down of stand k leaves in each slot. -/
theorem countDown_slot (s : State) (k j : Stand) (q : Pos) : (s.countDown k).slot j q =
    if j = k ∧ s.runningPos k = some q then (s.slot k q).paidOut (takeUpOf s.config k) else s.slot j q := by
  rw [countDown_eq]
  cases run : s.runningPos k with
  | none => simp
  | some p =>
    dsimp only
    rw [State.slot_setSlot]
    by_cases f : p = q
    · simp [f]
    · simp [f, Ne.symm f]

theorem countDown_frame (s : State) (k : Stand) : s.countDown k = { s with reels := (s.countDown k).reels } := by
  rw [countDown_eq]
  split <;> rfl

theorem countDown_config (s : State) (k : Stand) : (s.countDown k).config = s.config := by rw [countDown_frame]

/-- R83: the count-down takes no reel out of the running role. -/
theorem countDown_runningPos (s : State) (k j : Stand) : (s.countDown k).runningPos j = s.runningPos j := by
  have role (q : Pos) : ((s.countDown k).slot j q).reel.inRole = (s.slot j q).reel.inRole := by
    rw [countDown_slot]
    split
    · next h => rw [ReelSlot.paidOut_inRole, h.1]
    · rfl
  simp only [State.runningPos, role]

/-- R95: what the count-downs of a list of distinct stands leave in each slot. -/
theorem countDown_foldl_slot (ks : List Stand) (nodup : ks.Nodup) (s : State) (j : Stand) (q : Pos) :
    (ks.foldl State.countDown s).slot j q =
      if j ∈ ks ∧ s.runningPos j = some q then (s.slot j q).paidOut (takeUpOf s.config j) else s.slot j q := by
  induction ks generalizing s with
  | nil => simp
  | cons k ks ih =>
    obtain ⟨fresh, nodup⟩ := List.nodup_cons.mp nodup
    rw [List.foldl_cons, ih nodup, countDown_runningPos, countDown_config, countDown_slot]
    by_cases e : j = k
    · subst e; simp [fresh]
    · simp [e]

theorem countDownAll_slot (s : State) (j : Stand) (q : Pos) : s.countDownAll.slot j q =
    if s.runningPos j = some q then (s.slot j q).paidOut (takeUpOf s.config j) else s.slot j q := by
  rw [State.countDownAll, countDown_foldl_slot _ nodup_standAll]
  simp [mem_standAll]

theorem countDownAll_frame (s : State) : s.countDownAll = { s with reels := s.countDownAll.reels } := by
  have all (ks : List Stand) (s : State) :
      ks.foldl State.countDown s = { s with reels := (ks.foldl State.countDown s).reels } := by
    induction ks generalizing s with
    | nil => rfl
    | cons k ks ih => rw [List.foldl_cons, ih, countDown_frame]
  exact all _ s

theorem countDownAll_runningPos (s : State) (j : Stand) : s.countDownAll.runningPos j = s.runningPos j := by
  have role (q : Pos) : (s.countDownAll.slot j q).reel.inRole = (s.slot j q).reel.inRole := by
    rw [countDownAll_slot]
    split
    · rw [ReelSlot.paidOut_inRole]
    · rfl
  simp only [State.runningPos, role]

/-! ### A forward count -/

/-- The state after the count-downs differs from the state before the count in these fields alone. -/
theorem advanced_frame (s : State) : advanced s =
    { s with odometer := s.odometer + 1#32, delta := s.delta + 1, reverseRun := false, reels := (advanced s).reels,
             inputs := { s.inputs with encCnt := false, encDir := true } } := by
  unfold advanced
  rw [countDownAll_frame]
  rfl

theorem advanced_odometer (s : State) : (advanced s).odometer = s.odometer + 1#32 := by rw [advanced_frame]
theorem advanced_marks (s : State) : (advanced s).marks = s.marks := by rw [advanced_frame]
theorem advanced_config (s : State) : (advanced s).config = s.config := by rw [advanced_frame]
theorem advanced_planner (s : State) : (advanced s).planner = s.planner := by rw [advanced_frame]
theorem advanced_seq (s : State) (k : Stand) : (advanced s).seq k = s.seq k := by rw [advanced_frame]; rfl
theorem advanced_glue (s : State) : (advanced s).glue = s.glue := by rw [advanced_frame]
theorem advanced_knife (s : State) : (advanced s).knife = s.knife := by rw [advanced_frame]
theorem advanced_changes (s : State) : (advanced s).changes = s.changes := by rw [advanced_frame]; rfl

theorem advanced_runningPos (s : State) (k : Stand) : (advanced s).runningPos k = s.runningPos k :=
  countDownAll_runningPos _ k

theorem advanced_slot (s : State) (k : Stand) (p : Pos) : (advanced s).slot k p =
    if s.runningPos k = some p then (s.slot k p).paidOut (takeUpOf s.config k) else s.slot k p :=
  countDownAll_slot _ k p

/-- R1: a count whose period gives one takes its separate events in a free order. -/
theorem exec_forwardCount {s : State} (h : s.inputs.encCnt = false) :
    exec .forwardCount s = .next (takeEvents State.countEvent (countEvents s (advanced s)) (advanced s)) := by
  change Host.Outcome.next (s.encoderPeriod true State.forwardCount) = _
  simp only [State.encoderPeriod, h, Bool.false_eq_true, if_false]
  rfl

theorem exec_forwardCount_high {s : State} (h : s.inputs.encCnt = true) :
    exec .forwardCount s = .next { s with inputs := { s.inputs with encCnt := false, encDir := true } } := by
  change Host.Outcome.next (s.encoderPeriod true State.forwardCount) = _
  simp only [State.encoderPeriod, h, if_true]

/-- R1: what a count brings about evolves the state that its count-downs leave. -/
theorem forwardCount_evolves_advanced (s : State) :
    Evolves (advanced s) (takeEvents State.countEvent (countEvents s (advanced s)) (advanced s)) :=
  (Evolves.refl _).takeEvents fun _ v => (Evolves.refl v).countEvent

/-! ### A count without events -/

theorem InputLevels.encDir_of_low {i : InputLevels} (h : i.encCnt = false) :
    { i with encCnt := false, encDir := true } = { i with encDir := true } := by rw [← h]

/-- R96: a reel above its reserve is not low. -/
theorem low_eq_false {s : State} {k : Stand}
    (h : ∀ p r st n, s.runningPos k = some p → (s.slot k p).reel = .running r st n →
      reserveOf s.config k < r.remaining) : s.low k = false := by
  unfold State.low
  cases run : s.runningPos k with
  | none => rfl
  | some p =>
    dsimp only
    split
    · next r st n e => exact decide_eq_false (not_le.mpr (h p r st n run e))
    · rfl

/-- R97: a reel with paper left is not due to run out. -/
theorem runOutDue_eq_false {s : State} {k : Stand}
    (h : ∀ p r st n, s.runningPos k = some p → (s.slot k p).reel = .running r st n → 0 < r.remaining) :
    s.runOutDue k = false := by
  unfold State.runOutDue
  cases run : s.runningPos k with
  | none => rfl
  | some p =>
    dsimp only
    split
    · next r st n e => exact beq_eq_false_iff_ne.mpr (h p r st n run e).ne'
    · rfl

/-- R95: a reel more than 2 mm above its reserve is above it after a count. -/
theorem advanced_above {s : State}
    (high : ∀ k p r st t, s.runningPos k = some p → (s.slot k p).reel = .running r st t →
      reserveOf s.config k + 2 < r.remaining ∧ takeUpOf s.config k ≤ 8192 ∧ r.residue < 4096)
    (k : Stand) (p : Pos) (r : Paper) (st : Bool) (n : Nat) (run : (advanced s).runningPos k = some p)
    (reel : ((advanced s).slot k p).reel = .running r st n) : reserveOf (advanced s).config k < r.remaining := by
  rw [advanced_runningPos] at run
  rw [advanced_slot, if_pos run] at reel
  rw [advanced_config]
  unfold ReelSlot.paidOut at reel
  split at reel
  · next q _ _ e =>
    obtain ⟨rem, up, res⟩ := high k p _ _ _ run e
    cases reel
    have taken : (q.residue + takeUpOf s.config k) / 4096 ≤ 2 := by omega
    simp only [Paper.counted]
    omega
  · next h => exact absurd reel (h _ _ _)

/-- R1: on an empty mark table, with idle sequencers, no bump, no knife owner and reels above their reserves, a count brings
about no event. -/
theorem countEvents_quiet {s : State} (marks : s.marks = []) (idle : ∀ k, (s.seq k).state = .idle)
    (bump : ∀ g, (s.glue.get g).bumpEnd = none) (owner : s.knife.owner = .unassigned)
    (high : ∀ k p r st t, s.runningPos k = some p → (s.slot k p).reel = .running r st t →
      reserveOf s.config k + 2 < r.remaining ∧ takeUpOf s.config k ≤ 8192 ∧ r.residue < 4096) :
    countEvents s (advanced s) = [] := by
  have above := advanced_above high
  have changes : (advanced s).changes = [] := by rw [advanced_changes]; simp [State.changes, marks]
  have low (k : Stand) : (advanced s).low k = false := low_eq_false (above k)
  have runOut (k : Stand) : (advanced s).runOutDue k = false :=
    runOutDue_eq_false fun p r st n run reel => (above k p r st n run reel).pos
  have bumps (g : GlueUnit) : (advanced s).bumpDue g = false := by simp [State.bumpDue, advanced_glue, bump g]
  have due (k : Stand) : (advanced s).isDue k = false := by simp [State.isDue, advanced_seq, idle k]
  have noLead : (advanced s).leadReached = none := by simp [State.leadReached, changes]
  have noOwner : (advanced s).ownerDue = false := by simp [State.ownerDue, advanced_knife, owner, noLead]
  have noCut : (advanced s).cutOverdue = false := by simp [State.cutOverdue, advanced_knife, owner]
  simp [countEvents, advanced_marks, marks, changes, low, runOut, bumps, due, advanced_seq, idle, SeqState.waitsForReel,
    noOwner, noCut]

/-- Settles O24. -/
theorem forwardCountAdvancesAndPaysOut : Obligations.ForwardCountAdvancesAndPaysOut := by
  intro s
  refine ⟨exec_forwardCount_high, fun low => ⟨_, exec_forwardCount low, ?_⟩,
    fun low marks idle bump owner high => ⟨_, exec_forwardCount low, ?_⟩⟩
  · have e := forwardCount_evolves_advanced s
    have a := advanced_frame s
    refine ⟨?_, ?_, ?_, ?_, ?_, ?_, ?_, ?_, ?_, ?_, ?_, ?_, ?_⟩
    · rw [e.odometer, a]
    · rw [e.delta, a]
    · rw [e.reverseRun, a]
    · rw [e.speed, a]
    · rw [e.windowMs, a]
    · rw [e.zeroWindows, a]
    · rw [e.stopped, a]
    · rw [e.config, a]
    · rw [e.port, a]
    · rw [e.mask, a]
    · rw [e.severity, a]
    · rw [e.inputs, a]; exact InputLevels.encDir_of_low low
    · rw [e.receiver, a]
  · rw [countEvents_quiet marks idle bump owner high, takeEvents_nil, ← InputLevels.encDir_of_low low]
    refine ⟨advanced_frame s, fun k p h => ?_, fun k p h n => ?_, fun k p r st n h e => ?_⟩
    · rw [advanced_slot, if_neg h]
    · rw [advanced_slot, if_pos h, ReelSlot.paidOut_of_not_running n]
    · rw [advanced_slot, if_pos h, ReelSlot.paidOut_of_running e]; rfl

/-! ### A reverse count -/

/-- Settles O25. -/
theorem reverseCountRaisesOnce : Obligations.ReverseCountRaisesOnce := by
  intro s
  have run : exec .reverseCount s = .next (s.encoderPeriod false State.reverseCount) := rfl
  refine ⟨fun high => ?_, fun low again => ?_, fun low first => ?_, fun low => ⟨_, exec_forwardCount low, ?_⟩,
    ⟨_, rfl, rfl⟩, ⟨_, rfl, ?_⟩⟩
  · rw [run, State.encoderPeriod, if_pos high]
  · rw [run, State.encoderPeriod, if_neg (by simp [low])]
    exact congrArg _ (if_pos again)
  · rw [run, State.encoderPeriod, if_neg (by simp [low])]
    exact congrArg _ (if_neg (by simp [first]))
  · rw [(forwardCount_evolves_advanced s).reverseRun, advanced_frame]
  · have evolves := answerLineReset_evolves (s := s) (b := [])
    rw [takeLineReset]
    cases a : answerLineReset [] s with
    | error st => rfl
    | ok r =>
      rw [a] at evolves
      exact evolves.reverseRun

/-! ### The close of a speed window -/

/-- Settles O29: a close evolves the state in which speed, Δ, z and the condition have been set. -/
theorem windowCloseSetsSpeedAndCondition : Obligations.WindowCloseSetsSpeedAndCondition := by
  intro s
  have e := s.windowClose_evolves
  refine ⟨⟨s.windowClose, rfl, e.speed, e.delta, fun still => ?_, fun moved => ?_, e.odometer, e.reverseRun, e.config,
    e.port⟩, fun z => congrArg _ (if_pos z), fun z => congrArg _ (if_neg z)⟩
  · have zero : s.windowClose.zeroWindows = min 20 (s.zeroWindows + 1) := by
      rw [e.zeroWindows]; simp [State.closeWindow, zeroAfter, still]
    have stop : s.windowClose.stopped = (s.stopped || decide (min 20 (s.zeroWindows + 1) = 20)) := by
      rw [e.stopped]; simp [State.closeWindow, stoppedAfter, zeroAfter, still]
    rw [zero, stop]
    exact ⟨rfl, fun full => by simp [full], fun part => by simp [part]⟩
  · rw [e.zeroWindows, e.stopped]
    simp [State.closeWindow, stoppedAfter, zeroAfter, moved.ne']

end Sys2Proof.Machine
end

section
/-! PROOF. The separate events of a forward count: which crossings fire and what a silent one does (O26), which marks retire
and are re-based (O28). -/

namespace Sys2Proof.Machine

open Sys2Proof

/-! ### Marks by their serial numbers -/

theorem findMark_mem {s : State} {u : Nat} {m : Mark} (h : s.findMark u = some m) : m ∈ s.marks ∧ m.uid = u :=
  ⟨List.mem_of_find?_eq_some h, by simpa using List.find?_some h⟩

/-- Two marks of a keyed table with one serial number are one mark. -/
theorem State.MarksKeyed.eq {s : State} (keyed : s.MarksKeyed) {m n : Mark} (hm : m ∈ s.marks) (hn : n ∈ s.marks)
    (h : m.uid = n.uid) : m = n := List.inj_on_of_nodup_map keyed.1 hm hn h

theorem mem_changes {s : State} {m : ChangeMark} : m ∈ s.changes ↔ Mark.change m ∈ s.marks := by
  simp only [State.changes, List.mem_filterMap]
  constructor
  · rintro ⟨x, hx, e⟩
    cases x <;> simp [Mark.asChange] at e
    exact e ▸ hx
  · exact fun h => ⟨_, h, rfl⟩

/-- In a keyed table a CHANGE mark is found by its serial number. -/
theorem State.MarksKeyed.findChange {s : State} (keyed : s.MarksKeyed) {m : ChangeMark}
    (h : Mark.change m ∈ s.marks) : s.findChange m.uid = some m := by
  cases e : s.findChange m.uid with
  | none => simpa using List.find?_eq_none.mp e m (mem_changes.mpr h)
  | some n =>
    obtain ⟨mem, uid⟩ := findChange_mem e
    have : Mark.change n = .change m := keyed.eq mem h uid
    rw [Mark.change.inj this]

/-! ### The events of a count -/

theorem mem_countEvents_fire {s t : State} {u : Nat} {c : Cross} :
    CountEvent.fire u c ∈ countEvents s t ↔ ∃ m ∈ t.marks, m.uid = u ∧ c ∈ t.firing m := by
  simp [countEvents]
  aesop

theorem mem_countEvents_retire {s t : State} {u : Nat} :
    CountEvent.retire u ∈ countEvents s t ↔ ∃ m ∈ t.marks, m.uid = u ∧ t.retires m = true := by
  simp [countEvents]
  aesop

theorem mem_countEvents_rebase {s t : State} {u : Nat} :
    CountEvent.rebase u ∈ countEvents s t ↔ ∃ m ∈ t.changes, m.uid = u ∧ t.rebaseDue m = true := by
  simp [countEvents]
  aesop

/-- R1: where a count brings about one event alone, the count is that event. -/
theorem exec_forwardCount_sole {s : State} {e : CountEvent} (h : SoleEvent s e) :
    exec .forwardCount s = .next ((advanced s).countEvent e) := by
  obtain ⟨low, -, sole⟩ := h
  rw [exec_forwardCount low, sole, takeEvents_singleton]

theorem soleEvent_mem {s : State} {e : CountEvent} (h : SoleEvent s e) : e ∈ countEvents s (advanced s) := by
  obtain ⟨-, -, sole⟩ := h
  simp [sole]

theorem advanced_findMark (s : State) (u : Nat) : (advanced s).findMark u = s.findMark u := by
  rw [State.findMark, advanced_marks]; rfl

theorem advanced_findChange (s : State) (u : Nat) : (advanced s).findChange u = s.findChange u := by
  rw [State.findChange, advanced_changes]; rfl

/-! ### The points of the crossings (R14, R16) -/

theorem mem_firing {s : State} {m : Mark} {c : Cross} :
    c ∈ s.firing m ↔ ∃ x, (c, some x) ∈ m.points s.config ∧ atOrAfter s.odometer x = true := by
  simp only [State.firing, List.mem_filterMap, Prod.exists]
  constructor
  · rintro ⟨d, x, mem, fires⟩
    cases x with
    | none => simp at fires
    | some x =>
      dsimp only at fires
      split at fires
      · next now =>
        cases fires
        exact ⟨x, mem, now⟩
      · cases fires
  · rintro ⟨x, mem, now⟩
    exact ⟨c, some x, mem, by simp [reached, now]⟩

theorem CrossEntry.isPending_iff {e : CrossEntry} : e.isPending = true ↔ e.status = .pending ∨ e.status = .rearmed := by
  unfold CrossEntry.isPending
  cases e.status <;> simp

/-- R14, R16: the point of a bond crossing, from P or from the incoming start. -/
theorem CrossEntry.bondPoint_eq_some {e : CrossEntry} {p x : Coord} {start : Option Coord} {offset : Int} :
    e.bondPoint p start offset = some x ↔ (e.status = .pending ∧ x = shiftBy p offset)
      ∨ (e.status = .rearmed ∧ ∃ i, start = some i ∧ x = shiftBy i offset) := by
  unfold CrossEntry.bondPoint
  cases e.status <;> simp [eq_comm]

theorem ChangeMark.stop_eq_some {m : ChangeMark} {e : Coord} :
    m.stop = some e ↔ ∃ g, m.length = some g ∧ e = plusMm m.p g := by
  simp [ChangeMark.stop, eq_comm]

/-- R14: a crossing has the point the statement gives it, exactly while it is pending. -/
theorem ChangeMark.point_eq_some {c : List Int} {m : ChangeMark} {e : CrossEntry} {x : Coord} :
    m.point c e = some x ↔ (e.status = .pending ∨ e.status = .rearmed) ∧ isCrossingPoint c m e x := by
  have bond (offset : Int) : e.bondPoint m.p m.stop offset = some x ↔ (e.status = .pending ∨ e.status = .rearmed) ∧
      ((e.status = .pending ∧ x = shiftBy m.p offset)
        ∨ (e.status = .rearmed ∧ ∃ g, m.length = some g ∧ x = shiftBy (plusMm m.p g) offset)) := by
    rw [CrossEntry.bondPoint_eq_some]
    simp only [ChangeMark.stop_eq_some]
    constructor
    · rintro (⟨pending, at_⟩ | ⟨again, i, ⟨g, len, rfl⟩, at_⟩)
      · exact ⟨.inl pending, .inl ⟨pending, at_⟩⟩
      · exact ⟨.inr again, .inr ⟨again, g, len, at_⟩⟩
    · rintro ⟨-, ⟨pending, at_⟩ | ⟨again, g, len, at_⟩⟩
      · exact .inl ⟨pending, at_⟩
      · exact .inr ⟨again, _, ⟨g, len, rfl⟩, at_⟩
  unfold ChangeMark.point isCrossingPoint
  simp only [← CrossEntry.isPending_iff] at *
  cases e.name with
  | ph k => exact bond _
  | glue g => exact bond _
  | freeze => simp [and_assoc, eq_comm (a := x)]
  | decision => simp [eq_comm (a := x)]
  | knife =>
    simp only [Option.ite_none_right_eq_some, Option.map_eq_some_iff, ChangeMark.stop_eq_some]
    refine and_congr_right fun _ => ⟨?_, ?_⟩
    · rintro ⟨_, ⟨g, len, rfl⟩, rfl⟩; exact ⟨g, len, rfl⟩
    · rintro ⟨g, len, rfl⟩; exact ⟨_, ⟨g, len, rfl⟩, rfl⟩

/-- R14: the point of a JOINT mark's crossing, at its glue units alone. -/
theorem JointMark.point_eq_some {c : List Int} {m : JointMark} {e : CrossEntry} {x : Coord} :
    m.point c e = some x ↔ e.status = .pending ∧ ∃ g, e.name = .glue g ∧ x = shiftBy m.joint (glueOffset c g) := by
  unfold JointMark.point
  cases e.name <;> simp [CrossEntry.bondPoint_eq_some]

theorem mem_firing_change {s : State} {m : ChangeMark} {c : Cross} : c ∈ s.firing (.change m) ↔
    ∃ e ∈ m.crossings, e.name = c ∧ (e.status = .pending ∨ e.status = .rearmed)
      ∧ ∃ x, isCrossingPoint s.config m e x ∧ atOrAfter s.odometer x = true := by
  simp only [mem_firing, Mark.points, List.mem_map, Prod.mk.injEq, ChangeMark.point_eq_some]
  constructor
  · rintro ⟨x, ⟨e, mem, name, pending, point⟩, now⟩; exact ⟨e, mem, name, pending, x, point, now⟩
  · rintro ⟨e, mem, name, pending, x, point, now⟩; exact ⟨x, ⟨e, mem, name, pending, point⟩, now⟩

theorem mem_firing_joint {s : State} {m : JointMark} {c : Cross} : c ∈ s.firing (.joint m) ↔
    ∃ e ∈ m.crossings, e.name = c ∧ e.status = .pending
      ∧ ∃ g, c = .glue g ∧ atOrAfter s.odometer (shiftBy m.joint (glueOffset s.config g)) = true := by
  simp only [mem_firing, Mark.points, List.mem_map, Prod.mk.injEq, JointMark.point_eq_some]
  constructor
  · rintro ⟨_, ⟨e, mem, name, pending, g, unit, rfl⟩, now⟩; exact ⟨e, mem, name, pending, g, name ▸ unit, now⟩
  · rintro ⟨e, mem, name, pending, g, unit, now⟩; exact ⟨_, ⟨e, mem, name, pending, g, name ▸ unit, rfl⟩, now⟩

/-! ### Crossings without an incoming order, and the closing (R15, R16) -/

/-- R15: a bond or decision crossing without an incoming order is done without a call. -/
theorem fireChange_silent {s : State} {m : ChangeMark} {c : Cross} (none : m.incoming = none) (f : c ≠ .freeze)
    (k : c ≠ .knife) : s.fireChange m c = s.updateChange m.uid fun x => x.setCross c .silent := by
  cases c <;> simp_all [State.fireChange]

theorem rearm_of_not_silent {e : CrossEntry} (h : e.status ≠ .silent) : rearm e = e := by
  unfold rearm
  split <;> simp_all

/-- Settles O26. -/
theorem crossingsFireAtTheirPoints : Obligations.CrossingsFireAtTheirPoints := by
  intro s
  refine ⟨fun m c => mem_firing_change, fun m c => mem_firing_joint, fun _ => rfl, fun _ => rfl, fun u c => ?_,
    fun m c sole found none f k => ?_, fun m n g start e mem => ⟨fun h => ?_, fun h unit => ?_, fun h => ⟨?_, ?_⟩⟩⟩
  · rw [mem_countEvents_fire, advanced_marks]
  · obtain ⟨x, mem, uid, fires⟩ := mem_countEvents_fire.mp (soleEvent_mem sole)
    rw [advanced_marks] at mem
    obtain ⟨-, keyed, -⟩ := id sole
    obtain rfl : x = .change m := keyed.eq mem (findMark_mem found).1 uid
    rw [exec_forwardCount_sole sole, State.countEvent, advanced_findMark, found]
    simp only [List.contains_iff_mem.mpr fires, if_true, State.fire, fireChange_silent none f k]
  · exact List.mem_map.mpr ⟨e, mem, rearm_of_not_silent h⟩
  · refine List.mem_map.mpr ⟨e, mem, ?_⟩
    obtain ⟨name, status⟩ := e
    rcases unit with ⟨_, rfl⟩ | ⟨_, rfl⟩ <;> (cases h; rfl)
  · exact List.mem_map.mpr ⟨e, mem, by rw [h]; rfl⟩
  · exact if_pos (List.contains_iff_mem.mpr (h ▸ mem))

/-! ### Retirement and re-base (R18, R19, R73) -/

theorem retires_iff {s : State} {m : Mark} : s.retires m = true ↔
    ∃ e, m.stop = some e ∧ atOrAfter s.odometer (plusMm (shiftBy e (knOffset s.config)) 9000) = true := by
  unfold State.retires
  cases m.stop <;> simp [reached, Config.knifeClearance]

theorem rebaseDue_iff {s : State} {m : ChangeMark} : s.rebaseDue m = true ↔
    m.state = .runOut ∧ ∃ o, m.outgoing = some o ∧ atOrAfter s.odometer (plusMm o.start 1073741824) = true := by
  unfold State.rebaseDue
  cases m.outgoing <;> simp [reached, rebaseAfter]

/-- R73: a rebase of the count touches the planner alone. -/
theorem countRebase_frame (s : State) (a b : Coord) :
    s.countRebase a b = { s with planner := (s.countRebase a b).planner } := by
  unfold State.countRebase
  repeat' split
  all_goals rfl

theorem retire_frame (s : State) (m : Mark) :
    s.retire m = { s with marks := s.marks.filter (·.uid != m.uid), planner := (s.retire m).planner } := by
  unfold State.retire
  split
  · rw [countRebase_frame]; rfl
  · rfl

/-- R73: without a cull zone or a provisional mark the planner stays. -/
theorem retire_planner_stays {s : State} {m : Mark} (h : m.cullZone = none ∨ s.provisional = none) :
    (s.retire m).planner = s.planner := by
  unfold State.retire
  split
  · next a b zone =>
    have none : s.provisional = none := h.resolve_left (by simp [zone])
    simp [State.countRebase, none]
  · rfl

/-- R73: what a retiring cull zone does to the count of the provisional mark. -/
theorem retire_planner {s : State} {m : Mark} {a b : Coord} {pr : Provisional} {pm : ChangeMark} {o : Outgoing}
    (zone : m.cullZone = some (a, b)) (prov : s.provisional = some (pr, pm)) (out : pm.outgoing = some o) :
    (s.retire m).planner = if overlaps pr.base pm.p a b then
      some { pr with
        base := plusMm o.start (stepsTo o.start b o.cutLength * o.cutLength)
        count := pr.count - countCuts s.cullZones o.cutLength (fun _ => true)
          (cutsIn pr.base (plusMm o.start (stepsTo o.start b o.cutLength * o.cutLength)) o.cutLength) pr.base }
      else s.planner := by
  simp only [State.retire, zone, State.dropMark_planner, State.countRebase, prov, out]
  split <;> rfl

theorem advanced_provisional (s : State) : (advanced s).provisional = s.provisional := by
  simp only [State.provisional, advanced_planner, advanced_findChange]

theorem advanced_cullZones (s : State) : (advanced s).cullZones = s.cullZones := by
  simp only [State.cullZones, advanced_marks]

theorem mem_insertMark {odo : Coord} {m x : Mark} {l : List Mark} : x ∈ insertMark odo m l ↔ x = m ∨ x ∈ l := by
  induction l with
  | nil => simp [insertMark]
  | cons y ys ih =>
    simp only [insertMark]
    split
    · simp
    · simp only [List.mem_cons, ih]; tauto

/-- R13: a CHANGE mark takes its new place in a table that keeps its length. -/
theorem replaceChange_length {s : State} {c : ChangeMark} (h : s.hasMark c.uid) :
    (s.replaceChange c).marks.length = s.marks.length := by
  obtain ⟨x, hx, e⟩ := h
  have := List.length_pos_of_mem hx
  simp only [State.replaceChange, State.placeMark, insertMark_length, List.length_eraseP_of_mem hx e]
  omega

theorem replaceChange_frame (s : State) (c : ChangeMark) :
    s.replaceChange c = { s with marks := (s.replaceChange c).marks } := rfl

theorem mem_replaceChange_self (s : State) (c : ChangeMark) : Mark.change c ∈ (s.replaceChange c).marks :=
  mem_insertMark.mpr (.inl rfl)

/-- R19: the re-base of a run-out mark with its outgoing segment. -/
theorem rebase_eq {s : State} {m : ChangeMark} {o : Outgoing} (out : m.outgoing = some o) :
    s.rebase m = s.replaceChange { m with
      p := plusMm m.p (stepsTo m.p (s.odometer - 536870912#32) o.cutLength * o.cutLength)
      outgoing := some { o with
        start := plusMm m.p (stepsTo m.p (s.odometer - 536870912#32) o.cutLength * o.cutLength) } } := by
  have behind : shiftBy s.odometer (-(rebaseBehind : Int)) = s.odometer - 536870912#32 := by
    rw [BitVec.sub_eq_add_neg]; rfl
  simp only [State.rebase, out, behind]

/-- Settles O28. -/
theorem marksRetireAndRebase : Obligations.MarksRetireAndRebase := by
  intro s
  refine ⟨fun u => ?_, fun m sole found => ?_, fun u => ?_, fun m o sole found out => ?_⟩
  · simp only [mem_countEvents_retire, retires_iff, advanced_marks, advanced_odometer, advanced_config]
  · obtain ⟨x, mem, uid, due⟩ := mem_countEvents_retire.mp (soleEvent_mem sole)
    rw [advanced_marks] at mem
    obtain ⟨-, keyed, -⟩ := id sole
    obtain rfl : x = m := keyed.eq mem (findMark_mem found).1 uid
    refine ⟨(advanced s).retire x, ?_, ?_, fun stays => ?_, fun a b pr pm o zone prov out => ?_⟩
    · rw [exec_forwardCount_sole sole, State.countEvent, advanced_findMark, found]
      simp only [due, if_true]
    · rw [retire_frame, advanced_marks]
    · rw [retire_planner_stays (by rwa [advanced_provisional]), advanced_planner]
    · rw [retire_planner zone (by rwa [advanced_provisional]) out, advanced_cullZones, advanced_planner]
      exact ⟨fun apart => if_neg (by simp [apart]), fun meet => if_pos meet⟩
  · simp only [mem_countEvents_rebase, rebaseDue_iff, advanced_changes, advanced_odometer]
  · obtain ⟨x, mem, uid, due⟩ := mem_countEvents_rebase.mp (soleEvent_mem sole)
    rw [advanced_changes, mem_changes] at mem
    obtain ⟨-, keyed, -⟩ := id sole
    obtain ⟨-⟩ : Mark.change x = .change m := keyed.eq mem (findMark_mem found).1 uid
    have run : exec .forwardCount s = .next ((advanced s).rebase m) := by
      rw [exec_forwardCount_sole sole, State.countEvent, advanced_findChange, keyed.findChange mem]
      simp only [due, if_true]
    rw [rebase_eq out, advanced_odometer] at run
    refine ⟨_, run, replaceChange_frame _ _, ?_, mem_replaceChange_self _ _⟩
    rw [replaceChange_length ⟨_, by rwa [advanced_marks], by simp [Mark.isChangeOf]⟩, advanced_marks]

end Sys2Proof.Machine
end

section
/-! PROOF. The walk over clean cuts (R60, R64), the cull granted to the span planner (R72) and PLACE CULL (O23). -/

namespace Sys2Proof.Machine

open Sys2Proof

/-! ### The walk over the cuts -/

theorem plusMm_plusMm (c : Coord) (a b : Nat) : plusMm (plusMm c a) b = plusMm c (a + b) := by
  simp only [plusMm, BitVec.ofNat_add, BitVec.add_assoc]

/-- The j-th cut from the end of the first one is the cut after the j-th. -/
theorem plusMm_nextCut (c : Coord) (len j : Nat) : plusMm (plusMm c len) (j * len) = plusMm c ((j + 1) * len) := by
  rw [plusMm_plusMm, Nat.succ_mul, Nat.add_comm]

theorem plusMm_zero (c : Coord) : plusMm c 0 = c := BitVec.add_zero c

/-- Where the k-th cut is clean, k cuts hold a clean one. -/
theorem countCuts_pos {zones : List (Coord × Coord)} {len : Nat} : ∀ (k : Nat) (c : Coord),
    cleanCut zones (plusMm c (k * len)) (plusMm c ((k + 1) * len)) = true →
    0 < countCuts zones len (fun _ => true) (k + 1) c
  | 0, c, h => by
    rw [Nat.zero_mul, plusMm_zero, Nat.zero_add, Nat.one_mul] at h
    simp [countCuts, h]
  | k + 1, c, h => by
    have later := countCuts_pos (zones := zones) k (plusMm c len) (by rw [plusMm_nextCut, plusMm_nextCut]; exact h)
    rw [countCuts]
    omega

/-- R64: the walk ends at the k-th cut where that is the n-th clean one. -/
theorem cleanEndFrom_eq {zones : List (Coord × Coord)} {len : Nat} : ∀ (k fuel n : Nat) (c : Coord), k < fuel →
    countCuts zones len (fun _ => true) (k + 1) c = n →
    cleanCut zones (plusMm c (k * len)) (plusMm c ((k + 1) * len)) = true →
    cleanEndFrom zones len fuel n c = plusMm c ((k + 1) * len)
  | k, 0, _, _, fuel, _, _ => absurd fuel (Nat.not_lt_zero k)
  | 0, fuel + 1, n, c, _, count, clean => by
    rw [Nat.zero_mul, plusMm_zero, Nat.zero_add, Nat.one_mul] at clean
    obtain rfl : 1 = n := by simpa [countCuts, clean] using count
    rw [cleanEndFrom, if_pos clean, Nat.zero_add, Nat.one_mul]
    cases fuel <;> rfl
  | k + 1, fuel + 1, n, c, lt, count, clean => by
    have rest : cleanCut zones (plusMm (plusMm c len) (k * len)) (plusMm (plusMm c len) ((k + 1) * len)) = true := by
      rw [plusMm_nextCut, plusMm_nextCut]; exact clean
    have pos := countCuts_pos k _ rest
    have walk (m : Nat) (h : countCuts zones len (fun _ => true) (k + 1) (plusMm c len) = m) :=
      cleanEndFrom_eq k fuel m _ (Nat.lt_of_succ_lt_succ lt) h rest
    rw [countCuts] at count
    by_cases first : cleanCut zones c (plusMm c len) = true
    · simp only [first, Bool.and_true, if_true] at count
      obtain ⟨m, rfl⟩ : ∃ m, n = m + 1 := ⟨n - 1, by omega⟩
      rw [cleanEndFrom, if_pos first, walk m (by omega), plusMm_nextCut]
    · simp only [first, Bool.false_and, if_false, Bool.false_eq_true] at count
      obtain ⟨m, rfl⟩ : ∃ m, n = m + 1 := ⟨n - 1, by omega⟩
      rw [cleanEndFrom, if_neg first, walk (m + 1) (by omega), plusMm_nextCut]

/-- R60: without a cull zone every cut is clean. -/
theorem cleanEndFrom_nil (len : Nat) : ∀ (n : Nat) (c : Coord), cleanEndFrom [] len n n c = plusMm c (n * len)
  | 0, c => by rw [Nat.zero_mul, plusMm_zero]; rfl
  | n + 1, c => by
    rw [cleanEndFrom, if_pos (by rfl), cleanEndFrom_nil, plusMm_plusMm, Nat.succ_mul, Nat.add_comm]

/-- R64: the end that the model walks to is the end of the span. -/
theorem endsSpan_cleanEnd {s : State} {zones : List (Coord × Coord)} (h : s.cullZones = zones) (len n : Nat)
    (c : Coord) : EndsSpan s len n c (cleanEnd zones len n c) := by
  subst h
  refine ⟨fun none => ?_, fun k pos bound count clean => ?_⟩
  · rw [none, cleanEnd, dirtyBound]; exact cleanEndFrom_nil len n c
  · obtain ⟨j, rfl⟩ : ∃ j, k = j + 1 := ⟨k - 1, by omega⟩
    exact cleanEndFrom_eq j _ n c (by omega) count clean

/-! ### Marks that are placed and moved -/

/-- A cull mark placed in the table leaves the CHANGE marks as they were. -/
theorem insertMark_changes (odo : Coord) {m : Mark} (h : m.asChange = none) (l : List Mark) :
    (insertMark odo m l).filterMap Mark.asChange = l.filterMap Mark.asChange := by
  induction l with
  | nil => simp [insertMark, h]
  | cons x xs ih =>
    simp only [insertMark]
    split
    · simp [h]
    · simp [List.filterMap_cons, ih]

/-- A CHANGE mark has no cull zone, so placing one leaves the cull zones as they were. -/
theorem insertMark_cullZones (odo : Coord) (c : ChangeMark) (l : List Mark) :
    (insertMark odo (.change c) l).filterMap Mark.cullZone = l.filterMap Mark.cullZone := by
  induction l with
  | nil => rfl
  | cons x xs ih =>
    simp only [insertMark]
    split
    · rfl
    · simp [List.filterMap_cons, ih]

theorem eraseP_cullZones (u : Nat) (l : List Mark) :
    (l.eraseP (Mark.isChangeOf u)).filterMap Mark.cullZone = l.filterMap Mark.cullZone := by
  induction l with
  | nil => rfl
  | cons x xs ih =>
    by_cases e : x.isChangeOf u = true
    · rw [List.eraseP_cons_of_pos e]
      cases x <;> first | rfl | simp [Mark.isChangeOf] at e
    · rw [List.eraseP_cons_of_neg e]
      simp [List.filterMap_cons, ih]

theorem replaceChange_cullZones (s : State) (c : ChangeMark) : (s.replaceChange c).cullZones = s.cullZones := by
  simp only [State.cullZones, State.replaceChange, State.placeMark, insertMark_cullZones, eraseP_cullZones]

/-- The mark that findChange finds is the one that a replacement takes out of the table. -/
theorem find_isChangeOf {s : State} {u : Nat} {m : ChangeMark} (h : s.findChange u = some m) :
    s.marks.find? (Mark.isChangeOf u) = some (.change m) := by
  have same : (fun x : Mark => x.asChange.any fun c => c.uid == u) = Mark.isChangeOf u := by
    funext x; cases x <;> rfl
  rw [State.findChange, State.changes, List.find?_filterMap, same] at h
  obtain ⟨x, found, e⟩ := Option.bind_eq_some_iff.mp h
  cases x <;> simp [Mark.asChange] at e
  rw [found, e]

/-- R13: a replacement takes the mark named out of the table and no other. -/
theorem mem_replaceChange_of_ne {s : State} {m c : ChangeMark} {x : Mark} (found : s.findChange c.uid = some m)
    (hx : x ∈ s.marks) (ne : x ≠ .change m) : x ∈ (s.replaceChange c).marks := by
  refine mem_insertMark.mpr (.inr ?_)
  obtain ⟨y, before, after, none, is, eq, erased⟩ :=
    List.exists_of_eraseP (findChange_mem found).1 (p := Mark.isChangeOf c.uid)
      (by simp [Mark.isChangeOf, (findChange_mem found).2])
  have first : y = .change m := by
    have := find_isChangeOf found
    rw [eq, List.find?_append, List.find?_eq_none.mpr (by simpa using none), Option.none_or,
      List.find?_cons_of_pos is] at this
    exact Option.some.inj this
  rw [erased]
  rw [eq, first] at hx
  simp only [List.mem_append, List.mem_cons, ne, false_or] at hx ⊢
  exact hx

theorem provisional_findChange {s : State} {pr : Provisional} {m : ChangeMark} (h : s.provisional = some (pr, m)) :
    s.findChange m.uid = some m := by
  unfold State.provisional at h
  split at h
  · cases h
  · simp only [Option.map_eq_some_iff, Prod.mk.injEq] at h
    obtain ⟨x, found, -, rfl⟩ := h
    rwa [(findChange_mem found).2]

/-! ### The recompute of a provisional end (R59, R72) -/

theorem moveEnd_marks (s : State) (m : ChangeMark) (p : Coord) : (s.moveEnd m p).marks =
    if p = m.p then s.marks else (s.replaceChange { m with p := p, xEx := p }).marks := by
  rw [State.moveEnd, (State.recheckAll_frame _).marks]
  split <;> rfl

/-- R108: beside the mark, a recompute changes what the repeated reel checks do. -/
theorem moveEnd_frame (s : State) (m : ChangeMark) (p : Coord) :
    SpliceFrame { s with marks := (s.moveEnd m p).marks } (s.moveEnd m p) := by
  rw [moveEnd_marks, State.moveEnd]
  split
  · exact State.recheckAll_frame s
  · exact State.recheckAll_frame _

theorem moveEnd_cullZones (s : State) (m : ChangeMark) (p : Coord) : (s.moveEnd m p).cullZones = s.cullZones := by
  rw [State.cullZones, moveEnd_marks]
  split
  · rfl
  · exact replaceChange_cullZones s _

theorem moveEnd_length {s : State} {m : ChangeMark} (h : s.hasMark m.uid) (p : Coord) :
    (s.moveEnd m p).marks.length = s.marks.length := by
  rw [moveEnd_marks]
  split
  · rfl
  · exact replaceChange_length h

theorem mem_moveEnd_of_ne {s : State} {m : ChangeMark} {p : Coord} {x : Mark} (found : s.findChange m.uid = some m)
    (hx : x ∈ s.marks) (ne : x ≠ .change m) : x ∈ (s.moveEnd m p).marks := by
  rw [moveEnd_marks]
  split
  · exact hx
  · exact mem_replaceChange_of_ne (c := { m with p := p, xEx := p }) found hx ne

theorem mem_moveEnd_self {s : State} {m : ChangeMark} {p : Coord} (found : s.findChange m.uid = some m) :
    Mark.change (if p = m.p then m else { m with p := p, xEx := p }) ∈ (s.moveEnd m p).marks := by
  rw [moveEnd_marks]
  split
  · exact (findChange_mem found).1
  · exact mem_replaceChange_self s _

/-- R72: the zone [a, b) overlaps the segment of a provisional mark that is not pinned. -/
def ChangeMark.culledBy (m : ChangeMark) (o : Outgoing) (a b : Coord) : Prop :=
  m.pinned = false ∧ overlaps o.start m.p a b = true

theorem cullGranted_of_culls {s : State} {a b : Coord} {pr : Provisional} {m : ChangeMark} {o : Outgoing}
    (prov : s.provisional = some (pr, m)) (out : m.outgoing = some o) (h : m.culledBy o a b) :
    s.cullGranted a b = s.moveEnd m (laterOf (cleanEnd s.cullZones o.cutLength pr.count pr.base) m.p) := by
  obtain ⟨free, meet⟩ := h
  simp [State.cullGranted, prov, out, free, meet, State.recomputeEnd]

/-- R72: a granted cull moves the end of the provisional mark whose segment it overlaps, or changes nothing. -/
theorem cullGranted_cases (s : State) (a b : Coord) :
    (∃ pr m o, s.provisional = some (pr, m) ∧ m.outgoing = some o ∧ m.culledBy o a b)
      ∨ (s.cullGranted a b = s
          ∧ ∀ pr m o, s.provisional = some (pr, m) → m.outgoing = some o → ¬ m.culledBy o a b) := by
  cases prov : s.provisional with
  | none => exact .inr ⟨by simp [State.cullGranted, prov], nofun⟩
  | some x =>
    obtain ⟨pr, m⟩ := x
    cases out : m.outgoing with
    | none =>
      refine .inr ⟨by simp [State.cullGranted, prov, out], ?_⟩
      rintro _ _ _ ⟨⟩ e
      rw [out] at e; cases e
    | some o =>
      by_cases h : m.culledBy o a b
      · exact .inl ⟨pr, m, o, rfl, out, h⟩
      · refine .inr ⟨?_, ?_⟩
        · have : ¬ ((!m.pinned && overlaps o.start m.p a b) = true) := by
            simpa [ChangeMark.culledBy] using h
          simp only [State.cullGranted, prov, out, if_neg this]
        · rintro _ _ _ ⟨⟩ e
          rw [out] at e
          cases e
          exact h

/-! ### A cull mark placed in the table -/

section Placed

variable {s : State} {h : Mark} (cull : h.asChange = none)
include cull

theorem placeMark_changes : (s.placeMark h).changes = s.changes := insertMark_changes _ cull _

theorem placeMark_findChange (u : Nat) : (s.placeMark h).findChange u = s.findChange u := by
  rw [State.findChange, placeMark_changes cull]; rfl

theorem placeMark_provisional : (s.placeMark h).provisional = s.provisional := by
  simp only [State.provisional, State.placeMark_planner, placeMark_findChange cull]

end Placed

theorem mem_placeMark {s : State} {m x : Mark} : x ∈ (s.placeMark m).marks ↔ x = m ∨ x ∈ s.marks := mem_insertMark

/-- R72, R12: what a granted cull does to the table, whose marks but the provisional one stay. -/
theorem cullGranted_marks {s : State} (a b : Coord) :
    (s.cullGranted a b).marks.length = s.marks.length
      ∧ (∀ x ∈ s.marks, x.asChange = none → x ∈ (s.cullGranted a b).marks)
      ∧ SpliceFrame { s with marks := (s.cullGranted a b).marks } (s.cullGranted a b) := by
  rcases cullGranted_cases s a b with ⟨pr, m, o, prov, out, h⟩ | ⟨same, -⟩
  · have found := provisional_findChange prov
    rw [cullGranted_of_culls prov out h]
    refine ⟨moveEnd_length (provisional_hasMark prov) _, fun x hx none => mem_moveEnd_of_ne found hx ?_,
      moveEnd_frame _ _ _⟩
    rintro rfl
    cases none
  · rw [same]
    exact ⟨rfl, fun _ hx _ => hx, SpliceFrame.refl s⟩

theorem cullGranted_planner (s : State) (a b : Coord) : (s.cullGranted a b).planner = s.planner := by
  obtain ⟨-, -, frame⟩ := cullGranted_marks (s := s) a b
  rw [frame.planner]

/-- R72: a cull mark placed in the table counts as the statements say. -/
theorem cullCounted_placeMark {s : State} {h : Mark} (cull : h.asChange = none) (a b : Coord) :
    CullCounted s ((s.placeMark h).cullGranted a b) a b := by
  have prov := placeMark_provisional (s := s) cull
  refine ⟨cullGranted_planner _ a b, fun pr m o e out => ⟨fun free meet => ?_, fun apart x hx => ?_⟩, fun none x hx => ?_⟩
  · have e' := prov.trans e
    have found := provisional_findChange e'
    rw [cullGranted_of_culls e' out ⟨free, meet⟩]
    exact ⟨_, endsSpan_cleanEnd (moveEnd_cullZones _ _ _) _ _ _, mem_moveEnd_self found,
      fun x hx ne => mem_moveEnd_of_ne found (mem_placeMark.mpr (.inr hx)) ne⟩
  · rcases cullGranted_cases (s.placeMark h) a b with ⟨pr', m', o', e', out', free, meet⟩ | ⟨same, -⟩
    · cases (prov.trans e).symm.trans e'
      cases out.symm.trans out'
      rcases apart with pinned | apart
      · rw [free] at pinned; cases pinned
      · rw [meet] at apart; cases apart
    · rw [same]; exact mem_placeMark.mpr (.inr hx)
  · rcases cullGranted_cases (s.placeMark h) a b with ⟨pr', m', o', e', -⟩ | ⟨same, -⟩
    · rw [prov, State.provisional, none] at e'; cases e'
    · rw [same]; exact mem_placeMark.mpr (.inr hx)

/-- R20: the state that a PLACE CULL leaves where it passes its tests. -/
def cullPlaced (b : List Byte) (s : State) : State :=
  (s.bumpSerial.placeMark (.host ⟨s.serial, coordField b 0, field b 4 4⟩)).cullGranted (coordField b 0)
    (plusMm (coordField b 0) (field b 4 4))

theorem cullPlaced_length (b : List Byte) (s : State) : (cullPlaced b s).marks.length = s.marks.length + 1 := by
  obtain ⟨kept, -, -⟩ := cullGranted_marks (s := s.bumpSerial.placeMark (.host ⟨s.serial, coordField b 0, field b 4 4⟩))
    (coordField b 0) (plusMm (coordField b 0) (field b 4 4))
  exact kept.trans (insertMark_length _ _ _)

theorem answerPlaceCull_passed {b : List Byte} {s : State} (len : b.length = 8) (pos : 1 ≤ field b 4 4)
    (long : field b 4 4 ≤ 100000) (ok : sdist s.odometer (coordField b 0) ≠ -2147483648)
    (ahead : sdist s.odometer (plusMm (coordField b 0) (field b 4 4)) ≤ 1073741824)
    (notYet : reached (shiftBy s.odometer (-(knOffset s.config))) (coordField b 0) = false)
    (room : s.marks.length ≤ 40) :
    answerPlaceCull b s = done (cullPlaced b s) (byteOf (47 - s.marks.length)) := by
  have full : ¬ s.freeMarks < Config.hostReserve := by
    simp only [State.freeMarks, Config.markSlots, Config.hostReserve]; omega
  have range : inRange 1 100000 (field b 4 4) = true := by simp [inRange, pos, long]
  have here : s.coordOk (coordField b 0) = true := by simpa [State.coordOk] using ok
  have free : (cullPlaced b s).freeMarks = 47 - s.marks.length := by
    simp only [State.freeMarks, cullPlaced_length, Config.markSlots]; omega
  simp only [answerPlaceCull, refuseIf, len, range, here, knifeCoord, notYet, full, not_lt.mpr ahead, decide_false,
    bne_self_eq_false, Bool.not_true, Bool.false_eq_true, if_false]
  rw [← free]
  rfl

/-- Settles O23. -/
theorem placeCullPlacesAHostMark : Obligations.PlaceCullPlacesAHostMark := by
  intro b s len pos long ok ahead notYet room
  obtain ⟨-, stays, frame⟩ := cullGranted_marks
    (s := s.bumpSerial.placeMark (.host ⟨s.serial, coordField b 0, field b 4 4⟩)) (coordField b 0)
    (plusMm (coordField b 0) (field b 4 4))
  refine ⟨cullPlaced b s, s.serial, ?_, cullPlaced_length b s, stays _ (mem_placeMark.mpr (.inl rfl)) rfl,
    fun m hm none => stays _ (mem_placeMark.mpr (.inr hm)) none, cullCounted_placeMark (s := s.bumpSerial) rfl _ _,
    SpliceFrame.trans (s := { s with marks := (cullPlaced b s).marks })
      (t := { s.bumpSerial with marks := (cullPlaced b s).marks }) rfl frame⟩
  change Host.Outcome.next (answered 0x28 s (answerPlaceCull b s)) = _
  rw [answerPlaceCull_passed len pos long ok ahead notYet room]
  rfl

end Sys2Proof.Machine
end

section
/-! PROOF. Numbers written as bytes and read back at an offset (R192): the facts with which the layouts are proved. -/

namespace Sys2Proof.Machine

open Sys2Proof

/-! ### Big-endian numbers -/

@[simp] theorem bytesOf_length (n v : Nat) : (bytesOf n v).length = n := by simp [bytesOf]
@[simp] theorem byteOf_length (v : Nat) : (byteOf v).length = 1 := rfl
@[simp] theorem coordBytes_length (c : Coord) : (coordBytes c).length = 4 := bytesOf_length _ _
@[simp] theorem boolByte_length (b : Bool) : (boolByte b).length = 1 := rfl
@[simp] theorem codeByte_length (t : Config.CodeTable) (i : Nat) : (codeByte t i).length = 1 := rfl

theorem byteOf_eq (v : Nat) : byteOf v = [BitVec.ofNat 8 v] := by simp [byteOf, bytesOf]

@[simp] theorem boolByte_eq (b : Bool) : boolByte b = [if b then 1#8 else 0#8] := by cases b <;> rfl

theorem bytesOf_succ (n v : Nat) : bytesOf (n + 1) v = BitVec.ofNat 8 (v / 256 ^ n) :: bytesOf n v := by
  simp only [bytesOf, List.range_succ_eq_map, List.map_cons, List.map_map]
  congr 1
  refine List.map_congr_left fun i _ => ?_
  have place : n + 1 - 1 - (i + 1) = n - 1 - i := by omega
  simp only [Function.comp, Nat.succ_eq_add_one, place]

theorem bigEndian_foldl (bs : List Byte) (a : Nat) :
    bs.foldl (fun a b => a * 256 + b.toNat) a = a * 256 ^ bs.length + bigEndian bs := by
  induction bs generalizing a with
  | nil => simp [bigEndian]
  | cons b bs ih =>
    rw [bigEndian, List.foldl_cons, List.foldl_cons, ih, ih (0 * 256 + b.toNat), List.length_cons, pow_succ]
    ring

@[simp] theorem bigEndian_nil : bigEndian [] = 0 := rfl

theorem bigEndian_cons (b : Byte) (bs : List Byte) : bigEndian (b :: bs) = b.toNat * 256 ^ bs.length + bigEndian bs := by
  rw [bigEndian, List.foldl_cons, bigEndian_foldl, Nat.zero_mul, Nat.zero_add]

theorem bigEndian_append (a b : List Byte) : bigEndian (a ++ b) = bigEndian a * 256 ^ b.length + bigEndian b := by
  rw [bigEndian, List.foldl_append, bigEndian_foldl]; rfl

/-- R192: a number reads back from its bytes, as far as they hold it. -/
@[simp] theorem bigEndian_bytesOf (n v : Nat) : bigEndian (bytesOf n v) = v % 256 ^ n := by
  induction n with
  | zero => simp [bytesOf, Nat.mod_one]
  | succ n ih =>
    rw [bytesOf_succ, bigEndian_cons, ih, bytesOf_length, BitVec.toNat_ofNat, pow_succ 256 n, Nat.mod_mul]
    ring

@[simp] theorem bigEndian_byteOf (v : Nat) : bigEndian (byteOf v) = v % 256 := bigEndian_bytesOf 1 v

@[simp] theorem bigEndian_coordBytes (c : Coord) : bigEndian (coordBytes c) = c.toNat := by
  rw [coordBytes, bigEndian_bytesOf]; exact Nat.mod_eq_of_lt c.isLt

@[simp] theorem bigEndian_zeros (n : Nat) : bigEndian (List.replicate n 0#8) = 0 := by
  induction n with
  | zero => rfl
  | succ n ih => rw [List.replicate_succ, bigEndian_cons, ih]; simp

/-! ### Reading at an offset -/

/-- The bytes before the offset do not count. -/
theorem field_skip {a b : List Byte} {off n : Nat} (h : a.length ≤ off) :
    field (a ++ b) off n = field b (off - a.length) n := by
  rw [field, List.drop_append, List.drop_eq_nil_of_le h, List.nil_append]; rfl

/-- The bytes behind the item do not count. -/
theorem field_left {a b : List Byte} {off n : Nat} (h : off + n ≤ a.length) :
    field (a ++ b) off n = field a off n := by
  rw [field, List.drop_append_of_le_length (by omega), List.take_append_of_le_length (by rw [List.length_drop]; omega)]
  rfl

/-- The item at the offset is the whole list. -/
theorem field_whole {a : List Byte} {n : Nat} (h : a.length ≤ n) : field a 0 n = bigEndian a := by
  rw [field, List.drop_zero, List.take_of_length_le h]

/-- The item at the offset begins the list. -/
theorem field_head {a b : List Byte} {n : Nat} (h : a.length = n) : field (a ++ b) 0 n = bigEndian a := by
  rw [field_left (by omega), field_whole h.le]

/-- Zeros read as 0 wherever they are read. -/
theorem field_zeros (off m n : Nat) : field (List.replicate m 0#8) off n = 0 := by
  rw [field, List.drop_replicate, List.take_replicate, bigEndian_zeros]

theorem coordField_coordBytes {a : List Byte} {off : Nat} {c : Coord} (h : field a off 4 = c.toNat) :
    coordField a off = c := by
  rw [coordField, h, BitVec.ofNat_toNat, BitVec.setWidth_eq]

/-- Entries of one width stand at the multiples of it. -/
theorem drop_flatMap {α : Type} {f : α → List Byte} {w : Nat} (h : ∀ x, (f x).length = w) :
    ∀ (i : Nat) (l : List α), (l.flatMap f).drop (w * i) = (l.drop i).flatMap f
  | 0, l => rfl
  | i + 1, [] => by simp
  | i + 1, x :: xs => by
    rw [List.flatMap_cons, Nat.mul_succ, Nat.add_comm, ← h x, List.drop_append, List.drop_eq_nil_of_le (by omega),
      List.nil_append, Nat.add_sub_cancel_left, h x, drop_flatMap h i xs, List.drop_succ_cons]

theorem length_flatMap_const {α : Type} {f : α → List Byte} {w : Nat} (h : ∀ x, (f x).length = w) (l : List α) :
    (l.flatMap f).length = w * l.length := by
  induction l with
  | nil => rfl
  | cons x xs ih => rw [List.flatMap_cons, List.length_append, h, ih, List.length_cons, Nat.mul_succ, Nat.add_comm]

/-- The i-th of entries of one width reads back. -/
theorem field_flatMap {α : Type} {f : α → List Byte} {w : Nat} (h : ∀ x, (f x).length = w) {l : List α} {i : Nat}
    (hi : i < l.length) : field (l.flatMap f) (w * i) w = bigEndian (f l[i]) := by
  rw [field, drop_flatMap h, List.drop_eq_getElem_cons hi, List.flatMap_cons,
    List.take_append_of_le_length (h _).ge, List.take_of_length_le (h _).le]

end Sys2Proof.Machine
end

section
/-! PROOF. The configuration store: CONFIGURE and READ CONFIG (O55). -/

namespace Sys2Proof.Machine

open Sys2Proof

/-! ### The merged values (R194) -/

/-- R194: an item that no pair names keeps its value. -/
theorem item_merged_other {ps : List ConfigPair} {n : Nat} (h1 : 1 ≤ n) (pos : ∀ p ∈ ps, 1 ≤ p.number)
    (other : ∀ p ∈ ps, p.number ≠ n) (c : List Int) : item (merged c ps) n = item c n := by
  induction ps generalizing c with
  | nil => rfl
  | cons p ps ih =>
    rw [merged_cons, ih (fun q hq => pos q (List.mem_cons_of_mem _ hq)) fun q hq => other q (List.mem_cons_of_mem _ hq)]
    have := other p List.mem_cons_self
    have := pos p List.mem_cons_self
    exact item_set_other (by omega) _

/-- R194: an item named once takes its clamped value. -/
theorem item_merged_named {ps : List ConfigPair} {c : List Int} (len : c.length = 40)
    (range : ∀ p ∈ ps, 1 ≤ p.number ∧ p.number ≤ 40) (nodup : (ps.map (·.number)).Nodup) {p : ConfigPair}
    (hp : p ∈ ps) : item (merged c ps) p.number = p.clamped := by
  induction ps generalizing c with
  | nil => cases hp
  | cons q ps ih =>
    obtain ⟨fresh, nodup⟩ := List.nodup_cons.mp nodup
    have rest (x : ConfigPair) (hx : x ∈ ps) := range x (List.mem_cons_of_mem _ hx)
    rw [merged_cons]
    rcases List.mem_cons.mp hp with rfl | hp
    · obtain ⟨h1, h2⟩ := range p List.mem_cons_self
      rw [item_merged_other h1 (fun x hx => (rest x hx).1) fun x hx e => fresh (List.mem_map.mpr ⟨x, hx, e⟩)]
      exact item_set_same (by omega) h1 _
    · exact ih (by rw [List.length_set, len]) rest nodup hp

theorem clamped_eq_iff {p : ConfigPair} (h1 : 1 ≤ p.number) (h2 : p.number ≤ 40) :
    p.clamped = p.value ↔ (rowOf p.number).lo ≤ p.value ∧ p.value ≤ (rowOf p.number).hi := by
  have := rowOf_ordered h1 h2
  simp only [ConfigPair.clamped, clampTo]; omega

/-- R194: nothing is reported as clamped where every value stands in its range and F at or above its minimum. -/
theorem clampedItems_isEmpty {c : List Int} {ps : List ConfigPair} (range : ∀ p ∈ ps, 1 ≤ p.number ∧ p.number ≤ 40) :
    (clampedItems c ps).isEmpty = true ↔
      (∀ p ∈ ps, (rowOf p.number).lo ≤ p.value ∧ p.value ≤ (rowOf p.number).hi)
        ∧ minFreeze (merged c ps) ≤ item (merged c ps) 21 := by
  have inside : ps.filter (fun p => p.clamped != p.value) = [] ↔
      ∀ p ∈ ps, (rowOf p.number).lo ≤ p.value ∧ p.value ≤ (rowOf p.number).hi := by
    rw [List.filter_eq_nil_iff]
    refine forall₂_congr fun p hp => ?_
    rw [← clamped_eq_iff (range p hp).1 (range p hp).2]
    simp
  rw [← inside, clampedItems]
  by_cases none : ps.filter (fun p => p.clamped != p.value) = []
  · by_cases low : item (merged c ps) 21 < minFreeze (merged c ps)
    · simp [none, low]
    · simp [none, low, not_lt.mp low]
  · split <;> simp [none]

/-! ### CONFIGURE -/

theorem State.onMachine_iff {s : State} :
    s.onMachine = true ↔ (∃ o ∈ s.orders, o.state = .running ∨ o.state = .suspended) ∨ s.marks ≠ [] := by
  simp [State.onMachine]

/-- R194: beside the store, CONFIGURE changes what the LOW_REEL splices of a changed reserve do. -/
theorem configured_frame (s : State) (ps : List ConfigPair) :
    SpliceFrame { s with config := raiseFreeze (merged s.config ps) } (s.configured ps) :=
  (SpliceFrame.refl _).takeEvents fun _ v => (SpliceFrame.refl v).lowReelIfLow

theorem configReply_frame (s : State) (ps : List ConfigPair) :
    SpliceFrame { s with config := raiseFreeze (merged s.config ps) } (configReply s ps).state :=
  SpliceFrame.trans (t := { s with
      config := raiseFreeze (merged s.config ps), draws := s.draws + (clampedItems s.config ps).length }) rfl
    (configured_frame { s with draws := s.draws + (clampedItems s.config ps).length } ps)

theorem configReply_status (s : State) (ps : List ConfigPair) :
    (configReply s ps).status = if (clampedItems s.config ps).isEmpty then .ok else .clamped := rfl

theorem exec_configure (b : List Byte) (s : State) :
    exec (.configure b) s = .next (answered 0x02 s (answerConfigure b s)) := rfl

/-- R194: what a CONFIGURE that passes its tests leaves and answers. -/
theorem configure_stores {s : State} {ps : List ConfigPair} (len : s.config.length = 40)
    (range : ∀ p ∈ ps, 1 ≤ p.number ∧ p.number ≤ 40) (nodup : (ps.map (·.number)).Nodup) :
    let t := (configReply s ps).state
    let st := (configReply s ps).status
    SpliceFrame { s with config := t.config } t
      ∧ t.config.length = 40
      ∧ (∀ p ∈ ps, p.number ≠ 21 →
          item t.config p.number = max (rowOf p.number).lo (min (rowOf p.number).hi p.value))
      ∧ (∀ n, 1 ≤ n → n ≤ 40 → n ≠ 21 → (∀ p ∈ ps, p.number ≠ n) → item t.config n = item s.config n)
      ∧ item t.config 21 = max (item (merged s.config ps) 21) (minFreeze t.config)
      ∧ (st = .ok ∨ st = .clamped)
      ∧ (st = .ok ↔ (∀ p ∈ ps, (rowOf p.number).lo ≤ p.value ∧ p.value ≤ (rowOf p.number).hi)
          ∧ minFreeze t.config ≤ item (merged s.config ps) 21) := by
  have frame := configReply_frame s ps
  have config : (configReply s ps).state.config = raiseFreeze (merged s.config ps) := frame.config
  have len' : (merged s.config ps).length = 40 := by rw [merged_length, len]
  dsimp only
  rw [config]
  refine ⟨frame, by rw [raiseFreeze_length, len'], fun p hp ne => ?_, fun n h1 _ ne other => ?_, ?_, ?_, ?_⟩
  · rw [item_raiseFreeze_other ne, item_merged_named len range nodup hp]; rfl
  · rw [item_raiseFreeze_other ne, item_merged_other h1 (fun p hp => (range p hp).1) other]
  · rw [item_raiseFreeze len', minFreeze_raiseFreeze]
  · rw [configReply_status]; split <;> simp
  · rw [configReply_status, minFreeze_raiseFreeze, ← clampedItems_isEmpty range]
    split <;> simp_all

/-! ### READ CONFIG -/

/-- R193: a value of the store fits in four bytes, signed. -/
theorem toInt_ofInt_of_inRow {n : Nat} {v : Int} (h1 : 1 ≤ n) (h2 : n ≤ 40) (h : InRow n v) :
    (BitVec.ofInt 32 v).toInt = v := by
  have rows : ∀ i < 41, -2147483648 ≤ (rowOf i).lo ∧ (rowOf i).hi ≤ 2000000 := by decide
  obtain ⟨low, high⟩ := rows n (by omega)
  obtain ⟨above, below⟩ := h
  rw [BitVec.toInt_ofInt]
  exact Int.bmod_eq_of_le (by omega) (by omega)

theorem valueBytes_length (v : Int) : (valueBytes v).length = 4 := coordBytes_length _

/-- Settles O55. -/
theorem configurationIsStoredAndRead : Obligations.ConfigurationIsStoredAndRead := by
  refine ⟨fun b s fives some_ few len => ?_, fun s range => ?_⟩
  · have ok : configLengthOk b = true := by simp [configLengthOk, fives, some_, few]
    have answer : answerConfigure b s = refuseIf s.onMachine .state (refuseIf (!itemsOk (configPairs b)) .range
        (refuseIf (!offsetsOrdered (merged s.config (configPairs b))) .range (.ok (configReply s (configPairs b))))) := by
      rw [answerConfigure, ok]; rfl
    dsimp only
    rw [exec_configure, answer, ← State.onMachine_iff, ← itemsOk_iff]
    refine ⟨fun busy => ?_, fun free bad => ?_, fun free named ordered => ?_⟩
    · rw [busy]; rfl
    · rw [Bool.not_eq_true] at free bad
      rw [free]
      rcases bad with bad | bad
      · rw [bad]; rfl
      · rw [bad]
        cases itemsOk (configPairs b) <;> rfl
    · obtain ⟨numbers, nodup⟩ := itemsOk_iff.mp named
      rw [Bool.not_eq_true] at free
      refine ⟨_, _, (configReply s (configPairs b)).body, ?_, configure_stores len numbers nodup⟩
      rw [free, named, ordered]
      rfl
  · obtain ⟨len, rows, -⟩ := configInRange_iff.mp range
    refine ⟨s.config.flatMap valueBytes, rfl, ?_, fun n h1 h2 => ?_⟩
    · rw [length_flatMap_const valueBytes_length, len]
    · have lt : n - 1 < s.config.length := by omega
      have here : item s.config n = s.config[n - 1] := by
        rw [item, List.getD_eq_getElem?_getD, List.getElem?_eq_getElem lt]; rfl
      rw [signedField, coordField_coordBytes (c := BitVec.ofInt 32 s.config[n - 1]), ← here,
        toInt_ofInt_of_inRow h1 h2 (rows n h1 h2)]
      rw [field_flatMap valueBytes_length lt, valueBytes, bigEndian_coordBytes]

end Sys2Proof.Machine
end

section
/-! PROOF. NULL and the thirteen reads (O6). -/

namespace Sys2Proof.Machine

open Sys2Proof

@[simp] theorem refuseIf_false (st : Status) (a : Answer) : refuseIf false st a = a := rfl
@[simp] theorem refuseIf_true (st : Status) (a : Answer) : refuseIf true st a = .error st := rfl

theorem answered_done (k : Nat) (s : State) (b : List Byte) :
    answered k s (done s b) = s.respond (BitVec.ofNat 8 k) .ok b := rfl

/-- R43: the head of the run sequence carries its rush flag. -/
theorem headRush_iff {s : State} :
    s.headRush = true ↔ ∃ h o, s.runSeq.head? = some h ∧ s.findOrder h = some o ∧ o.rush = true := by
  unfold State.headRush
  cases s.runSeq.head? with
  | none => simp
  | some h => simp [Option.any_eq_true]

/-! ### The grade above a number (R53) -/

/-- R53: of two entries the one with the lower number. -/
def lowerGrade (best : Option Grade) (g : Grade) : Option Grade :=
  match best with
  | none => some g
  | some b => if g.fields.number < b.fields.number then some g else some b

theorem gradeAbove_eq (s : State) (n : Nat) :
    s.gradeAbove n = (s.grades.filter fun g => n < g.fields.number).foldl lowerGrade none := rfl

/-- The entry whose number lies below that of every other is the one found, wherever it stands. -/
theorem foldl_lowerGrade {g : Grade} : ∀ (l : List Grade) (best : Option Grade),
    (∀ h ∈ l, h ≠ g → g.fields.number < h.fields.number) →
    (best = some g ∨ g ∈ l ∧ ∀ b, best = some b → g.fields.number < b.fields.number) →
    l.foldl lowerGrade best = some g
  | [], best, _, start => start.resolve_right (by simp)
  | x :: xs, best, least, start => by
    rw [List.foldl_cons]
    refine foldl_lowerGrade xs _ (fun h hh => least h (List.mem_cons_of_mem _ hh)) ?_
    by_cases e : x = g
    · subst e
      left
      rcases start with rfl | ⟨-, above⟩
      · simp [lowerGrade]
      · cases best with
        | none => rfl
        | some b => simp [lowerGrade, above b rfl]
    · have later := least x List.mem_cons_self e
      rcases start with rfl | ⟨mem, above⟩
      · left; simp [lowerGrade, later.le]
      · refine .inr ⟨List.mem_of_ne_of_mem (Ne.symm e) mem, fun b found => ?_⟩
        cases best with
        | none => cases found; exact later
        | some c =>
          simp only [lowerGrade] at found
          split at found
          · cases found; exact later
          · cases found; exact above _ rfl

theorem gradeAbove_least {s : State} {n : Nat} {g : Grade} (mem : g ∈ s.grades) (lt : n < g.fields.number)
    (least : ∀ h ∈ s.grades, n < h.fields.number → h ≠ g → g.fields.number < h.fields.number) :
    s.gradeAbove n = some g := by
  rw [gradeAbove_eq]
  refine foldl_lowerGrade _ _ (fun h hh ne => ?_) (.inr ⟨List.mem_filter.mpr ⟨mem, by simpa using lt⟩, nofun⟩)
  obtain ⟨hm, above⟩ := List.mem_filter.mp hh
  exact least h hm (by simpa using above) ne

theorem gradeAbove_none {s : State} {n : Nat} (h : ∀ g ∈ s.grades, g.fields.number ≤ n) : s.gradeAbove n = none := by
  rw [gradeAbove_eq, List.filter_eq_nil_iff.mpr fun g hg => by simpa using h g hg]
  rfl

/-! ### The answers -/

section Reads

variable {s : State} {b : List Byte}

theorem answerReadErrors_eq : answerReadErrors [] s = done s (statusSet s.errors.status ++ statusSet s.errors.mask
    ++ statusSet s.errors.severity ++ [if s.errors.hold then 1#8 else 0#8] ++ errorRecord s.errors.first) := by
  simp [answerReadErrors]

theorem answerReadOrder_eq (len : b.length = 2) {o : Order} (found : s.findOrder (field b 0 2) = some o) :
    answerReadOrder b s = done s (orderRecord s o) := by
  simp [answerReadOrder, len, found]

theorem answerReadSequence_eq (len : b.length = 1) (skip : field b 0 1 ≤ 63) :
    answerReadSequence b s = done s (byteOf s.runSeq.length
      ++ byteOf ((s.runSeq.drop (field b 0 1)).take 60).length ++ [if s.headRush then 1#8 else 0#8]
      ++ byteOf s.suspended.length ++ s.suspended.flatMap (bytesOf 2)
      ++ ((s.runSeq.drop (field b 0 1)).take 60).flatMap (bytesOf 2)) := by
  simp [answerReadSequence, len, not_lt.mpr skip]

theorem answerReadGrade_named (len : b.length = 3) (number : field b 0 2 ≤ 9999) (mode : field b 2 1 = 0) {g : Grade}
    (found : s.findGrade (field b 0 2) = some g) : answerReadGrade b s = done s (1#8 :: gradeBytes g) := by
  simp [answerReadGrade, len, not_lt.mpr number, mode, found, optional, byteOf_eq]

theorem answerReadGrade_above (len : b.length = 3) (number : field b 0 2 ≤ 9999) (mode : field b 2 1 = 1) :
    answerReadGrade b s = done s (optional gradeLength ((s.gradeAbove (field b 0 2)).map gradeBytes)) := by
  simp [answerReadGrade, len, not_lt.mpr number, mode]

theorem answerReadMarks_eq (len : b.length = 5) (ok : sdist s.odometer (coordField b 0) ≠ -2147483648)
    (skip : field b 4 1 ≤ 47) :
    let found := s.marks.filter fun m => decide (sdist s.odometer (coordField b 0) ≤ sdist s.odometer m.start)
    let shown := (found.drop (field b 4 1)).take 8
    answerReadMarks b s = done s (byteOf s.marks.length ++ byteOf shown.length
      ++ [if field b 4 1 + 8 < found.length then 1#8 else 0#8] ++ shown.flatMap markRecord) := by
  have here : s.coordOk (coordField b 0) = true := by simpa [State.coordOk] using ok
  simp [answerReadMarks, len, not_lt.mpr skip, here]

theorem answerReadReel_eq (len : b.length = 2) {k : Stand} {p : Pos} (at_ : placeOf b = some (k, p)) :
    answerReadReel b s = done s (reelRecord s k p) := by
  simp [answerReadReel, len, at_]

theorem answerReadStand_eq (len : b.length = 1) {k : Stand} (at_ : standOf (field b 0 1) = some k) :
    answerReadStand b s = done s (standBytes s k) := by
  simp [answerReadStand, len, at_]

/-- R157: the items of READ KNIFE, the grid and the postponed change behind their presence bytes. -/
theorem answerReadKnife_eq : answerReadKnife [] s = done s (coordBytes (shiftBy s.odometer (-(knOffset s.config)))
    ++ ownerBytes s
    ++ (match s.knife.grid with
        | some g => 1#8 :: gridPosBytes s g.pos
            ++ 1#8 :: (coordBytes g.n ++ bytesOf 2 g.sheet ++ [if g.spoiled then 1#8 else 0#8])
        | none => List.replicate 14 0#8)
    ++ byteOf s.knife.outstanding
    ++ (match s.knife.postponed with
        | some p => 1#8 :: postponedBytes p
        | none => List.replicate 10 0#8)
    ++ byteOf s.knife.split.length ++ byteOf s.knife.lag.length
    ++ s.knife.lag.flatMap fun e => coordBytes e.start ++ coordBytes e.stop) := by
  have grid : optional 5 (s.knife.grid.map fun g => gridPosBytes s g.pos)
      ++ optional 7 (s.knife.grid.map fun g => coordBytes g.n ++ bytesOf 2 g.sheet ++ boolByte g.spoiled)
      = match s.knife.grid with
        | some g => 1#8 :: gridPosBytes s g.pos
            ++ 1#8 :: (coordBytes g.n ++ bytesOf 2 g.sheet ++ [if g.spoiled then 1#8 else 0#8])
        | none => List.replicate 14 0#8 := by
    cases s.knife.grid with
    | none => rfl
    | some g => simp [optional, byteOf_eq]
  have postponed : optional 9 (s.knife.postponed.map postponedBytes) = match s.knife.postponed with
      | some p => 1#8 :: postponedBytes p
      | none => List.replicate 10 0#8 := by
    cases s.knife.postponed with
    | none => rfl
    | some p => simp [optional, byteOf_eq]
  rw [← grid, ← postponed]
  simp only [answerReadKnife, List.length_nil, bne_self_eq_false, refuseIf_false, List.append_assoc]
  rfl

/-- R170: the speed and the eight channels. -/
theorem answerReadBond_eq : answerReadBond [] s = done s (bytesOf 2 s.speed
    ++ preheaterBytes s .l1 ++ preheaterBytes s .m1 ++ preheaterBytes s .l2 ++ preheaterBytes s .m2
    ++ preheaterBytes s .l3 ++ channelBytes s .g1 ++ channelBytes s .g2 ++ channelBytes s .g3) := by
  simp [answerReadBond, Stand.all, GlueUnit.all]

/-- R183: the command in the place, the five lengths and the commands of the class. -/
theorem answerReadStationQueues_eq (len : b.length = 1) {c : LinkClass} (at_ : classOf (field b 0 1) = some c) :
    answerReadStationQueues b s = done s ((match s.link.place with
        | some c => 1#8 :: (commandBytes c ++ List.replicate (45 - (commandBytes c).length) 0#8)
        | none => List.replicate 46 0#8)
      ++ byteOf s.link.splice.length ++ byteOf s.link.knife.length ++ byteOf s.link.slitter.length
      ++ byteOf s.link.stacker.length ++ byteOf s.link.bond.length ++ (s.link.queue c).flatMap commandBytes) := by
  have place : optional commandWidth (s.link.place.map paddedCommand) = match s.link.place with
      | some c => 1#8 :: (commandBytes c ++ List.replicate (45 - (commandBytes c).length) 0#8)
      | none => List.replicate 46 0#8 := by
    cases s.link.place with
    | none => rfl
    | some c => simp [optional, byteOf_eq, paddedCommand, commandWidth]
  rw [← place]
  simp [answerReadStationQueues, len, at_, linkClasses, Link.queue]

end Reads

/-- Settles O6. -/
theorem readsAreAnsweredAndChangeNothing : Obligations.ReadsAreAnsweredAndChangeNothing := by
  intro s b
  refine ⟨rfl, ⟨_, rfl⟩, ⟨_, rfl⟩, ?_, fun len o found => ?_, fun len skip => ⟨s.headRush, headRush_iff, ?_⟩,
    fun len number mode g found => ?_, fun len number mode => ⟨fun g mem above least => ?_, fun none => ?_⟩,
    fun len ok skip => ?_, fun len k p at_ => ?_, fun len k at_ => ?_, ?_, ?_, ?_, fun len queue mem => ?_,
    fun len out => ?_⟩
  · exact congrArg (fun a => Host.Outcome.next (answered 0x08 s a)) answerReadErrors_eq
  · exact congrArg (fun a => Host.Outcome.next (answered 0x17 s a)) (answerReadOrder_eq len found)
  · exact congrArg (fun a => Host.Outcome.next (answered 0x18 s a)) (answerReadSequence_eq len skip)
  · exact congrArg (fun a => Host.Outcome.next (answered 0x23 s a)) (answerReadGrade_named len number mode found)
  · have answer := answerReadGrade_above (s := s) len number mode
    rw [gradeAbove_least mem above least] at answer
    exact congrArg (fun a => Host.Outcome.next (answered 0x23 s a)) answer
  · have answer := answerReadGrade_above (s := s) len number mode
    rw [gradeAbove_none none] at answer
    exact congrArg (fun a => Host.Outcome.next (answered 0x23 s a)) answer
  · exact congrArg (fun a => Host.Outcome.next (answered 0x29 s a)) (answerReadMarks_eq len ok skip)
  · exact congrArg (fun a => Host.Outcome.next (answered 0x34 s a)) (answerReadReel_eq len at_)
  · exact congrArg (fun a => Host.Outcome.next (answered 0x3A s a)) (answerReadStand_eq len at_)
  · rfl
  · exact congrArg (fun a => Host.Outcome.next (answered 0x48 s a)) answerReadKnife_eq
  · exact congrArg (fun a => Host.Outcome.next (answered 0x51 s a)) answerReadBond_eq
  · have class_ : ∃ c, classOf (field b 0 1) = some c ∧ s.link.queue c = queue := by
      simp only [List.mem_cons, Prod.mk.injEq, List.not_mem_nil, or_false] at mem
      rcases mem with ⟨n, rfl⟩ | ⟨n, rfl⟩ | ⟨n, rfl⟩ | ⟨n, rfl⟩ | ⟨n, rfl⟩ <;> exact ⟨_, by rw [n]; rfl, rfl⟩
    obtain ⟨c, at_, rfl⟩ := class_
    exact congrArg (fun a => Host.Outcome.next (answered 0x58 s a)) (answerReadStationQueues_eq len at_)
  · have none : classOf (field b 0 1) = none := by
      unfold classOf
      split <;> first | rfl | omega
    exact congrArg (fun a => Host.Outcome.next (answered 0x58 s a))
      (by simp [answerReadStationQueues, len, none] : answerReadStationQueues b s = .error .range)

end Sys2Proof.Machine
end

section
/-! PROOF. Separate events once more: one of them picked out, and what the others keep; what queuing a command touches. -/

namespace Sys2Proof.Machine

open Sys2Proof

/-! ### One event among separate events -/

section Events

variable {ε : Type} {act : ε → State → State} {R : State → State → Prop}

/-- What every one of separate events keeps, all of them together keep. -/
theorem takeEvents_rel (refl : ∀ s, R s s) (trans : ∀ s t u, R s t → R t u → R s u) (drawn : ∀ s, R s s.drawn)
    {es : List ε} (each : ∀ e ∈ es, ∀ s, R s (act e s)) (s : State) : R s (takeEvents act es s) := by
  have taken := takeEvents_induct (act := act) (es := es) (s := s) (fun left t => left ⊆ es ∧ R s t)
    (fun left t ⟨sub, h⟩ => ⟨sub, trans _ _ _ h (drawn t)⟩)
    (fun left i t lt ⟨sub, h⟩ => ⟨fun x hx => sub (List.mem_of_mem_eraseIdx hx),
      trans _ _ _ h (each _ (sub (List.getElem_mem lt)) t)⟩)
    ⟨fun _ h => h, refl s⟩
  exact taken.2

/-- One of separate events is taken in a state that differs from the first by what the others do, and so does the last
state from the one it leaves. -/
theorem takeEvents_around (refl : ∀ s, R s s) (trans : ∀ s t u, R s t → R t u → R s u) (drawn : ∀ s, R s s.drawn)
    {es : List ε} (nodup : es.Nodup) {e : ε} (mem : e ∈ es) (others : ∀ d ∈ es, d ≠ e → ∀ s, R s (act d s)) (s : State) :
    ∃ u, R s u ∧ R (act e u) (takeEvents act es s) := by
  have taken := takeEvents_induct (act := act) (es := es) (s := s)
    (fun left t => left.Nodup ∧ left ⊆ es
      ∧ ((e ∈ left ∧ R s t) ∨ (e ∉ left ∧ ∃ u, R s u ∧ R (act e u) t)))
    (fun left t ⟨n, sub, h⟩ => ⟨n, sub, h.imp (fun ⟨m, r⟩ => ⟨m, trans _ _ _ r (drawn t)⟩)
      fun ⟨m, u, b, a⟩ => ⟨m, u, b, trans _ _ _ a (drawn t)⟩⟩)
    (fun left i t lt ⟨n, sub, h⟩ => by
      refine ⟨n.sublist (List.eraseIdx_sublist left i), fun x hx => sub (List.mem_of_mem_eraseIdx hx), ?_⟩
      have split : (left[i] :: left.eraseIdx i).Perm left := List.getElem_cons_eraseIdx_perm lt
      have fresh : left[i] ∉ left.eraseIdx i := (List.nodup_cons.mp (split.nodup_iff.mpr n)).1
      rcases h with ⟨m, r⟩ | ⟨m, u, b, a⟩
      · by_cases same : left[i] = e
        · exact .inr ⟨same ▸ fresh, t, r, by rw [same]; exact refl _⟩
        · refine .inl ⟨?_, trans _ _ _ r (others _ (sub (List.getElem_mem lt)) same t)⟩
          exact List.mem_of_ne_of_mem (Ne.symm same) (split.mem_iff.mpr m)
      · have other : left[i] ≠ e := fun same => m (same ▸ List.getElem_mem lt)
        exact .inr ⟨fun hx => m (List.mem_of_mem_eraseIdx hx), u, b,
          trans _ _ _ a (others _ (sub (List.getElem_mem lt)) other t)⟩)
    ⟨nodup, fun _ h => h, .inl ⟨mem, refl s⟩⟩
  obtain ⟨-, -, h | ⟨-, h⟩⟩ := taken
  · exact absurd h.1 List.not_mem_nil
  · exact h

end Events

/-! ### Queuing a command (R180) -/

/-- R180: queuing touches the link and the error unit alone. -/
theorem enqueue_frame (s : State) (c : Command) :
    s.enqueue c = { s with link := (s.enqueue c).link, errors := (s.enqueue c).errors } := by
  unfold State.enqueue
  dsimp only
  repeat' split
  all_goals rfl

theorem enqueue_place (s : State) (c : Command) : (s.enqueue c).link.place = s.link.place := by
  unfold State.enqueue
  dsimp only
  repeat' split
  all_goals first | rfl | exact Link.place_setQueue _ _ _

/-- R180: queuing touches the queue of the command's class alone. -/
theorem enqueue_queue_other (s : State) {c : Command} {d : LinkClass} (h : d ≠ c.linkClass) :
    (s.enqueue c).link.queue d = s.link.queue d := by
  unfold State.enqueue
  dsimp only
  repeat' split
  all_goals first | rfl | exact Link.queue_setQueue_other _ _ h

/-- R180: the command's own queue takes it in, in the place of one it replaces or at the tail. -/
theorem enqueue_queue (s : State) (c : Command) : (s.enqueue c).link.queue c.linkClass =
    if (s.link.queue c.linkClass).any c.replaces then
      (s.link.queue c.linkClass).map fun d => if c.replaces d then c else d
    else if (s.link.queue c.linkClass).length < 8 then s.link.queue c.linkClass ++ [c]
    else s.link.queue c.linkClass := by
  by_cases replaced : (s.link.queue c.linkClass).any c.replaces = true
  · simp only [State.enqueue, replaced, if_true]
    exact Link.queue_setQueue_same _ _ _
  · by_cases room : (s.link.queue c.linkClass).length < 8
    · simp only [State.enqueue, replaced, room, Config.classDepth, if_true, if_false, Bool.false_eq_true]
      exact Link.queue_setQueue_same _ _ _
    · simp only [State.enqueue, replaced, room, Config.classDepth, if_false, Bool.false_eq_true]
      rfl

/-- R180: a command that finds room, or one to replace, is queued. -/
theorem mem_enqueue {s : State} {c : Command} (room : (s.link.queue c.linkClass).length < 8) :
    c ∈ (s.enqueue c).link.queue c.linkClass := by
  rw [enqueue_queue]
  split
  · next some_ =>
    obtain ⟨d, mem, replaced⟩ := List.any_eq_true.mp some_
    exact List.mem_map.mpr ⟨d, mem, by rw [if_pos replaced]⟩
  · exact List.mem_append_right _ (List.mem_singleton_self c)

/-- R180: a queued command stays where the new one does not replace it. -/
theorem mem_enqueue_of_mem {s : State} {c d : Command} (h : d ∈ s.link.queue c.linkClass) (keep : c.replaces d = false) :
    d ∈ (s.enqueue c).link.queue c.linkClass := by
  rw [enqueue_queue]
  split
  · exact List.mem_map.mpr ⟨d, h, by rw [keep]; rfl⟩
  · split
    · exact List.mem_append_left _ h
    · exact h

end Sys2Proof.Machine
end

section
/-! PROOF. What an event at one stand of the splice controller touches, and the reset rule of each block at LINE RESET. -/

namespace Sys2Proof.Machine

open Sys2Proof

/-! ### Events at one stand -/

/-- An event of the splice controller at stand k: beside SpliceFrame, it touches the sequencer of k alone and of the link
the SPLICE queue alone. -/
structure SpliceAt (k : Stand) (s t : State) : Prop where
  frame : SpliceFrame s t
  place : t.link.place = s.link.place
  queues : ∀ d, d ≠ .splice → t.link.queue d = s.link.queue d
  others : ∀ j, j ≠ k → t.seq j = s.seq j
  serial : s.serial ≤ t.serial

namespace SpliceAt

variable {k : Stand} {s t u : State}

theorem refl (k : Stand) (s : State) : SpliceAt k s s := ⟨rfl, rfl, fun _ _ => rfl, fun _ _ => rfl, le_rfl⟩

theorem trans (h : SpliceAt k s t) (g : SpliceAt k t u) : SpliceAt k s u where
  frame := h.frame.trans g.frame
  place := g.place.trans h.place
  queues d n := (g.queues d n).trans (h.queues d n)
  others j n := (g.others j n).trans (h.others j n)
  serial := h.serial.trans g.serial

theorem setSeq (h : SpliceAt k s t) {q : Sequencer} : SpliceAt k s (t.setSeq k q) :=
  h.trans ⟨rfl, rfl, fun _ _ => rfl, fun _ n => State.seq_setSeq_other _ _ n, le_rfl⟩

theorem setCapFlag (h : SpliceAt k s t) {b : Bool} : SpliceAt k s { t with capFlag := b } :=
  h.trans ⟨rfl, rfl, fun _ _ => rfl, fun _ _ => rfl, le_rfl⟩

theorem bumpSerial (h : SpliceAt k s t) : SpliceAt k s t.bumpSerial :=
  h.trans ⟨rfl, rfl, fun _ _ => rfl, fun _ _ => rfl, Nat.le_succ _⟩

theorem enqueue (h : SpliceAt k s t) {c : Command} (splice : c.linkClass = .splice) : SpliceAt k s (t.enqueue c) := by
  refine h.trans ⟨(SpliceFrame.refl t).enqueue, enqueue_place t c, fun d n => enqueue_queue_other t (splice ▸ n),
    fun j _ => ?_, ?_⟩
  · rw [enqueue_frame]; rfl
  · rw [enqueue_frame]

theorem capRelease (h : SpliceAt k s t) : SpliceAt k s t.capRelease := by
  unfold State.capRelease; split
  · exact h.setCapFlag.enqueue rfl
  · exact h

theorem capRequest (h : SpliceAt k s t) : SpliceAt k s t.capRequest := by
  unfold State.capRequest; split
  · exact h.setCapFlag.enqueue rfl
  · exact h

theorem checkReel (h : SpliceAt k s t) : SpliceAt k s (t.checkReel k) := by
  unfold State.checkReel
  dsimp only
  repeat' split
  all_goals
    first
    | exact h
    | exact h.setSeq.bumpSerial.enqueue rfl
    | exact h.setSeq.capRequest
    | exact h.setSeq
    | exact h.setSeq.capRelease

theorem armNow (h : SpliceAt k s t) {x : SpliceKind} : SpliceAt k s (t.armNow k x) := by
  unfold State.armNow
  dsimp only
  split
  all_goals first | exact h.setSeq.checkReel | exact h

theorem lowReel (h : SpliceAt k s t) : SpliceAt k s (t.lowReel k) := by
  unfold State.lowReel
  dsimp only
  split
  all_goals first | exact h.armNow | exact h

theorem lowReelIfLow (h : SpliceAt k s t) : SpliceAt k s (t.lowReelIfLow k) := by
  unfold State.lowReelIfLow; split
  · exact h.lowReel
  · exact h

theorem lowIfIdle (h : SpliceAt k s t) : SpliceAt k s (t.lowIfIdle k) := by
  unfold State.lowIfIdle; split
  · exact h.lowReelIfLow
  · exact h

end SpliceAt

theorem enqueue_seq (s : State) (c : Command) (k : Stand) : (s.enqueue c).seq k = s.seq k := by
  rw [enqueue_frame]; rfl

theorem capRequest_seq (s : State) (k : Stand) : s.capRequest.seq k = s.seq k := by
  unfold State.capRequest
  split
  · exact enqueue_seq _ _ k
  · rfl

theorem enterSplicing_seq (s : State) (k : Stand) (p : Pos) : (s.enterSplicing k p).seq k =
    { s.seq k with state := .splicing, required := none, timer := none, goTag := some s.serial } := by
  rw [State.enterSplicing, enqueue_seq]
  exact State.seq_setSeq_same s k _

theorem enterWaitGo_seq (s : State) (k : Stand) (r : Required) :
    (s.enterWaitGo k r).seq k = { s.seq k with state := .waitGo, required := some r } := by
  rw [State.enterWaitGo, capRequest_seq]
  exact State.seq_setSeq_same s k _

/-- R108: the three ways out of ARMED at the reel check. -/
theorem checkReel_armed {s : State} {k : Stand} {sp : Splice} (armed : (s.seq k).state = .armed)
    (hand : (s.seq k).splice = some sp) :
    (∃ p, s.checkReel k = s.enterSplicing k p) ∨ (∃ r, s.checkReel k = s.enterWaitGo k r)
      ∨ ∃ r, s.checkReel k = s.setSeq k { s.seq k with state := .waitReel, required := some r } := by
  simp only [State.checkReel, armed, hand]
  cases s.checkPasses k sp.kind with
  | none => exact .inr (.inr ⟨_, rfl⟩)
  | some p =>
    dsimp only
    split
    · exact .inl ⟨p, rfl⟩
    · exact .inr (.inl ⟨_, rfl⟩)

/-- R105, R108: a stand armed in IDLE keeps the splice in hand and its plan, and waits or splices. -/
theorem armNow_idle {s : State} {k : Stand} {x : SpliceKind} (idle : (s.seq k).state = .idle) :
    ((s.armNow k x).seq k).splice = some ⟨x, s.odometer⟩ ∧ ((s.armNow k x).seq k).plan = (s.seq k).plan
      ∧ (((s.armNow k x).seq k).state = .waitReel ∨ ((s.armNow k x).seq k).state = .waitGo
        ∨ ((s.armNow k x).seq k).state = .splicing) := by
  have armed := State.seq_setSeq_same s k { s.seq k with state := .armed, splice := some ⟨x, s.odometer⟩ }
  simp only [State.armNow, idle]
  rcases checkReel_armed (by rw [armed]) (by rw [armed]) with ⟨p, e⟩ | ⟨r, e⟩ | ⟨r, e⟩
  · rw [e, enterSplicing_seq, armed]; exact ⟨rfl, rfl, .inr (.inr rfl)⟩
  · rw [e, enterWaitGo_seq, armed]; exact ⟨rfl, rfl, .inr (.inl rfl)⟩
  · rw [e, State.seq_setSeq_same, armed]; exact ⟨rfl, rfl, .inl rfl⟩

/-- R96, R105: a stand in IDLE whose running reel is low arms LOW_REEL. -/
theorem lowIfIdle_low {s : State} {k : Stand} (idle : (s.seq k).state = .idle) (low : s.low k = true) :
    s.lowIfIdle k = s.armNow k .lowReel := by
  simp only [State.lowIfIdle, idle, State.lowReelIfLow, low, State.lowReel, if_true]

/-! ### The speed cap while the speed is permitted (R110) -/

/-- R110: at a permitted speed the cap flag is clear and, where asked, the release of the cap waits in the SPLICE queue. -/
def CapClear (queued : Prop) (s : State) : Prop :=
  s.speed ≤ spliceSpeedLimit s.config ∧ s.capFlag = false ∧ (queued → Command.speedCap none ∈ s.link.splice)

namespace CapClear

variable {q : Prop} {s : State} {k : Stand}

theorem capRequest (h : CapClear q s) : s.capRequest = s := by
  obtain ⟨slow, -, -⟩ := h
  simp [State.capRequest, not_lt.mpr slow]

theorem capRelease (h : CapClear q s) : s.capRelease = s := by
  obtain ⟨-, clear, -⟩ := h
  simp [State.capRelease, clear]

theorem setSeq (h : CapClear q s) {x : Sequencer} : CapClear q (s.setSeq k x) := h

theorem enqueueGo (h : CapClear q s) {p : Pos} {n : Nat} : CapClear q (s.enqueue (.spliceGo k p n)) := by
  obtain ⟨slow, clear, mem⟩ := h
  refine ⟨?_, ?_, fun asked => ?_⟩
  · rw [enqueue_frame]; exact slow
  · rw [enqueue_frame]; exact clear
  · exact mem_enqueue_of_mem (c := .spliceGo k p n) (mem asked) rfl

theorem enterSplicing (h : CapClear q s) {p : Pos} : CapClear q (s.enterSplicing k p) :=
  CapClear.enqueueGo (s := (s.setSeq k _).bumpSerial) h

theorem checkReel (h : CapClear q s) : CapClear q (s.checkReel k) := by
  unfold State.checkReel
  dsimp only
  repeat' split
  all_goals
    first
    | exact h
    | exact h.enterSplicing
    | (rw [State.enterWaitGo, (CapClear.setSeq h).capRequest]; exact h)
    | (rw [(CapClear.setSeq h).capRelease]; exact h)

theorem armNow (h : CapClear q s) {x : SpliceKind} : CapClear q (s.armNow k x) := by
  unfold State.armNow
  dsimp only
  split
  all_goals first | exact (CapClear.setSeq h).checkReel | exact h

theorem lowIfIdle (h : CapClear q s) : CapClear q (s.lowIfIdle k) := by
  unfold State.lowIfIdle State.lowReelIfLow State.lowReel
  dsimp only
  repeat' split
  all_goals first | exact h.armNow | exact h

end CapClear

end Sys2Proof.Machine
end

section
/-! PROOF. LINE RESET (O56): the reset rule of each block, and the blocks in whatever order they are taken (R207). -/

namespace Sys2Proof.Machine

open Sys2Proof

/-! ### The splice controller (R123) -/

/-- The stands left IDLE with a low running reel, and the state in which they arm LOW_REEL. -/
def State.spliceDropped (s : State) : State :=
  ({ s with seqs := ⟨s.seqs.l1.afterLineReset, s.seqs.m1.afterLineReset, s.seqs.l2.afterLineReset,
      s.seqs.m2.afterLineReset, s.seqs.l3.afterLineReset⟩ } : State).resetCap

def State.lowIdle (s : State) : List Stand := Stand.all.filter fun k => (s.seq k).state == .idle && s.low k

theorem resetSplice_eq (s : State) :
    s.resetSplice = takeEvents State.lowIfIdle s.spliceDropped.lowIdle s.spliceDropped := rfl

/-- R123: what the splice controller's reset touches. -/
structure SpliceOnly (s t : State) : Prop where
  frame : SpliceFrame s t
  place : t.link.place = s.link.place
  queues : ∀ d, d ≠ .splice → t.link.queue d = s.link.queue d
  serial : s.serial ≤ t.serial

theorem SpliceOnly.trans {s t u : State} (h : SpliceOnly s t) (g : SpliceOnly t u) : SpliceOnly s u where
  frame := h.frame.trans g.frame
  place := g.place.trans h.place
  queues d n := (g.queues d n).trans (h.queues d n)
  serial := h.serial.trans g.serial

theorem SpliceAt.only {k : Stand} {s t : State} (h : SpliceAt k s t) : SpliceOnly s t :=
  ⟨h.frame, h.place, h.queues, h.serial⟩

theorem SpliceOnly.refl (s : State) : SpliceOnly s s := (SpliceAt.refl .l1 s).only

theorem SpliceOnly.drawn (s : State) : SpliceOnly s s.drawn := ⟨rfl, rfl, fun _ _ => rfl, le_rfl⟩

theorem SpliceOnly.setSeqs (s : State) (q : PerStand Sequencer) : SpliceOnly s { s with seqs := q } :=
  ⟨rfl, rfl, fun _ _ => rfl, le_rfl⟩

theorem spliceDropped_only (s : State) : SpliceOnly s s.spliceDropped := by
  unfold State.spliceDropped State.resetCap
  split
  · exact (SpliceOnly.setSeqs s _).trans
      (((SpliceAt.refl .l1 _).setCapFlag (b := false)).enqueue (c := .speedCap none) rfl).only
  · exact SpliceOnly.setSeqs s _

theorem resetSplice_only (s : State) : SpliceOnly s s.resetSplice :=
  (spliceDropped_only s).trans (takeEvents_rel SpliceOnly.refl (fun _ _ _ => SpliceOnly.trans) SpliceOnly.drawn
    (fun k _ t => (SpliceAt.refl k t).lowIfIdle.only) _)

theorem SpliceOnly.low {s t : State} (h : SpliceOnly s t) (k : Stand) : t.low k = s.low k := by
  rw [h.frame]; rfl

theorem spliceDropped_seq (s : State) (k : Stand) : s.spliceDropped.seq k = (s.seq k).afterLineReset := by
  unfold State.spliceDropped State.resetCap
  split
  · rw [enqueue_seq]; cases k <;> rfl
  · cases k <;> rfl

theorem mem_lowIdle {s : State} {k : Stand} : k ∈ s.lowIdle ↔ (s.seq k).state = .idle ∧ s.low k = true := by
  simp [State.lowIdle, mem_standAll]

/-- R123: a stand that is not left IDLE with a low reel stands as its own reset leaves it. -/
theorem resetSplice_seq_other {s : State} {k : Stand}
    (h : ¬ ((s.seq k).afterLineReset.state = .idle ∧ s.low k = true)) :
    s.resetSplice.seq k = (s.seq k).afterLineReset := by
  rw [resetSplice_eq, ← spliceDropped_seq]
  refine takeEvents_rel (R := fun a b => b.seq k = a.seq k) (fun _ => rfl) (fun _ _ _ f g => g.trans f) (fun _ => rfl)
    (fun j mem t => (SpliceAt.refl j t).lowIfIdle.others k ?_) _
  rintro rfl
  rw [mem_lowIdle, spliceDropped_seq, (spliceDropped_only s).low] at mem
  exact h mem

/-- R123, R105: a stand left IDLE with a low running reel arms LOW_REEL. -/
theorem resetSplice_seq_low {s : State} {k : Stand} (idle : (s.seq k).afterLineReset.state = .idle)
    (low : s.low k = true) :
    (s.resetSplice.seq k).splice = some ⟨.lowReel, s.odometer⟩
      ∧ (s.resetSplice.seq k).plan = (s.seq k).afterLineReset.plan
      ∧ ((s.resetSplice.seq k).state = .waitReel ∨ (s.resetSplice.seq k).state = .waitGo
        ∨ (s.resetSplice.seq k).state = .splicing) := by
  have only := spliceDropped_only s
  have mem : k ∈ s.spliceDropped.lowIdle := by
    rw [mem_lowIdle, spliceDropped_seq, only.low]; exact ⟨idle, low⟩
  obtain ⟨u, ⟨before, seq⟩, -, after⟩ := takeEvents_around (act := State.lowIfIdle)
    (R := fun a b => SpliceOnly a b ∧ b.seq k = a.seq k) (fun a => ⟨SpliceOnly.refl a, rfl⟩)
    (fun _ _ _ f g => ⟨f.1.trans g.1, g.2.trans f.2⟩) (fun a => ⟨SpliceOnly.drawn a, rfl⟩)
    (es := s.spliceDropped.lowIdle) (nodup_standAll.filter _) mem
    (fun j _ ne a => ⟨(SpliceAt.refl j a).lowIfIdle.only, (SpliceAt.refl j a).lowIfIdle.others k (Ne.symm ne)⟩)
    s.spliceDropped
  rw [spliceDropped_seq] at seq
  have armed := lowIfIdle_low (s := u) (k := k) (by rw [seq]; exact idle) (by rw [before.low, only.low]; exact low)
  rw [resetSplice_eq, after, armed, ← seq, ← only.frame.odometer, ← before.frame.odometer]
  exact armNow_idle (by rw [seq]; exact idle)

/-- R123, R110: at a permitted speed the cap is released and no stand asks for it again. -/
theorem resetSplice_cap {s : State} (slow : s.speed ≤ spliceSpeedLimit s.config) :
    CapClear (s.capFlag = true ∧ s.link.splice.length < 8) s.resetSplice := by
  have start : CapClear (s.capFlag = true ∧ s.link.splice.length < 8) s.spliceDropped := by
    unfold State.spliceDropped State.resetCap
    split
    · refine ⟨?_, ?_, fun ⟨_, room⟩ => mem_enqueue (c := .speedCap none) room⟩
      · rw [enqueue_frame]; exact slow
      · rw [enqueue_frame]
    · next clear => exact ⟨slow, by simpa using clear, fun asked => absurd asked.1 clear⟩
  rw [resetSplice_eq]
  exact takeEvents_rel (R := fun a b => CapClear _ a → CapClear _ b) (fun _ => id) (fun _ _ _ f g => g ∘ f)
    (fun _ => id) (fun k _ t h => h.lowIfIdle) _ start

/-! ### The slitter exchange (R140) -/

/-- The slitter exchange before its immediate exchange. -/
def State.slitterDropped (s : State) : State :=
  { s with decisions := [], stations := ⟨s.stations.a.afterLineReset, s.stations.b.afterLineReset⟩ }

theorem resetSlitter_eq (s : State) : s.resetSlitter = s.slitterDropped.immediateExchange := rfl

theorem slitterDropped_station (s : State) (st : Station) :
    s.slitterDropped.station st = (s.station st).afterLineReset := by cases st <;> rfl

theorem afterLineReset_engaged (x : SlitterStation) : x.afterLineReset.state = .engaged ↔ x.state = .engaged := by
  unfold SlitterStation.afterLineReset
  split <;> simp_all

theorem afterLineReset_of_engaged {x : SlitterStation} (h : x.state = .engaged) :
    x.afterLineReset = { x with order := none } := by simp [SlitterStation.afterLineReset, h]

theorem engaged_state {s : State} {st : Station} (h : s.engaged = some st) : (s.station st).state = .engaged := by
  unfold State.engaged at h
  split at h
  · cases h; assumption
  · split at h
    · cases h; assumption
    · cases h

theorem slitterDropped_engaged (s : State) : s.slitterDropped.engaged = s.engaged := by
  simp only [State.engaged, slitterDropped_station, afterLineReset_engaged]

/-- R140: the ENGAGED station's exchange is sent as an immediate one where it has not been sent. -/
theorem resetSlitter_sends {s : State} {st : Station} (eng : s.engaged = some st)
    (unsent : (s.station st).exchangeSent = some false) :
    s.resetSlitter = s.slitterDropped.queueExchange st (some st.other) none := by
  have sent : (s.slitterDropped.station st).exchangeSent = some false := by
    rw [slitterDropped_station, afterLineReset_of_engaged (engaged_state eng)]; exact unsent
  simp only [resetSlitter_eq, State.immediateExchange, slitterDropped_engaged, eng, sent, if_true]

theorem resetSlitter_quiet {s : State}
    (h : ∀ st, s.engaged = some st → (s.station st).exchangeSent ≠ some false) : s.resetSlitter = s.slitterDropped := by
  rw [resetSlitter_eq, State.immediateExchange, slitterDropped_engaged]
  split
  · next st eng =>
    rw [slitterDropped_station, afterLineReset_of_engaged (engaged_state eng)]
    exact if_neg (h st eng)
  · rfl

theorem queueExchange_frame (s : State) (st : Station) (l : Option Station) (x : Option Coord) :
    s.queueExchange st l x = { s with
      stations := s.stations.set st { s.station st with exchangeSent := some false, exchangeTag := some s.serial }
      serial := s.serial + 1
      link := (s.queueExchange st l x).link
      errors := (s.queueExchange st l x).errors } := by
  rw [State.queueExchange, enqueue_frame]
  rfl

/-- R140: what the slitter exchange's reset touches. -/
structure SlitterOnly (s t : State) : Prop where
  frame : t = { s with decisions := [], stations := t.stations, link := t.link, errors := t.errors, serial := t.serial }
  place : t.link.place = s.link.place
  queues : ∀ d, d ≠ .slitter → t.link.queue d = s.link.queue d
  serial : s.serial ≤ t.serial

theorem resetSlitter_only (s : State) : SlitterOnly s s.resetSlitter := by
  by_cases h : ∀ st, s.engaged = some st → (s.station st).exchangeSent ≠ some false
  · rw [resetSlitter_quiet h]; exact ⟨rfl, rfl, fun _ _ => rfl, le_rfl⟩
  · push Not at h
    obtain ⟨st, eng, unsent⟩ := h
    rw [resetSlitter_sends eng unsent]
    refine ⟨by rw [queueExchange_frame]; rfl, enqueue_place _ _, fun d n => ?_, by rw [queueExchange_frame]; exact Nat.le_succ _⟩
    exact enqueue_queue_other _ n

theorem resetSlitter_station {s : State} {st : Station}
    (h : s.engaged = some st → (s.station st).exchangeSent ≠ some false) :
    s.resetSlitter.station st = (s.station st).afterLineReset := by
  by_cases quiet : ∀ x, s.engaged = some x → (s.station x).exchangeSent ≠ some false
  · rw [resetSlitter_quiet quiet, slitterDropped_station]
  · push Not at quiet
    obtain ⟨x, eng, unsent⟩ := quiet
    have ne : st ≠ x := fun e => h (e ▸ eng) (e ▸ unsent)
    rw [resetSlitter_sends eng unsent, queueExchange_frame, ← slitterDropped_station]
    exact State.station_setStation_other _ _ ne

/-! ### The bond controller (R172) -/

/-- R172: what the bond controller's reset touches. -/
structure BondOnly (s t : State) : Prop where
  frame : t = { s with glue := t.glue, link := t.link, errors := t.errors, draws := t.draws }
  place : t.link.place = s.link.place
  queues : ∀ d, d ≠ .bond → t.link.queue d = s.link.queue d

theorem BondOnly.refl (s : State) : BondOnly s s := ⟨rfl, rfl, fun _ _ => rfl⟩

theorem BondOnly.trans {s t u : State} (h : BondOnly s t) (g : BondOnly t u) : BondOnly s u where
  frame := by rw [g.frame, h.frame]
  place := g.place.trans h.place
  queues d n := (g.queues d n).trans (h.queues d n)

theorem BondOnly.setGlue {s : State} (g : GlueUnit) (x : GlueChannel) : BondOnly s (s.setGlue g x) :=
  ⟨rfl, rfl, fun _ _ => rfl⟩

theorem BondOnly.queueSetpoint (s : State) (u : BondUnit) (v : Nat) : BondOnly s (s.queueSetpoint u v) :=
  ⟨by rw [State.queueSetpoint, enqueue_frame], enqueue_place _ _, fun _ n => enqueue_queue_other _ n⟩

theorem regap_only (s : State) (g : GlueUnit) : BondOnly s (s.regap g) := by
  unfold State.regap
  dsimp only
  split
  · exact BondOnly.refl s
  · exact (BondOnly.setGlue g _).trans (BondOnly.queueSetpoint _ _ _)

theorem dropBump_only (s : State) (g : GlueUnit) : BondOnly s (s.dropBump g) := by
  unfold State.dropBump
  split
  · exact (BondOnly.setGlue g _).trans (regap_only _ g)
  · exact BondOnly.refl s

theorem resetBond_only (s : State) : BondOnly s s.resetBond :=
  takeEvents_rel BondOnly.refl (fun _ _ _ => BondOnly.trans) (fun _ => ⟨rfl, rfl, fun _ _ => rfl⟩)
    (fun g _ t => dropBump_only t g) s

theorem queueSetpoint_glue (s : State) (u : BondUnit) (v : Nat) : (s.queueSetpoint u v).glue = s.glue := by
  rw [State.queueSetpoint, enqueue_frame]

/-- R165: a recomputed gap leaves the bump ends as they are. -/
theorem regap_bumpEnd (s : State) (g j : GlueUnit) : ((s.regap g).glue.get j).bumpEnd = (s.glue.get j).bumpEnd := by
  unfold State.regap
  dsimp only
  split
  · rfl
  · rw [queueSetpoint_glue]
    by_cases e : j = g
    · subst e; simp [State.setGlue]
    · simp [State.setGlue, PerGlue.get_set_other _ _ e]

theorem dropBump_bumpEnd (s : State) (g j : GlueUnit) :
    ((s.dropBump g).glue.get j).bumpEnd = if j = g then none else (s.glue.get j).bumpEnd := by
  unfold State.dropBump
  by_cases e : j = g
  · subst e
    split
    · simp [regap_bumpEnd, State.setGlue]
    · next h => simpa using h
  · split
    · simp [regap_bumpEnd, State.setGlue, PerGlue.get_set_other _ _ e]
    · rfl

/-- R172: every bump has ended. -/
theorem resetBond_bumpEnd (s : State) (g : GlueUnit) : (s.resetBond.glue.get g).bumpEnd = none := by
  have kept : ∀ j a, (a.glue.get g).bumpEnd = none → ((State.dropBump j a).glue.get g).bumpEnd = none := by
    intro j a h
    rw [dropBump_bumpEnd]
    split
    · rfl
    · exact h
  by_cases mem : g ∈ GlueUnit.all.filter fun g => (s.glue.get g).bumpEnd.isSome
  · obtain ⟨u, -, after⟩ := takeEvents_around (act := State.dropBump)
      (R := fun a b => (a.glue.get g).bumpEnd = none → (b.glue.get g).bumpEnd = none)
      (fun _ => id) (fun _ _ _ f g => g ∘ f) (fun _ => id)
      ((by decide : GlueUnit.all.Nodup).filter _) mem (fun j _ _ a => kept j a) s
    exact after (by rw [dropBump_bumpEnd, if_pos rfl])
  · have idle : (s.glue.get g).bumpEnd = none := by
      have all : g ∈ GlueUnit.all := by cases g <;> decide
      simpa [all] using mem
    exact takeEvents_rel (R := fun a b => (a.glue.get g).bumpEnd = none → (b.glue.get g).bumpEnd = none)
      (fun _ => id) (fun _ _ _ f g => g ∘ f) (fun _ => id) (fun j _ a => kept j a) s idle

end Sys2Proof.Machine
end

section
/-! PROOF. LINE RESET, concluded (O56): what each block keeps of the others, and the state after them all. -/

namespace Sys2Proof.Machine

open Sys2Proof

/-! ### What the other blocks keep for a block (R207) -/

/-- From s to t what block b owns has stayed, and so has what no block's reset touches. -/
structure BlockKept (b : ResetBlock) (s t : State) : Prop where
  evolves : Evolves s t
  reels : t.reels = s.reels
  runSeq : t.runSeq = s.runSeq
  preheaters : t.preheaters = s.preheaters
  place : t.link.place = s.link.place
  knifeQueue : t.link.knife = s.link.knife
  stackerQueue : t.link.stacker = s.link.stacker
  serial : s.serial ≤ t.serial
  marks : b = .tracker → t.marks = s.marks
  orders : b = .book → t.orders = s.orders
  grades : b = .book → t.grades = s.grades
  suspended : b = .book → t.suspended = s.suspended
  planner : b = .planner → t.planner = s.planner
  seqs : b = .splice → t.seqs = s.seqs
  capFlag : b = .splice → t.capFlag = s.capFlag
  spliceQueue : b = .splice → t.link.splice = s.link.splice
  decisions : b = .slitter → t.decisions = s.decisions
  stations : b = .slitter → t.stations = s.stations
  slitterQueue : b = .slitter → t.link.slitter = s.link.slitter
  knife : b = .knife → t.knife = s.knife
  glue : b = .bond → t.glue = s.glue

namespace BlockKept

variable {b : ResetBlock} {s t u : State}

theorem refl (b : ResetBlock) (s : State) : BlockKept b s s where
  evolves := Evolves.refl s
  reels := rfl
  runSeq := rfl
  preheaters := rfl
  place := rfl
  knifeQueue := rfl
  stackerQueue := rfl
  serial := le_rfl
  marks _ := rfl
  orders _ := rfl
  grades _ := rfl
  suspended _ := rfl
  planner _ := rfl
  seqs _ := rfl
  capFlag _ := rfl
  spliceQueue _ := rfl
  decisions _ := rfl
  stations _ := rfl
  slitterQueue _ := rfl
  knife _ := rfl
  glue _ := rfl

theorem trans (h : BlockKept b s t) (g : BlockKept b t u) : BlockKept b s u where
  evolves := h.evolves.trans g.evolves
  reels := g.reels.trans h.reels
  runSeq := g.runSeq.trans h.runSeq
  preheaters := g.preheaters.trans h.preheaters
  place := g.place.trans h.place
  knifeQueue := g.knifeQueue.trans h.knifeQueue
  stackerQueue := g.stackerQueue.trans h.stackerQueue
  serial := h.serial.trans g.serial
  marks e := (g.marks e).trans (h.marks e)
  orders e := (g.orders e).trans (h.orders e)
  grades e := (g.grades e).trans (h.grades e)
  suspended e := (g.suspended e).trans (h.suspended e)
  planner e := (g.planner e).trans (h.planner e)
  seqs e := (g.seqs e).trans (h.seqs e)
  capFlag e := (g.capFlag e).trans (h.capFlag e)
  spliceQueue e := (g.spliceQueue e).trans (h.spliceQueue e)
  decisions e := (g.decisions e).trans (h.decisions e)
  stations e := (g.stations e).trans (h.stations e)
  slitterQueue e := (g.slitterQueue e).trans (h.slitterQueue e)
  knife e := (g.knife e).trans (h.knife e)
  glue e := (g.glue e).trans (h.glue e)

theorem drawn (b : ResetBlock) (s : State) : BlockKept b s s.drawn :=
  { refl b s with evolves := (Evolves.refl s).drawn, serial := le_rfl }

/-- The splice controller keeps what the other blocks own. -/
theorem ofSplice (only : SpliceOnly s t) (e : Evolves s t) (h : b ≠ .splice) : BlockKept b s t where
  evolves := e
  reels := only.frame.reels
  runSeq := only.frame.runSeq
  preheaters := only.frame.preheaters
  place := only.place
  knifeQueue := only.queues .knife (by decide)
  stackerQueue := only.queues .stacker (by decide)
  serial := only.serial
  marks _ := only.frame.marks
  orders _ := only.frame.orders
  grades _ := only.frame.grades
  suspended _ := only.frame.suspended
  planner _ := only.frame.planner
  seqs o := absurd o h
  capFlag o := absurd o h
  spliceQueue o := absurd o h
  decisions _ := only.frame.decisions
  stations _ := only.frame.stations
  slitterQueue _ := only.queues .slitter (by decide)
  knife _ := only.frame.knife
  glue _ := only.frame.glue

/-- The slitter exchange keeps what the other blocks own. -/
theorem ofSlitter (only : SlitterOnly s t) (e : Evolves s t) (h : b ≠ .slitter) : BlockKept b s t where
  evolves := e
  reels := by rw [only.frame]
  runSeq := by rw [only.frame]
  preheaters := by rw [only.frame]
  place := only.place
  knifeQueue := only.queues .knife (by decide)
  stackerQueue := only.queues .stacker (by decide)
  serial := only.serial
  marks _ := by rw [only.frame]
  orders _ := by rw [only.frame]
  grades _ := by rw [only.frame]
  suspended _ := by rw [only.frame]
  planner _ := by rw [only.frame]
  seqs _ := by rw [only.frame]
  capFlag _ := by rw [only.frame]
  spliceQueue _ := only.queues .splice (by decide)
  decisions o := absurd o h
  stations o := absurd o h
  slitterQueue o := absurd o h
  knife _ := by rw [only.frame]
  glue _ := by rw [only.frame]

/-- The bond controller keeps what the other blocks own. -/
theorem ofBond (only : BondOnly s t) (e : Evolves s t) (h : b ≠ .bond) : BlockKept b s t where
  evolves := e
  reels := by rw [only.frame]
  runSeq := by rw [only.frame]
  preheaters := by rw [only.frame]
  place := only.place
  knifeQueue := only.queues .knife (by decide)
  stackerQueue := only.queues .stacker (by decide)
  serial := by rw [only.frame]
  marks _ := by rw [only.frame]
  orders _ := by rw [only.frame]
  grades _ := by rw [only.frame]
  suspended _ := by rw [only.frame]
  planner _ := by rw [only.frame]
  seqs _ := by rw [only.frame]
  capFlag _ := by rw [only.frame]
  spliceQueue _ := only.queues .splice (by decide)
  decisions _ := by rw [only.frame]
  stations _ := by rw [only.frame]
  slitterQueue _ := only.queues .slitter (by decide)
  knife _ := by rw [only.frame]
  glue o := absurd o h

/-- R207: the reset of a block keeps what another one owns. -/
theorem resetBlock {c : ResetBlock} (h : c ≠ b) (s : State) : BlockKept b s (s.resetBlock c) := by
  have e : Evolves s (s.resetBlock c) := (Evolves.refl s).resetBlock
  have same := refl b s
  cases c with
  | tracker => exact { same with evolves := e, serial := le_rfl, marks := fun o => absurd o.symm h }
  | book =>
    exact { same with
      evolves := e, serial := le_rfl, orders := fun o => absurd o.symm h, grades := fun o => absurd o.symm h
      suspended := fun o => absurd o.symm h }
  | planner => exact { same with evolves := e, serial := le_rfl, planner := fun o => absurd o.symm h }
  | splice => exact ofSplice (resetSplice_only s) e (Ne.symm h)
  | slitter => exact ofSlitter (resetSlitter_only s) e (Ne.symm h)
  | knife => exact { same with evolves := e, serial := le_rfl, knife := fun o => absurd o.symm h }
  | bond => exact ofBond (resetBond_only s) e (Ne.symm h)

end BlockKept

/-- R207: each block is reset in a state that has kept what it owns since the flush, and keeps what it has then. -/
theorem lineReset_block (s : State) (b : ResetBlock) :
    ∃ u, BlockKept b s.flushLink u ∧ BlockKept b (u.resetBlock b) s.lineReset :=
  takeEvents_around (BlockKept.refl b) (fun _ _ _ => BlockKept.trans) (BlockKept.drawn b)
    (by decide : resetBlocks.Nodup) (by cases b <;> decide) (fun _ _ ne t => BlockKept.resetBlock ne t) s.flushLink

/-! ### The state after LINE RESET, block by block -/

section AfterReset

variable (s : State)

theorem lineReset_marks : s.lineReset.marks = [] := by
  obtain ⟨u, -, after⟩ := lineReset_block s .tracker
  rw [after.marks rfl]; rfl

theorem lineReset_planner : s.lineReset.planner = none := by
  obtain ⟨u, -, after⟩ := lineReset_block s .planner
  rw [after.planner rfl]; rfl

theorem lineReset_knife : s.lineReset.knife = Knife.reset := by
  obtain ⟨u, -, after⟩ := lineReset_block s .knife
  rw [after.knife rfl]; rfl

theorem lineReset_bumpEnd (g : GlueUnit) : (s.lineReset.glue.get g).bumpEnd = none := by
  obtain ⟨u, -, after⟩ := lineReset_block s .bond
  rw [after.glue rfl]; exact resetBond_bumpEnd u g

theorem afterLineReset_order (o : Order) : o.afterLineReset = if o.state = .running ∨ o.state = .suspended then
    { o with state := .done, outcome := some .aborted, segments := 0, stacked := false, attention := true }
    else o := by
  simp [Order.afterLineReset, Order.onMachine]

/-- R46, R57: the order book and the active counts after LINE RESET. -/
theorem lineReset_book : s.lineReset.suspended = []
    ∧ s.lineReset.orders = s.orders.map (fun o => if o.state = .running ∨ o.state = .suspended then
        { o with state := .done, outcome := some .aborted, segments := 0, stacked := false, attention := true }
        else o)
    ∧ s.lineReset.grades = s.grades.map (fun g => { g with active := 0 }) := by
  obtain ⟨u, before, after⟩ := lineReset_block s .book
  rw [after.suspended rfl, after.orders rfl, after.grades rfl]
  refine ⟨rfl, ?_, ?_⟩
  · rw [← funext afterLineReset_order, show s.orders = u.orders from (before.orders rfl).symm]; rfl
  · rw [show s.grades = u.grades from (before.grades rfl).symm]; rfl

/-! #### The splice controller (R123) -/

theorem seq_of_seqs {s t : State} (h : t.seqs = s.seqs) (k : Stand) : t.seq k = s.seq k := by rw [State.seq, h]; rfl

theorem low_of_kept {b : ResetBlock} {s t : State} (h : BlockKept b s t) (k : Stand) : t.low k = s.low k := by
  simp only [State.low, State.runningPos, State.slot, h.reels, h.evolves.config]
  rfl

theorem afterLineReset_of_fault {q : Sequencer} (h : q.state = .fault) :
    q.afterLineReset = { q with plan := none } := by simp [Sequencer.afterLineReset, h]

/-- R123: the sequencer of a stand after LINE RESET, where no stand is SPLICING. -/
theorem lineReset_seq_fault {k : Stand} (fault : (s.seq k).state = .fault) :
    s.lineReset.seq k = { s.seq k with plan := none } := by
  obtain ⟨u, before, after⟩ := lineReset_block s .splice
  have seq : u.seq k = s.seq k := seq_of_seqs (before.seqs rfl) k
  have own : (u.seq k).afterLineReset = { s.seq k with plan := none } := by
    rw [seq, afterLineReset_of_fault fault]
  rw [seq_of_seqs (after.seqs rfl), ← own]
  exact resetSplice_seq_other fun h => by rw [own] at h; exact absurd (fault.symm.trans h.1) (by decide)

theorem afterLineReset_idle {q : Sequencer} (fault : q.state ≠ .fault) (splicing : q.state ≠ .splicing) :
    q.afterLineReset.state = .idle ∧ (q.state ≠ .idle → q.afterLineReset.plan = none
      ∧ q.afterLineReset.splice = none ∧ q.afterLineReset.required = none) := by
  unfold Sequencer.afterLineReset
  split <;> simp_all

theorem lineReset_seq_low {k : Stand} (fault : (s.seq k).state ≠ .fault) (splicing : (s.seq k).state ≠ .splicing)
    (low : s.low k = true) :
    (s.lineReset.seq k).splice = some ⟨.lowReel, s.odometer⟩
      ∧ ((s.seq k).state ≠ .idle → (s.lineReset.seq k).plan = none)
      ∧ ((s.lineReset.seq k).state = .waitReel ∨ (s.lineReset.seq k).state = .waitGo
        ∨ (s.lineReset.seq k).state = .splicing) := by
  obtain ⟨u, before, after⟩ := lineReset_block s .splice
  have seq : u.seq k = s.seq k := seq_of_seqs (before.seqs rfl) k
  obtain ⟨idle, dropped⟩ := afterLineReset_idle fault splicing
  obtain ⟨hand, plan, state⟩ := resetSplice_seq_low (s := u) (k := k) (by rw [seq]; exact idle)
    (by rw [low_of_kept before]; exact low)
  rw [seq_of_seqs (after.seqs rfl)]
  refine ⟨?_, fun armed => ?_, state⟩
  · rw [show s.odometer = u.odometer from before.evolves.odometer.symm]; exact hand
  · obtain ⟨gone, -, -⟩ := dropped armed
    rw [← gone, ← seq]
    exact plan

theorem lineReset_seq_high {k : Stand} (fault : (s.seq k).state ≠ .fault) (splicing : (s.seq k).state ≠ .splicing)
    (low : s.low k = false) :
    (s.lineReset.seq k).state = .idle ∧ ((s.seq k).state ≠ .idle → (s.lineReset.seq k).plan = none
      ∧ (s.lineReset.seq k).splice = none ∧ (s.lineReset.seq k).required = none) := by
  obtain ⟨u, before, after⟩ := lineReset_block s .splice
  have seq : u.seq k = s.seq k := seq_of_seqs (before.seqs rfl) k
  have high : u.low k = false := by rw [low_of_kept before]; exact low
  rw [seq_of_seqs (after.seqs rfl)]
  rw [show (u.resetBlock .splice).seq k = (s.seq k).afterLineReset from
    seq ▸ resetSplice_seq_other fun h => by rw [high] at h; exact absurd h.2 (by decide)]
  exact afterLineReset_idle fault splicing

theorem lineReset_cap (slow : s.speed ≤ spliceSpeedLimit s.config) : s.lineReset.capFlag = false
    ∧ (s.capFlag = true → s.link.splice.length < 8 → Command.speedCap none ∈ s.lineReset.link.splice) := by
  obtain ⟨u, before, after⟩ := lineReset_block s .splice
  obtain ⟨-, clear, queued⟩ := resetSplice_cap (s := u) (by rw [before.evolves.speed, before.evolves.config]; exact slow)
  rw [after.capFlag rfl, after.spliceQueue rfl]
  refine ⟨clear, fun flag room => queued ⟨(before.capFlag rfl).trans flag, ?_⟩⟩
  rw [before.spliceQueue rfl]
  exact room

/-! #### The slitter exchange (R140) -/

theorem station_of_stations {s t : State} (h : t.stations = s.stations) (st : Station) :
    t.station st = s.station st := by rw [State.station, h]; rfl

theorem engaged_of_stations {s t : State} (h : t.stations = s.stations) : t.engaged = s.engaged := by
  simp only [State.engaged, station_of_stations h]

theorem lineReset_decisions : s.lineReset.decisions = [] := by
  obtain ⟨u, -, after⟩ := lineReset_block s .slitter
  rw [after.decisions rfl, State.resetBlock, (resetSlitter_only u).frame]

/-- R140: a station whose exchange has been sent, or that is not the ENGAGED one, stands as its own reset leaves it. -/
theorem lineReset_station {st : Station} (h : s.engaged = some st → (s.station st).exchangeSent ≠ some false) :
    s.lineReset.station st = (s.station st).afterLineReset := by
  obtain ⟨u, before, after⟩ := lineReset_block s .slitter
  have stations : u.stations = s.stations := before.stations rfl
  rw [station_of_stations (after.stations rfl), ← station_of_stations stations]
  refine resetSlitter_station fun eng => ?_
  rw [station_of_stations stations]
  exact h ((engaged_of_stations stations).symm.trans eng)

theorem lineReset_slitter_quiet (h : ∀ st, s.engaged = some st → (s.station st).exchangeSent ≠ some false) :
    s.lineReset.link.slitter = [] := by
  obtain ⟨u, before, after⟩ := lineReset_block s .slitter
  have stations : u.stations = s.stations := before.stations rfl
  rw [after.slitterQueue rfl, State.resetBlock, resetSlitter_quiet]
  · exact before.slitterQueue rfl
  · intro st eng
    rw [station_of_stations stations]
    exact h st ((engaged_of_stations stations).symm.trans eng)

/-- R140: the immediate exchange of an ENGAGED station whose exchange has not been sent. -/
theorem lineReset_slitter_sends {st : Station} (eng : s.engaged = some st)
    (unsent : (s.station st).exchangeSent = some false) : ∃ tag, s.serial ≤ tag
      ∧ s.lineReset.link.slitter = [.slitterExchange st (some st.other) none tag]
      ∧ s.lineReset.station st = { s.station st with order := none, exchangeTag := some tag } := by
  obtain ⟨u, before, after⟩ := lineReset_block s .slitter
  have stations : u.stations = s.stations := before.stations rfl
  have station : u.station st = s.station st := station_of_stations stations st
  have empty : u.link.slitter = [] := before.slitterQueue rfl
  have own := resetSlitter_sends (s := u) ((engaged_of_stations stations).trans eng) (by rw [station]; exact unsent)
  refine ⟨u.serial, before.serial, ?_, ?_⟩
  · rw [after.slitterQueue rfl, State.resetBlock, own]
    have queue := enqueue_queue (State.bumpSerial (u.slitterDropped.setStation st { u.slitterDropped.station st with
      exchangeSent := some false, exchangeTag := some u.serial })) (.slitterExchange st (some st.other) none u.serial)
    have before' : (State.bumpSerial (u.slitterDropped.setStation st { u.slitterDropped.station st with
      exchangeSent := some false, exchangeTag := some u.serial })).link.queue .slitter = [] := empty
    simp only [Command.linkClass, before', List.any_nil, List.length_nil, List.nil_append] at queue
    exact queue
  · rw [station_of_stations (after.stations rfl), State.resetBlock, own, queueExchange_frame]
    refine (State.station_setStation_same u.slitterDropped st _).trans ?_
    rw [slitterDropped_station, station, afterLineReset_of_engaged (engaged_state eng), ← unsent]
    rfl

/-! #### What no block touches -/

theorem lineReset_link : s.lineReset.link.place = s.link.place ∧ s.lineReset.link.knife = []
    ∧ s.lineReset.link.stacker = [] := by
  obtain ⟨u, before, after⟩ := lineReset_block s .tracker
  exact ⟨after.place.trans before.place, after.knifeQueue.trans before.knifeQueue,
    after.stackerQueue.trans before.stackerQueue⟩

theorem lineReset_records : s.lineReset.reels = s.reels ∧ s.lineReset.runSeq = s.runSeq
    ∧ s.lineReset.preheaters = s.preheaters := by
  obtain ⟨u, before, after⟩ := lineReset_block s .tracker
  exact ⟨after.reels.trans before.reels, after.runSeq.trans before.runSeq, after.preheaters.trans before.preheaters⟩

end AfterReset

/-! ### The request -/

theorem answerLineReset_taken {s : State} (stopped : s.stopped = true) (none : ∀ k, (s.seq k).state ≠ .splicing) :
    answerLineReset [] s = done s.lineReset (byteOf (s.orders.filter Order.onMachine).length) := by
  have splicing : s.someStand (· == .splicing) = false := by
    simp [State.someStand, none]
  simp [answerLineReset, stopped, splicing]

theorem answerLineReset_refused {s : State} (h : s.stopped = false ∨ ∃ k, (s.seq k).state = .splicing) :
    answerLineReset [] s = .error .state := by
  rcases h with running | ⟨k, splicing⟩
  · simp [answerLineReset, running]
  · have some_ : s.someStand (· == .splicing) = true :=
      List.any_eq_true.mpr ⟨k, mem_standAll k, by simp [splicing]⟩
    cases stopped : s.stopped <;> simp [answerLineReset, stopped, some_]

theorem onMachine_eq : Order.onMachine = fun o => decide (o.state = .running ∨ o.state = .suspended) := by
  funext o
  cases h : o.state <;> simp [Order.onMachine, h]

/-- Settles O56. -/
theorem lineResetEndsTheRun : Obligations.LineResetEndsTheRun := by
  intro s
  refine ⟨fun h => ?_, fun stopped none => ⟨s.lineReset, ?_, ?_⟩⟩
  · exact congrArg (fun a => Host.Outcome.next (answered 0x04 s a)) (answerLineReset_refused h)
  · have answer := answerLineReset_taken stopped none
    rw [onMachine_eq] at answer
    exact congrArg (fun a => Host.Outcome.next (answered 0x04 s a)) answer
  · have e : Evolves s s.lineReset := (Evolves.refl s).lineReset
    obtain ⟨suspended, orders, grades⟩ := lineReset_book s
    obtain ⟨place, knife, stacker⟩ := lineReset_link s
    obtain ⟨reels, runSeq, preheaters⟩ := lineReset_records s
    have own (st : Station) (h : s.engaged = some st → (s.station st).exchangeSent ≠ some false) :=
      lineReset_station s h
    have notEngaged {st : Station} (h : (s.station st).state ≠ .engaged) :
        s.engaged = some st → (s.station st).exchangeSent ≠ some false := fun eng => absurd (engaged_state eng) h
    refine ⟨lineReset_marks s, lineReset_decisions s, lineReset_planner s, lineReset_knife s, suspended, place, knife,
      stacker, lineReset_slitter_quiet s, fun st => lineReset_slitter_sends s, orders, grades, fun k armed => ?_,
      fun k => lineReset_seq_fault s, fun k fault low => ?_, fun k fault high => ?_, lineReset_cap s,
      fun st setting => ?_, fun st eng sent => ?_, fun st other => ?_, lineReset_bumpEnd s, e.odometer, e.speed, reels,
      runSeq, preheaters, e.config, e.mask, e.receiver, e.inputs⟩
    · by_cases fault : (s.seq k).state = .fault
      · rw [lineReset_seq_fault s fault]
      · cases low : s.low k with
        | true => exact (lineReset_seq_low s fault (none k) low).2.1 armed
        | false => exact ((lineReset_seq_high s fault (none k) low).2 armed).1
    · obtain ⟨hand, -, state⟩ := lineReset_seq_low s fault (none k) low
      exact ⟨hand, state⟩
    · obtain ⟨idle, dropped⟩ := lineReset_seq_high s fault (none k) high
      exact ⟨idle, fun armed => (dropped armed).2⟩
    · rw [own st (notEngaged (by rcases setting with h | h <;> simp [h]))]
      rcases setting with h | h <;> simp [SlitterStation.afterLineReset, h]
    · rw [own st sent, afterLineReset_of_engaged eng]
    · rw [own st (notEngaged (by rcases other with h | h <;> simp [h]))]
      rcases other with h | h <;> simp [SlitterStation.afterLineReset, h]

end Sys2Proof.Machine
end

section
/-! PROOF. Records as rows of numbers of given widths (R192): how an item reads back at its offset, and the bits of a byte of
flags. -/

namespace Sys2Proof.Machine

open Sys2Proof

/-- The bytes of a row of items: the widths and, one for each, the numbers. -/
def pack : List Nat → List Nat → List Byte
  | w :: ws, v :: vs => bytesOf w v ++ pack ws vs
  | _, _ => []

theorem pack_cons (w v : Nat) (ws vs : List Nat) : pack (w :: ws) (v :: vs) = bytesOf w v ++ pack ws vs := rfl

theorem pack_nil (vs : List Nat) : pack [] vs = [] := rfl

theorem pack_length : ∀ {ws vs : List Nat}, vs.length = ws.length → (pack ws vs).length = ws.sum
  | [], _, _ => rfl
  | _ :: _, [], full => nomatch full
  | w :: ws, v :: vs, full => by
    rw [pack_cons, List.length_append, bytesOf_length, pack_length (Nat.succ.inj full), List.sum_cons]

theorem pack_append : ∀ {ws vs : List Nat} (_ : vs.length = ws.length) (us xs : List Nat),
    pack (ws ++ us) (vs ++ xs) = pack ws vs ++ pack us xs
  | [], [], _, _, _ => rfl
  | [], _ :: _, full, _, _ => nomatch full
  | _ :: _, [], full, _, _ => nomatch full
  | w :: ws, v :: vs, full, us, xs => by
    rw [List.cons_append, List.cons_append, pack_cons, pack_append (Nat.succ.inj full), pack_cons, List.append_assoc]

/-- The items before the i-th, the others behind them. -/
theorem pack_split {ws vs : List Nat} (full : vs.length = ws.length) (i : Nat) :
    pack ws vs = pack (ws.take i) (vs.take i) ++ pack (ws.drop i) (vs.drop i) := by
  rw [← pack_append (by rw [List.length_take, List.length_take, full]), List.take_append_drop, List.take_append_drop]

/-- Items read at the offset of the first: the bytes of these items alone. -/
theorem field_items {ws vs : List Nat} (full : vs.length = ws.length) (i k : Nat) {off n : Nat}
    (at_ : (ws.take i).sum = off) (wide : ((ws.drop i).take k).sum = n) :
    field (pack ws vs) off n = bigEndian (pack ((ws.drop i).take k) ((vs.drop i).take k)) := by
  have before : (pack (ws.take i) (vs.take i)).length = off := by
    rw [pack_length (by rw [List.length_take, List.length_take, full]), at_]
  have rest : (vs.drop i).length = (ws.drop i).length := by rw [List.length_drop, List.length_drop, full]
  rw [pack_split full i, field_skip before.le, before, Nat.sub_self, pack_split rest k,
    field_head (by rw [pack_length (by rw [List.length_take, List.length_take, rest]), wide])]

/-- R192: an item reads back. -/
theorem field_item {ws vs : List Nat} (full : vs.length = ws.length) (i : Nat) {off n v : Nat} (wide : ws[i]? = some n)
    (item : vs[i]? = some v) (at_ : (ws.take i).sum = off) (fits : v < 256 ^ n) : field (pack ws vs) off n = v := by
  have oneOf : ∀ {l : List Nat} {x : Nat}, l[i]? = some x → (l.drop i).take 1 = [x] := fun h => by
    rw [List.take_one, List.head?_drop, h]; rfl
  rw [field_items full i 1 at_ (by rw [oneOf wide]; exact List.sum_singleton), oneOf wide, oneOf item, pack_cons, pack_nil,
    List.append_nil, bigEndian_bytesOf, Nat.mod_eq_of_lt fits]

theorem bigEndian_pack_zeros : ∀ {ws vs : List Nat}, (∀ v ∈ vs, v = 0) → bigEndian (pack ws vs) = 0
  | [], _, _ => rfl
  | _ :: _, [], _ => rfl
  | w :: ws, v :: vs, zero => by
    rw [pack_cons, bigEndian_append, bigEndian_bytesOf, zero v List.mem_cons_self, Nat.zero_mod,
      bigEndian_pack_zeros fun x hx => zero x (List.mem_cons_of_mem _ hx), Nat.zero_mul]

/-- Items of value 0 read as 0 together. -/
theorem field_zero_items {ws vs : List Nat} (full : vs.length = ws.length) (i k : Nat) {off n : Nat}
    (at_ : (ws.take i).sum = off) (wide : ((ws.drop i).take k).sum = n) 
    (zero : (vs.drop i).take k = List.replicate k 0) : field (pack ws vs) off n = 0 := by
  rw [field_items full i k at_ wide, zero, bigEndian_pack_zeros fun _ => List.eq_of_mem_replicate]

theorem coordField_item {ws vs : List Nat} (full : vs.length = ws.length) (i : Nat) {off : Nat} {c : Coord}
    (wide : ws[i]? = some 4) (item : vs[i]? = some c.toNat) (at_ : (ws.take i).sum = off) :
    coordField (pack ws vs) off = c :=
  coordField_coordBytes (field_item full i wide item at_ c.isLt)

/-- A byte read at its place. -/
theorem getD_of_field {b : List Byte} {off : Nat} {x : Byte} (inside : off < b.length) (h : field b off 1 = x.toNat) :
    b.getD off 0#8 = x := by
  rw [field, List.drop_eq_getElem_cons inside, List.take_succ_cons, List.take_zero, bigEndian_cons] at h
  rw [List.getD_eq_getElem _ _ inside]
  exact BitVec.eq_of_toNat_eq (by simpa using h)

theorem getD_item {ws vs : List Nat} (full : vs.length = ws.length) (i : Nat) {off : Nat} {x : Byte}
    (wide : ws[i]? = some 1) (item : vs[i]? = some x.toNat) (at_ : (ws.take i).sum = off) (inside : off < ws.sum) :
    (pack ws vs).getD off 0#8 = x :=
  getD_of_field (by rw [pack_length full]; exact inside) (field_item full i wide item at_ x.isLt)

/-! ### The parts of the model's records as rows -/

theorem bytesOf_eq_pack (n v : Nat) : bytesOf n v = pack [n] [v] := (List.append_nil _).symm
theorem byteOf_eq_pack (v : Nat) : byteOf v = pack [1] [v] := bytesOf_eq_pack 1 v
theorem coordBytes_eq_pack (c : Coord) : coordBytes c = pack [4] [c.toNat] := bytesOf_eq_pack 4 _
theorem boolByte_eq_pack (b : Bool) : boolByte b = pack [1] [boolNat b] := byteOf_eq_pack _

theorem byte_eq_pack (x : Byte) : [x] = pack [1] [x.toNat] := by rw [← byteOf_eq_pack, byteOf_eq]; simp

theorem codeByte_eq_pack (t : Config.CodeTable) (i : Nat) : codeByte t i = pack [1] [(Config.enumCode t i).toNat] :=
  byte_eq_pack _

theorem zeros_eq_pack (n : Nat) : List.replicate n 0#8 = pack [n] [0] := by
  simp [pack, bytesOf, List.map_const']

theorem optNum_eq_pack (n : Nat) (x : Option Nat) : optNum n x = pack [1, n] [boolNat x.isSome, x.getD 0] := by
  cases x with
  | none => rw [optNum, Option.map_none, optional, zeros_eq_pack]; rfl
  | some v => rw [optNum, Option.map_some, optional, bytesOf_eq_pack]; rfl

theorem optCoord_eq_pack (x : Option Coord) :
    optCoord x = pack [1, 4] [boolNat x.isSome, (x.map (·.toNat)).getD 0] := by
  rw [show optCoord x = optNum 4 (x.map (·.toNat)) by cases x <;> rfl, optNum_eq_pack, Option.isSome_map]

theorem pack_zeros : ∀ {ws vs : List Nat}, vs.length = ws.length → (∀ v ∈ vs, v = 0) →
    pack ws vs = List.replicate ws.sum 0#8
  | [], _, _, _ => rfl
  | _ :: _, [], full, _ => nomatch full
  | w :: ws, v :: vs, full, zero => by
    rw [pack_cons, zero v List.mem_cons_self, bytesOf_eq_pack, ← zeros_eq_pack,
      pack_zeros (Nat.succ.inj full) fun x hx => zero x (List.mem_cons_of_mem _ hx), List.replicate_append_replicate,
      List.sum_cons]

/-- An item behind its presence byte, as a row of items that are all 0 where it is absent. -/
theorem optional_eq_pack {ws vs : List Nat} {x : Option (List Byte)} (full : vs.length = ws.length)
    (here : ∀ bs, x = some bs → bs = pack ws vs) (absent : x = none → ∀ v ∈ vs, v = 0) :
    optional ws.sum x = pack (1 :: ws) (boolNat x.isSome :: vs) := by
  cases x with
  | some bs => rw [pack_cons, ← here bs rfl]; rfl
  | none => rw [pack_cons, pack_zeros full (absent rfl)]; rfl

/-- One number behind its presence byte. -/
theorem optional_bytesOf {α : Type} (n : Nat) (x : Option α) (f : α → Nat) :
    optional n (x.map fun a => bytesOf n (f a)) = pack [1, n] [boolNat x.isSome, (x.map f).getD 0] := by
  rw [← Option.isSome_map (f := f), ← optNum_eq_pack, optNum, Option.map_map]; rfl

/-! ### Lists of entries as one item -/

theorem bigEndian_lt (bs : List Byte) : bigEndian bs < 256 ^ bs.length := by
  induction bs with
  | nil => exact Nat.one_pos
  | cons b bs ih =>
    have digit : b.toNat + 1 ≤ 256 := b.isLt
    calc bigEndian (b :: bs) = b.toNat * 256 ^ bs.length + bigEndian bs := bigEndian_cons b bs
      _ < (b.toNat + 1) * 256 ^ bs.length := by rw [Nat.succ_mul]; exact Nat.add_lt_add_left ih _
      _ ≤ 256 * 256 ^ bs.length := Nat.mul_le_mul_right _ digit
      _ = 256 ^ (bs.length + 1) := (Nat.pow_succ').symm

/-- A number's bytes do not depend on what lies above them. -/
theorem bytesOf_mul_add (n a v : Nat) : bytesOf n (a * 256 ^ n + v) = bytesOf n v := by
  refine List.map_congr_left fun i mem => BitVec.eq_of_toNat_eq ?_
  obtain ⟨k, rfl⟩ : ∃ k, n = k + 1 + i := ⟨n - 1 - i, by have := List.mem_range.mp mem; omega⟩
  have above : a * 256 ^ (k + 1 + i) = 256 ^ k * (256 * (a * 256 ^ i)) := by ring
  rw [BitVec.toNat_ofNat, BitVec.toNat_ofNat, show k + 1 + i - 1 - i = k by omega, above,
    Nat.mul_add_div (Nat.pow_pos (by decide))]
  exact Nat.mul_add_mod _ _ _

/-- Any bytes are the number they read as. -/
theorem bytesOf_bigEndian (bs : List Byte) : bytesOf bs.length (bigEndian bs) = bs := by
  induction bs with
  | nil => rfl
  | cons b bs ih =>
    rw [List.length_cons, bytesOf_succ, bigEndian_cons, bytesOf_mul_add, ih, Nat.mul_comm,
      Nat.mul_add_div (Nat.pow_pos (by decide)), Nat.div_eq_of_lt (bigEndian_lt bs), Nat.add_zero, BitVec.ofNat_toNat,
      BitVec.setWidth_eq]

theorem bytes_eq_bytesOf {bs : List Byte} {n : Nat} (wide : bs.length = n) : bs = bytesOf n (bigEndian bs) := by
  rw [← wide, bytesOf_bigEndian]

theorem drop_of_getElem? {α : Type} {l : List α} {i : Nat} {x : α} (h : l[i]? = some x) :
    l.drop i = x :: l.drop (i + 1) := by
  rw [List.drop_eq_getElem?_toList_append, h]; rfl

/-- A field inside one item reads as it does in the bytes of that item. -/
theorem field_within_item {ws vs : List Nat} (full : vs.length = ws.length) (i : Nat) {start off n w : Nat}
    {bs : List Byte} (long : bs.length = w) (wide : ws[i]? = some w) (item : vs[i]? = some (bigEndian bs))
    (at_ : (ws.take i).sum = start) (inside : off + n ≤ w) :
    field (pack ws vs) (start + off) n = field bs off n := by
  subst long
  have before : (pack (ws.take i) (vs.take i)).length = start := by
    rw [pack_length (by rw [List.length_take, List.length_take, full]), at_]
  rw [pack_split full i, field_skip (by omega), before, Nat.add_sub_cancel_left, drop_of_getElem? wide,
    drop_of_getElem? item, pack_cons, bytesOf_bigEndian, field_left inside]

/-- A field inside the i-th of entries of one width reads as it does in that entry. -/
theorem field_within_flatMap {α : Type} {f : α → List Byte} {w : Nat} (h : ∀ x, (f x).length = w) {l : List α} {x : α}
    {i off n : Nat} (entry : l[i]? = some x) (inside : off + n ≤ w) :
    field (l.flatMap f) (w * i + off) n = field (f x) off n := by
  rw [field, ← List.drop_drop, drop_flatMap h, drop_of_getElem? entry, List.flatMap_cons]
  exact field_left (by rw [h]; exact inside)

/-! ### A byte of flags -/

/-- Flags as bits, the first as bit 0. -/
def flagsOf : List Bool → Nat
  | [] => 0
  | b :: bs => boolNat b + 2 * flagsOf bs

theorem flagsOf_false_cons (bs : List Bool) : flagsOf (false :: bs) = 2 * flagsOf bs := Nat.zero_add _

theorem boolNat_lt (b : Bool) : boolNat b < 2 := by cases b <;> decide

theorem flagsOf_testBit : ∀ (bs : List Bool) (i : Nat), (flagsOf bs).testBit i = bs.getD i false
  | [], i => by simp [flagsOf]
  | b :: bs, 0 => by cases b <;> simp [flagsOf, boolNat, Nat.testBit_zero]
  | b :: bs, i + 1 => by
    have half : (flagsOf (b :: bs)) / 2 = flagsOf bs := by
      have := boolNat_lt b
      rw [flagsOf]; omega
    rw [Nat.testBit_succ, half, flagsOf_testBit bs i]; rfl

theorem flagsOf_lt : ∀ bs : List Bool, flagsOf bs < 2 ^ bs.length
  | [] => Nat.one_pos
  | b :: bs => by
    have := flagsOf_lt bs
    have := boolNat_lt b
    rw [flagsOf, List.length_cons, pow_succ]; omega

/-- Up to eight flags fit a byte. -/
theorem flagsOf_byte {bs : List Bool} (few : bs.length ≤ 8) : flagsOf bs < 256 ^ 1 :=
  (flagsOf_lt bs).trans_le (Nat.pow_le_pow_right (n := 2) (by decide) few)

end Sys2Proof.Machine
end

section
/-! PROOF. The layout of the order record (R192). -/

namespace Sys2Proof.Machine

open Sys2Proof

/-! ### The order record -/

/-- R192: the order that follows a QUEUED one in the run sequence. -/
def nextOf (s : State) (o : Order) : Option Nat :=
  if o.state = .queued then followerIn o.fields.number s.runSeq else none

/-- R192: the widths of an order record's items before its positions. -/
def orderWidths : List Nat := [1, 2, 2, 2, 3, 1, 2, 1, 1, 1, 2, 1, 3, 3, 3, 3, 3, 3, 3, 2, 2, 4, 1, 1, 1]

/-- R192: the items of an order record before its positions. -/
def orderItems (s : State) (o : Order) : List Nat :=
  [o.slot, o.fields.number, o.fields.grade, o.fields.cutLength, o.fields.quantity, o.fields.allowance,
    o.fields.stackSize, orderStateCode o.state, (o.outcome.map outcomeCode).getD 0,
    flagsOf [o.rush, o.cancel, o.stacked, o.attention, o.outcome.isSome, (nextOf s o).isSome], (nextOf s o).getD 0,
    o.segments, o.goodCuts, o.cullCuts, o.byReason.change, o.byReason.gap, o.byReason.joint, o.byReason.host,
    o.byReason.deviation, o.stacksClosed, o.stackFill, o.goodSheets, o.fields.pattern.outs,
    o.fields.pattern.slits.length, o.fields.pattern.scores.length]

theorem orderRecord_eq (s : State) (o : Order) : orderRecord s o
    = pack orderWidths (orderItems s o) ++ (o.fields.pattern.slits ++ o.fields.pattern.scores).flatMap (bytesOf 2) := by
  have flags : ∀ a b c d e f : Bool, boolNat a + 2 * boolNat b + 4 * boolNat c + 8 * boolNat d + 16 * boolNat e
      + 32 * boolNat f = flagsOf [a, b, c, d, e, f] := fun a b c d e f => by simp only [flagsOf]; omega
  unfold orderRecord
  simp only [flags, orderHead, orderItems, orderWidths, nextOf, pack_cons, pack_nil, List.append_assoc,
    List.flatMap_append, List.nil_append]

/-- The follower of the first place where a number stands. -/
theorem followerIn_split {n next : Nat} {rest : List Nat} : ∀ {before : List Nat}, n ∉ before →
    followerIn n (before ++ n :: next :: rest) = some next
  | [], _ => by simp [followerIn]
  | [x], h => by simp [followerIn, Ne.symm (List.ne_of_not_mem_cons h)]
  | x :: y :: before, h => by
    have later := followerIn_split (next := next) (rest := rest) (List.not_mem_of_not_mem_cons h)
    simpa [followerIn, Ne.symm (List.ne_of_not_mem_cons h)] using later

theorem followerIn_mem {n next : Nat} : ∀ {l : List Nat}, followerIn n l = some next → next ∈ l
  | [], h => by cases h
  | [_], h => by cases h
  | x :: y :: l, h => by
    unfold followerIn at h
    split at h
    · cases h; simp
    · exact List.mem_cons_of_mem _ (followerIn_mem h)

theorem nextOf_mem {s : State} {o : Order} {n : Nat} (h : nextOf s o = some n) : n ∈ s.runSeq := by
  unfold nextOf at h
  split at h
  · exact followerIn_mem h
  · cases h

theorem orderStateCode_lt (x : OrderState) : orderStateCode x < 256 := by cases x <;> decide

theorem orderStateCode_eq (x : OrderState) : orderStateCode x
    = match x with
      | .entered => 0 | .queued => 1 | .running => 2 | .suspended => 3 | .done => 4 := by cases x <;> rfl

theorem outcomeCode_lt (x : Option OrderOutcome) : (x.map outcomeCode).getD 0 < 256 := by
  rcases x with _ | _ | _ | _ | _ <;> decide

theorem outcomeCode_eq (x : Option OrderOutcome) : (x.map outcomeCode).getD 0
    = match x with
      | none | some .complete => 0 | some .short => 1 | some .cancelled => 2 | some .aborted => 3 := by
  rcases x with _ | _ | _ | _ | _ <;> rfl

theorem getD_lt {x : Option Nat} {n : Nat} (pos : 0 < n) (h : ∀ v, x = some v → v < n) : x.getD 0 < n := by
  cases x with
  | none => exact pos
  | some v => exact h v rfl

/-- R192: the positions of an order record. -/
theorem field_position {a : List Byte} {ps : List Nat} {i : Nat} (inside : i < ps.length) (fits : ∀ x ∈ ps, x ≤ 65535) :
    field (a ++ ps.flatMap (bytesOf 2)) (a.length + 2 * i) 2 = ps.getD i 0 := by
  have small := fits _ (List.getElem_mem inside)
  rw [field_skip (by omega), Nat.add_sub_cancel_left, field_flatMap (fun _ => bytesOf_length 2 _) inside,
    bigEndian_bytesOf, List.getD_eq_getElem _ _ inside]
  exact Nat.mod_eq_of_lt (by omega)

/-- R25: the ranges of the defining fields, as numbers. -/
theorem valid_iff (d : OrderDef) : d.valid = true ↔ ((1 ≤ d.number ∧ d.number ≤ 65535) ∧ (1 ≤ d.grade ∧ d.grade ≤ 9999)
    ∧ (350 ≤ d.cutLength ∧ d.cutLength ≤ 6000) ∧ (2 ≤ d.pattern.slits.length ∧ d.pattern.slits.length ≤ 8)
    ∧ (∀ x ∈ d.pattern.slits, x ≤ 25000) ∧ d.pattern.scores.length ≤ 12 ∧ (∀ x ∈ d.pattern.scores, x ≤ 25000)
    ∧ (1 ≤ d.quantity ∧ d.quantity ≤ 999999) ∧ d.allowance ≤ 200 ∧ (5 ≤ d.stackSize ∧ d.stackSize ≤ 2000)
    ∧ d.pattern.valid = true) := by
  simp [OrderDef.valid, inRange, quantityOk, stackSizeOk, and_assoc]

theorem orderRecord_layout (s : State) (o : Order) (ranges : orderInRange o) (seq : ∀ n ∈ s.runSeq, n ≤ 65535) :
      let b := orderRecord s o
      b.length = 51 + 2 * (o.fields.pattern.slits.length + o.fields.pattern.scores.length)
      ∧ field b 0 1 = o.slot ∧ field b 1 2 = o.fields.number ∧ field b 3 2 = o.fields.grade
      ∧ field b 5 2 = o.fields.cutLength ∧ field b 7 3 = o.fields.quantity ∧ field b 10 1 = o.fields.allowance
      ∧ field b 11 2 = o.fields.stackSize
      ∧ field b 13 1 = (match o.state with
          | .entered => 0 | .queued => 1 | .running => 2 | .suspended => 3 | .done => 4)
      ∧ field b 14 1 = (match o.outcome with
          | none | some .complete => 0 | some .short => 1 | some .cancelled => 2 | some .aborted => 3)
      ∧ (field b 15 1).testBit 0 = o.rush ∧ (field b 15 1).testBit 1 = o.cancel
      ∧ (field b 15 1).testBit 2 = o.stacked ∧ (field b 15 1).testBit 3 = o.attention
      ∧ (field b 15 1).testBit 4 = o.outcome.isSome
      ∧ (o.state ≠ .queued → (field b 15 1).testBit 5 = false ∧ field b 16 2 = 0)
      ∧ (o.state = .queued → ∀ before rest next, s.runSeq = before ++ o.fields.number :: next :: rest →
          o.fields.number ∉ before → (field b 15 1).testBit 5 = true ∧ field b 16 2 = next)
      ∧ field b 18 1 = o.segments ∧ field b 19 3 = o.goodCuts ∧ field b 22 3 = o.cullCuts
      ∧ field b 25 3 = o.byReason.change ∧ field b 28 3 = o.byReason.gap ∧ field b 31 3 = o.byReason.joint
      ∧ field b 34 3 = o.byReason.host ∧ field b 37 3 = o.byReason.deviation
      ∧ field b 40 2 = o.stacksClosed ∧ field b 42 2 = o.stackFill
      ∧ field b 44 4 = o.goodCuts * (o.fields.pattern.slits.length - 1)
      ∧ field b 48 1 = o.fields.pattern.slits.length - 1
      ∧ field b 49 1 = o.fields.pattern.slits.length ∧ field b 50 1 = o.fields.pattern.scores.length
      ∧ ∀ i, i < (o.fields.pattern.slits ++ o.fields.pattern.scores).length →
          field b (51 + 2 * i) 2 = (o.fields.pattern.slits ++ o.fields.pattern.scores).getD i 0 := by
  intro b
  obtain ⟨slot, valid, segments, good, cull, change, gap, joint, host, deviation, closed, fill⟩ := ranges
  obtain ⟨number, grade, cutLength, slits, slitPlaces, scores, scorePlaces, quantity, allowance, stackSize, -⟩ :=
    (valid_iff o.fields).mp valid
  have full : (orderItems s o).length = orderWidths.length := rfl
  have len : (pack orderWidths (orderItems s o)).length = 51 := pack_length full
  have eq : b = pack orderWidths (orderItems s o) ++ _ := orderRecord_eq s o
  have item : ∀ (i : Nat) {off n v : Nat}, orderWidths[i]? = some n → (orderItems s o)[i]? = some v →
      (orderWidths.take i).sum = off → off + n ≤ 51 → v < 256 ^ n → field b off n = v := fun i _ _ _ wide item at_ inside fits => by
    rw [eq, field_left (by rw [len]; exact inside), field_item full i wide item at_ fits]
  have flags : field b 15 1
      = flagsOf [o.rush, o.cancel, o.stacked, o.attention, o.outcome.isSome, (nextOf s o).isSome] :=
    item 9 rfl rfl rfl (by decide) (flagsOf_byte (by simp))
  have next : field b 16 2 = (nextOf s o).getD 0 :=
    item 10 rfl rfl rfl (by decide) (getD_lt (by decide) fun n h => Nat.lt_succ_of_le (seq n (nextOf_mem h)))
  have outs : o.fields.pattern.slits.length - 1 ≤ 7 := by omega
  have sheets : o.goodCuts * (o.fields.pattern.slits.length - 1) < 256 ^ 4 :=
    (Nat.mul_le_mul good outs).trans_lt (by decide)
  have places : ∀ x ∈ o.fields.pattern.slits ++ o.fields.pattern.scores, x ≤ 65535 := fun x mem => by
    rcases List.mem_append.mp mem with h | h
    · exact (slitPlaces x h).trans (by decide)
    · exact (scorePlaces x h).trans (by decide)
  refine ⟨?_, item 0 rfl rfl rfl (by decide) (by omega), item 1 rfl rfl rfl (by decide) (by omega),
    item 2 rfl rfl rfl (by decide) (by omega), item 3 rfl rfl rfl (by decide) (by omega), item 4 rfl rfl rfl (by decide) (by omega),
    item 5 rfl rfl rfl (by decide) (by omega), item 6 rfl rfl rfl (by decide) (by omega), ?_, ?_,
    ?_, ?_, ?_, ?_, ?_, ?_, ?_, item 11 rfl rfl rfl (by decide) (by omega), item 12 rfl rfl rfl (by decide) (by omega),
    item 13 rfl rfl rfl (by decide) (by omega), item 14 rfl rfl rfl (by decide) (by omega), item 15 rfl rfl rfl (by decide) (by omega),
    item 16 rfl rfl rfl (by decide) (by omega), item 17 rfl rfl rfl (by decide) (by omega), item 18 rfl rfl rfl (by decide) (by omega),
    item 19 rfl rfl rfl (by decide) (by omega), item 20 rfl rfl rfl (by decide) (by omega), item 21 rfl rfl rfl (by decide) sheets,
    item 22 rfl rfl rfl (by decide) (outs.trans_lt (by decide)), item 23 rfl rfl rfl (by decide) (by omega), item 24 rfl rfl rfl (by decide) (by omega), ?_⟩
  · rw [eq, List.length_append, len, length_flatMap_const (bytesOf_length 2), List.length_append]
  · exact (item 7 rfl rfl rfl (by decide) (orderStateCode_lt _)).trans (orderStateCode_eq _)
  · exact (item 8 rfl rfl rfl (by decide) (outcomeCode_lt _)).trans (outcomeCode_eq _)
  iterate 5 rw [flags, flagsOf_testBit]; rfl
  · intro h
    have last : nextOf s o = none := if_neg h
    rw [flags, flagsOf_testBit, next, last]
    exact ⟨rfl, rfl⟩
  · intro queued before rest n split fresh
    have here : nextOf s o = some n := by rw [nextOf, if_pos queued, split, followerIn_split fresh]
    rw [flags, flagsOf_testBit, next, here]
    exact ⟨rfl, rfl⟩
  · intro i inside
    rw [eq, ← len]
    exact field_position inside places

end Sys2Proof.Machine
end

section
/-! PROOF. The layouts of the mark records (R17, R192). -/

namespace Sys2Proof.Machine

open Sys2Proof

/-! ### The next crossing (R17) -/

theorem crossing_ended_iff {e : CrossEntry} : e.isPending = false ↔ e.status = .done ∨ e.status = .silent := by
  unfold CrossEntry.isPending
  cases e.status <;> simp

theorem crossing_pending_iff {e : CrossEntry} : e.isPending = true ↔ e.status = .pending ∨ e.status = .rearmed := by
  unfold CrossEntry.isPending
  cases e.status <;> simp

/-- R192: the code of a crossing, name by name. -/
theorem crossCode_eq (c : Cross) : crossCode c = (match c with
    | .freeze => 1
    | .ph .l1 => 2 | .ph .m1 => 3 | .ph .l2 => 4 | .ph .m2 => 5 | .ph .l3 => 6
    | .glue .g1 => 7 | .glue .g2 => 8 | .glue .g3 => 9
    | .decision => 10
    | .knife => 11) := by
  rcases c with _ | k | g | _ | _
  case ph => cases k <;> rfl
  case glue => cases g <;> rfl
  all_goals rfl

theorem nextCrossingCode_isNext (es : List CrossEntry) : isNextCrossing es (nextCrossingCode es) := by
  constructor
  · intro before e after split pending ended
    have skip : before.find? CrossEntry.isPending = none :=
      List.find?_eq_none.mpr fun x mem => by rw [crossing_ended_iff.mpr (ended x mem)]; decide
    rw [nextCrossingCode, split, List.find?_append, skip, Option.none_or,
      List.find?_cons_of_pos (crossing_pending_iff.mpr pending)]
    exact crossCode_eq e.name
  · intro ended
    have skip : es.find? CrossEntry.isPending = none :=
      List.find?_eq_none.mpr fun x mem => by rw [crossing_ended_iff.mpr (ended x mem)]; decide
    rw [nextCrossingCode, skip]

theorem crossCode_lt (c : Cross) : crossCode c < 256 := by
  rcases c with _ | k | g | _ | _
  case ph => cases k <;> decide
  case glue => cases g <;> decide
  all_goals decide

theorem nextCrossingCode_lt (es : List CrossEntry) : nextCrossingCode es < 256 := by
  unfold nextCrossingCode
  split
  · exact crossCode_lt _
  · decide

theorem markStateCode_lt (x : MarkState) : markStateCode x < 4 := by cases x <;> decide

theorem markStateCode_eq (x : MarkState) : markStateCode x = (match x with
    | .provisional => 0 | .frozen => 1 | .runOut => 2) := by cases x <;> rfl

/-! ### The mark records (R192) -/

theorem coordOr0_eq_pack (c : Option Coord) : coordOr0 c = pack [4] [(c.getD 0#32).toNat] := coordBytes_eq_pack _

def changeWidths : List Nat := [1, 1, 4, 4, 2, 4, 2, 2, 4, 2, 3, 1]

/-- R192: the items of the record of a CHANGE mark. -/
def changeItems (m : ChangeMark) : List Nat :=
  [1, 4 * flagsOf [m.pinned, m.length.isSome, m.outgoing.isSome, m.incoming.isSome] + markStateCode m.state, m.p.toNat,
    (m.stop.getD 0#32).toNat, (m.outgoing.map (·.order)).getD 0, ((m.outgoing.map (·.start)).getD 0#32).toNat,
    (m.outgoing.map (·.cutLength)).getD 0, m.incoming.getD 0, m.xEx.toNat, m.extensions, m.waste,
    nextCrossingCode m.crossings]

theorem changeRecord_eq (m : ChangeMark) : markRecord (.change m) = pack changeWidths (changeItems m) := by
  have flags : ∀ (n : Nat) (a b c d : Bool), n + 4 * boolNat a + 8 * boolNat b + 16 * boolNat c + 32 * boolNat d
      = 4 * flagsOf [a, b, c, d] + n := fun n a b c d => by simp only [flagsOf]; omega
  unfold markRecord
  simp only [flags, changeItems, changeWidths, coordOr0, coordBytes, byteOf, pack_cons, pack_nil, List.append_assoc,
    List.append_nil]

theorem changeRecord_layout (m : ChangeMark) (extensions : m.extensions ≤ 65535) (waste : m.waste ≤ 16777215)
    (incoming : ∀ n, m.incoming = some n → n ≤ 65535)
    (outgoing : ∀ o, m.outgoing = some o → o.order ≤ 65535 ∧ o.cutLength ≤ 65535) :
        let b := markRecord (.change m)
        b.length = 30 ∧ field b 0 1 = 1
        ∧ field b 1 1 % 4 = (match m.state with
            | .provisional => 0 | .frozen => 1 | .runOut => 2)
        ∧ (field b 1 1).testBit 2 = m.pinned ∧ (field b 1 1).testBit 3 = m.length.isSome
        ∧ (field b 1 1).testBit 4 = m.outgoing.isSome ∧ (field b 1 1).testBit 5 = m.incoming.isSome
        ∧ coordField b 2 = m.p
        ∧ coordField b 6 = (match m.length with
            | some g => plusMm m.p g
            | none => 0#32)
        ∧ field b 10 2 = (m.outgoing.map (·.order)).getD 0 ∧ coordField b 12 = (m.outgoing.map (·.start)).getD 0#32
        ∧ field b 16 2 = (m.outgoing.map (·.cutLength)).getD 0 ∧ field b 18 2 = m.incoming.getD 0
        ∧ coordField b 20 = m.xEx ∧ field b 24 2 = m.extensions ∧ field b 26 3 = m.waste
        ∧ isNextCrossing m.crossings (field b 29 1) := by
  intro b
  have full : (changeItems m).length = changeWidths.length := rfl
  have eq : b = pack changeWidths (changeItems m) := changeRecord_eq m
  rw [eq]
  have few : flagsOf [m.pinned, m.length.isSome, m.outgoing.isSome, m.incoming.isSome] < 2 ^ 4 := flagsOf_lt _
  have state := markStateCode_lt m.state
  have flags := field_item full 1 (off := 1) (n := 1) rfl rfl rfl (by omega)
  have bit : ∀ i, (field (pack changeWidths (changeItems m)) 1 1).testBit (i + 2)
      = [m.pinned, m.length.isSome, m.outgoing.isSome, m.incoming.isSome].getD i false := fun i => by
    rw [flags, ← flagsOf_testBit, show (4 : Nat) = 2 ^ 2 from rfl, Nat.testBit_two_pow_mul_add _ state,
      if_neg (by omega), Nat.add_sub_cancel]
  have order : (m.outgoing.map (·.order)).getD 0 < 256 ^ 2 := getD_lt (by decide) fun v h => by
    obtain ⟨o, found, rfl⟩ := Option.map_eq_some_iff.mp h
    exact Nat.lt_succ_of_le (outgoing o found).1
  have cutLength : (m.outgoing.map (·.cutLength)).getD 0 < 256 ^ 2 := getD_lt (by decide) fun v h => by
    obtain ⟨o, found, rfl⟩ := Option.map_eq_some_iff.mp h
    exact Nat.lt_succ_of_le (outgoing o found).2
  have next : m.incoming.getD 0 < 256 ^ 2 := getD_lt (by decide) fun v h => Nat.lt_succ_of_le (incoming v h)
  have crossing := field_item full 11 (off := 29) (n := 1) rfl rfl rfl (nextCrossingCode_lt m.crossings)
  refine ⟨pack_length full, field_item full 0 rfl rfl rfl (by decide), ?_, bit 0, bit 1, bit 2, bit 3,
    coordField_item full 2 rfl rfl rfl, ?_, field_item full 4 rfl rfl rfl order, coordField_item full 5 rfl rfl rfl,
    field_item full 6 rfl rfl rfl cutLength, field_item full 7 rfl rfl rfl next, coordField_item full 8 rfl rfl rfl,
    field_item full 9 rfl rfl rfl (by omega), field_item full 10 rfl rfl rfl (by omega), ?_⟩
  · rw [flags, Nat.mul_add_mod, Nat.mod_eq_of_lt state]
    exact markStateCode_eq _
  · refine (coordField_item full 3 rfl rfl rfl).trans ?_
    rw [ChangeMark.stop]
    cases m.length <;> rfl
  · rw [crossing]; exact nextCrossingCode_isNext _

theorem standOf_standCode (k : Stand) : standOf (standCode k) = some k := by cases k <;> rfl
theorem standCode_lt (k : Stand) : standCode k < 256 := by cases k <;> decide

def jointWidths : List Nat := [1, 1, 4, 4, 4, 1, 2, 2, 1, 10]

/-- R192: the items of the record of a JOINT mark. -/
def jointItems (m : JointMark) : List Nat :=
  [2, 8, (m.joint - BitVec.ofNat 32 m.cullBefore).toNat, (m.joint + BitVec.ofNat 32 m.cullAfter).toNat, m.joint.toNat,
    standCode m.stand, m.cullBefore, m.cullAfter, nextCrossingCode m.crossings, 0]

theorem jointRecord_eq (m : JointMark) : markRecord (.joint m) = pack jointWidths (jointItems m) := by
  have start : (Mark.joint m).start = m.joint - BitVec.ofNat 32 m.cullBefore := by
    simp [Mark.start, shiftBy, BitVec.ofInt_neg, BitVec.sub_eq_add_neg]
  have stop : (Mark.joint m).stop = some (m.joint + BitVec.ofNat 32 m.cullAfter) := rfl
  unfold markRecord
  simp only [start, stop, Option.getD_some, jointItems, jointWidths, coordOr0, coordBytes, byteOf, zeros_eq_pack,
    pack_cons, pack_nil, List.append_assoc, List.append_nil]

theorem jointRecord_layout (m : JointMark) (cullBefore : m.cullBefore ≤ 5000) (cullAfter : m.cullAfter ≤ 5000) :
        let b := markRecord (.joint m)
        b.length = 30 ∧ field b 0 1 = 2 ∧ field b 1 1 = 8
        ∧ coordField b 2 = m.joint - BitVec.ofNat 32 m.cullBefore
        ∧ coordField b 6 = m.joint + BitVec.ofNat 32 m.cullAfter
        ∧ coordField b 10 = m.joint ∧ standOf (field b 14 1) = some m.stand ∧ field b 15 2 = m.cullBefore
        ∧ field b 17 2 = m.cullAfter ∧ isNextCrossing m.crossings (field b 19 1) ∧ field b 20 10 = 0 := by
  intro b
  have full : (jointItems m).length = jointWidths.length := rfl
  have eq : b = pack jointWidths (jointItems m) := jointRecord_eq m
  rw [eq]
  have stand := field_item full 5 (off := 14) (n := 1) rfl rfl rfl (standCode_lt m.stand)
  have crossing := field_item full 8 (off := 19) (n := 1) rfl rfl rfl (nextCrossingCode_lt m.crossings)
  exact ⟨pack_length full, field_item full 0 rfl rfl rfl (by decide), field_item full 1 rfl rfl rfl (by decide),
    coordField_item full 2 rfl rfl rfl, coordField_item full 3 rfl rfl rfl, coordField_item full 4 rfl rfl rfl,
    by rw [stand, standOf_standCode], field_item full 6 rfl rfl rfl (by omega),
    field_item full 7 rfl rfl rfl (by omega), by rw [crossing]; exact nextCrossingCode_isNext _,
    field_item full 9 rfl rfl rfl (by decide)⟩

def gapWidths : List Nat := [1, 1, 4, 4, 4, 1, 15]

/-- R192: the items of the record of a GAP mark. -/
def gapItems (m : GapMark) : List Nat :=
  [3, 8, m.start.toNat, (m.start + BitVec.ofNat 32 m.length).toNat, m.length, standCode m.stand, 0]

theorem gapRecord_eq (m : GapMark) : markRecord (.gap m) = pack gapWidths (gapItems m) := by
  have start : (Mark.gap m).start = m.start := rfl
  have stop : (Mark.gap m).stop = some (m.start + BitVec.ofNat 32 m.length) := rfl
  unfold markRecord
  simp only [start, stop, Option.getD_some, gapItems, gapWidths, coordOr0, coordBytes, byteOf, zeros_eq_pack, pack_cons,
    pack_nil, List.append_assoc, List.append_nil]

theorem gapRecord_layout (m : GapMark) (short : m.length ≤ 1000000) :
        let b := markRecord (.gap m)
        b.length = 30 ∧ field b 0 1 = 3 ∧ field b 1 1 = 8 ∧ coordField b 2 = m.start
        ∧ coordField b 6 = m.start + BitVec.ofNat 32 m.length ∧ field b 10 4 = m.length
        ∧ standOf (field b 14 1) = some m.stand ∧ field b 15 15 = 0 := by
  intro b
  have full : (gapItems m).length = gapWidths.length := rfl
  have eq : b = pack gapWidths (gapItems m) := gapRecord_eq m
  rw [eq]
  have stand := field_item full 5 (off := 14) (n := 1) rfl rfl rfl (standCode_lt m.stand)
  exact ⟨pack_length full, field_item full 0 rfl rfl rfl (by decide), field_item full 1 rfl rfl rfl (by decide),
    coordField_item full 2 rfl rfl rfl, coordField_item full 3 rfl rfl rfl, field_item full 4 rfl rfl rfl (by omega),
    by rw [stand, standOf_standCode], field_item full 6 rfl rfl rfl (by decide)⟩

def hostWidths : List Nat := [1, 1, 4, 4, 4, 16]

/-- R192: the items of the record of a HOST mark. -/
def hostItems (m : HostMark) : List Nat :=
  [4, 8, m.start.toNat, (m.start + BitVec.ofNat 32 m.length).toNat, m.length, 0]

theorem hostRecord_eq (m : HostMark) : markRecord (.host m) = pack hostWidths (hostItems m) := by
  have start : (Mark.host m).start = m.start := rfl
  have stop : (Mark.host m).stop = some (m.start + BitVec.ofNat 32 m.length) := rfl
  unfold markRecord
  simp only [start, stop, Option.getD_some, hostItems, hostWidths, coordOr0, coordBytes, byteOf, zeros_eq_pack, pack_cons,
    pack_nil, List.append_assoc, List.append_nil]

theorem hostRecord_layout (m : HostMark) (short : m.length ≤ 1000000) :
        let b := markRecord (.host m)
        b.length = 30 ∧ field b 0 1 = 4 ∧ field b 1 1 = 8 ∧ coordField b 2 = m.start
        ∧ coordField b 6 = m.start + BitVec.ofNat 32 m.length ∧ field b 10 4 = m.length ∧ field b 14 16 = 0 := by
  intro b
  have full : (hostItems m).length = hostWidths.length := rfl
  have eq : b = pack hostWidths (hostItems m) := hostRecord_eq m
  rw [eq]
  exact ⟨pack_length full, field_item full 0 rfl rfl rfl (by decide), field_item full 1 rfl rfl rfl (by decide),
    coordField_item full 2 rfl rfl rfl, coordField_item full 3 rfl rfl rfl, field_item full 4 rfl rfl rfl (by omega),
    field_item full 5 rfl rfl rfl (by decide)⟩

end Sys2Proof.Machine
end

section
/-! PROOF. The layouts of the reel record and of the error record (R192). -/

namespace Sys2Proof.Machine

open Sys2Proof

/-! ### The reel record -/

/-- R192: the stale flag and the splice count of a running reel. -/
def runningItems : Reel → Option (Bool × Nat)
  | .running _ stale n => some (stale, n)
  | _ => none

/-- R192: the reel an empty slot last held. -/
def spentItems : Reel → Option SpentReel
  | .empty x => x
  | _ => none

def reelWidths : List Nat := [1, 1, 1, 1, 1, 4, 4, 2, 2, 2, 2, 3, 2, 3, 4, 3]

/-- R192: the flags of a reel record. -/
def reelFlags (r : Reel) (attention : Bool) : List Bool :=
  [(r.paper?.map (·.limited)).getD false, ((runningItems r).map (·.1)).getD false, r.force, attention]

/-- R192: which items of a reel record are present. -/
def reelPresence (r : Reel) : List Bool :=
  [r.readId?.isSome, r.announcement?.isSome, r.diameter?.isSome, r.paper?.isSome, (runningItems r).isSome,
    (spentItems r).isSome]

/-- R192: the items of the record of a reel in a place and a role. -/
def reelItems (place role : Nat) (attention : Bool) (r : Reel) : List Nat :=
  [place, reelStateCode r, role, flagsOf (reelFlags r attention), flagsOf (reelPresence r), r.readId?.getD 0,
    (r.announcement?.map (·.id)).getD 0, (r.announcement?.map (·.code)).getD 0, (r.announcement?.map (·.caliper)).getD 0,
    (r.announcement?.map (·.core)).getD 0, r.diameter?.getD 0, (r.paper?.map (·.remaining)).getD 0,
    (r.paper?.map (·.residue)).getD 0, ((runningItems r).map (·.2)).getD 0, ((spentItems r).map (·.id)).getD 0,
    ((spentItems r).map (·.length)).getD 0]

/-- R192: the role of a slot. -/
def roleCode (s : State) (k : Stand) (p : Pos) : Nat :=
  if s.runningPos k = some p then 1 else if s.runningPos k = some p.other then 2 else 0

theorem readyPos_iff {s : State} {k : Stand} {p : Pos} : s.readyPos k = some p ↔ s.runningPos k = some p.other := by
  unfold State.readyPos
  cases s.runningPos k with
  | none => simp
  | some q => cases p <;> cases q <;> decide

theorem reelRecord_eq (s : State) (k : Stand) (p : Pos) : reelRecord s k p
    = pack reelWidths (reelItems (2 * k.idx + p.idx) (roleCode s k p) (s.slot k p).attention (s.slot k p).reel) := by
  have flags : ∀ a b c d : Bool, boolNat a + 2 * boolNat b + 4 * boolNat c + 8 * boolNat d = flagsOf [a, b, c, d] :=
    fun a b c d => by simp only [flagsOf]; omega
  have presence : ∀ a b c d e f : Bool, flagsOf [a, b, c, d] + 16 * boolNat e + 32 * boolNat f
      = flagsOf [a, b, c, d, e, f] := fun a b c d e f => by simp only [flagsOf]; omega
  unfold reelRecord
  simp only [presence, flags, readyPos_iff, reelItems, reelWidths, reelFlags, reelPresence, roleCode, byteOf, pack_cons,
    pack_nil, List.append_assoc, List.append_nil]
  cases (s.slot k p).reel <;> rfl

theorem reelStateCode_lt (r : Reel) : reelStateCode r < 256 := by cases r <;> simp [reelStateCode]

theorem reelStateCode_eq (r : Reel) : reelStateCode r = (match r with
    | .empty _ => 0 | .loaded _ _ => 1 | .announced _ => 2 | .verified _ => 3 | .mismatch _ _ _ => 4
    | .running _ _ _ => 5 | .unidentified _ _ => 6 | .exhausted _ => 7) := by cases r <;> rfl

theorem place_lt (k : Stand) (p : Pos) : 2 * k.idx + p.idx < 256 := by cases k <;> cases p <;> decide

theorem roleCode_lt (s : State) (k : Stand) (p : Pos) : roleCode s k p < 256 := by
  unfold roleCode
  split
  · decide
  · split <;> decide

theorem reelRecord_layout (s : State) (k : Stand) (p : Pos) :
        let r := (s.slot k p).reel
        let b := reelRecord s k p
        b.length = 36
        ∧ field b 0 1 = 2 * k.idx + p.idx
        ∧ field b 1 1 = (match r with
            | .empty _ => 0 | .loaded _ _ => 1 | .announced _ => 2 | .verified _ => 3 | .mismatch _ _ _ => 4
            | .running _ _ _ => 5 | .unidentified _ _ => 6 | .exhausted _ => 7)
        ∧ field b 2 1 = (if s.runningPos k = some p then 1 else if s.runningPos k = some p.other then 2 else 0)
        ∧ (field b 3 1).testBit 3 = (s.slot k p).attention
        ∧ (∀ q stale n, r = .running q stale n → q.readId < 4294967296 → q.ann.id < 4294967296 → q.ann.code ≤ 65535 →
            q.ann.caliper ≤ 65535 → q.ann.core ≤ 65535 → q.diameter ≤ 65535 → q.remaining ≤ 16777215 →
            q.residue ≤ 65535 → n ≤ 16777215 →
            (field b 3 1).testBit 0 = q.limited ∧ (field b 3 1).testBit 1 = stale ∧ (field b 3 1).testBit 2 = false
            ∧ field b 4 1 = 31 ∧ field b 5 4 = q.readId ∧ field b 9 4 = q.ann.id ∧ field b 13 2 = q.ann.code
            ∧ field b 15 2 = q.ann.caliper ∧ field b 17 2 = q.ann.core ∧ field b 19 2 = q.diameter
            ∧ field b 21 3 = q.remaining ∧ field b 24 2 = q.residue ∧ field b 26 3 = n ∧ field b 29 7 = 0)
        ∧ (∀ id a d, r = .mismatch id a d → id < 4294967296 → a.id < 4294967296 → d ≤ 65535 →
            (field b 3 1).testBit 0 = false ∧ (field b 3 1).testBit 1 = false ∧ (field b 3 1).testBit 2 = a.force
            ∧ field b 4 1 = 7 ∧ field b 5 4 = id ∧ field b 9 4 = a.id ∧ field b 19 2 = d ∧ field b 21 15 = 0)
        ∧ (∀ x, r = .empty (some x) → x.id < 4294967296 → x.length ≤ 16777215 →
            field b 4 1 = 32 ∧ field b 5 24 = 0 ∧ field b 29 4 = x.id ∧ field b 33 3 = x.length)
        ∧ (r = .empty none → field b 4 32 = 0)
        ∧ (∀ id d, (r = .loaded id d ∨ r = .unidentified id d) → id < 4294967296 → d ≤ 65535 →
            field b 3 1 % 8 = 0 ∧ field b 4 1 = 5 ∧ field b 5 4 = id ∧ field b 9 10 = 0 ∧ field b 19 2 = d
            ∧ field b 21 15 = 0)
        ∧ (∀ a, r = .announced a → a.id < 4294967296 → a.code ≤ 65535 → a.caliper ≤ 65535 → a.core ≤ 65535 →
            field b 3 1 % 4 = 0 ∧ (field b 3 1).testBit 2 = a.force ∧ field b 4 1 = 2 ∧ field b 5 4 = 0
            ∧ field b 9 4 = a.id ∧ field b 13 2 = a.code ∧ field b 15 2 = a.caliper ∧ field b 17 2 = a.core
            ∧ field b 19 17 = 0)
        ∧ (∀ q, (r = .verified q ∨ r = .exhausted q) → q.readId < 4294967296 → q.ann.id < 4294967296 →
            q.diameter ≤ 65535 → q.remaining ≤ 16777215 → q.residue ≤ 65535 →
            (field b 3 1).testBit 0 = q.limited ∧ (field b 3 1).testBit 1 = false ∧ (field b 3 1).testBit 2 = false
            ∧ field b 4 1 = 15 ∧ field b 5 4 = q.readId ∧ field b 9 4 = q.ann.id ∧ field b 19 2 = q.diameter
            ∧ field b 21 3 = q.remaining ∧ field b 24 2 = q.residue ∧ field b 26 10 = 0) := by
  dsimp only
  rw [reelRecord_eq]
  have place := place_lt k p
  have role := roleCode_lt s k p
  generalize (s.slot k p).attention = attention
  generalize (s.slot k p).reel = r
  have full : (reelItems (2 * k.idx + p.idx) (roleCode s k p) attention r).length = reelWidths.length := rfl
  have flags : field (pack reelWidths (reelItems (2 * k.idx + p.idx) (roleCode s k p) attention r)) 3 1
      = flagsOf (reelFlags r attention) := field_item full 3 rfl rfl rfl (flagsOf_byte (by simp [reelFlags]))
  have bit : ∀ i, (field (pack reelWidths (reelItems (2 * k.idx + p.idx) (roleCode s k p) attention r)) 3 1).testBit i
      = (reelFlags r attention).getD i false := fun i => by rw [flags, flagsOf_testBit]
  refine ⟨pack_length full, field_item full 0 rfl rfl rfl place,
    (field_item full 1 rfl rfl rfl (reelStateCode_lt r)).trans (reelStateCode_eq r), field_item full 2 rfl rfl rfl role,
    bit 3, ?_, ?_, ?_, ?_, ?_, ?_, ?_⟩
  · rintro q stale n rfl readId id code caliper core diameter remaining residue count
    exact ⟨bit 0, bit 1, bit 2, field_item full 4 rfl rfl rfl (by decide), field_item full 5 rfl rfl rfl readId,
      field_item full 6 rfl rfl rfl id, field_item full 7 rfl rfl rfl (by omega), field_item full 8 rfl rfl rfl (by omega),
      field_item full 9 rfl rfl rfl (by omega), field_item full 10 rfl rfl rfl (by omega),
      field_item full 11 rfl rfl rfl (by omega), field_item full 12 rfl rfl rfl (by omega),
      field_item full 13 rfl rfl rfl (by omega), field_zero_items full 14 2 rfl rfl rfl⟩
  · rintro id a d rfl readId announced diameter
    exact ⟨bit 0, bit 1, bit 2, field_item full 4 rfl rfl rfl (by decide), field_item full 5 rfl rfl rfl readId,
      field_item full 6 rfl rfl rfl announced, field_item full 10 rfl rfl rfl (by omega),
      field_zero_items full 11 5 rfl rfl rfl⟩
  · rintro x rfl id length
    exact ⟨field_item full 4 rfl rfl rfl (by decide), field_zero_items full 5 9 rfl rfl rfl,
      field_item full 14 rfl rfl rfl id, field_item full 15 rfl rfl rfl (by omega)⟩
  · rintro rfl
    exact field_zero_items full 4 12 rfl rfl rfl
  · have low : reelFlags r attention = [false, false, false, attention] → field (pack reelWidths
        (reelItems (2 * k.idx + p.idx) (roleCode s k p) attention r)) 3 1 % 8 = 0 := fun h => by
      rw [flags, h, flagsOf_false_cons, flagsOf_false_cons, flagsOf_false_cons]; omega
    rintro id d (rfl | rfl) readId diameter <;>
    exact ⟨low rfl, field_item full 4 rfl rfl rfl (by decide), field_item full 5 rfl rfl rfl readId,
      field_zero_items full 6 4 rfl rfl rfl, field_item full 10 rfl rfl rfl (by omega),
      field_zero_items full 11 5 rfl rfl rfl⟩
  · rintro a rfl id code caliper core
    have low : field (pack reelWidths (reelItems (2 * k.idx + p.idx) (roleCode s k p) attention (.announced a))) 3 1 % 4
        = 0 := by
      rw [flags, show reelFlags (.announced a) attention = [false, false, a.force, attention] from rfl,
        flagsOf_false_cons, flagsOf_false_cons]
      omega
    exact ⟨low, bit 2, field_item full 4 rfl rfl rfl (by decide), field_zero_items full 5 1 rfl rfl rfl,
      field_item full 6 rfl rfl rfl id, field_item full 7 rfl rfl rfl (by omega), field_item full 8 rfl rfl rfl (by omega),
      field_item full 9 rfl rfl rfl (by omega), field_zero_items full 10 6 rfl rfl rfl⟩
  · rintro q (rfl | rfl) readId id diameter remaining residue <;>
    exact ⟨bit 0, bit 1, bit 2, field_item full 4 rfl rfl rfl (by decide), field_item full 5 rfl rfl rfl readId,
      field_item full 6 rfl rfl rfl id, field_item full 10 rfl rfl rfl (by omega), field_item full 11 rfl rfl rfl (by omega),
      field_item full 12 rfl rfl rfl (by omega), field_zero_items full 13 3 rfl rfl rfl⟩

/-! ### The error record -/

def errorWidths : List Nat := [1, 1, 1, 2, 4]

/-- R192: the type and the value of the object of a raise. -/
def objectItems : ErrorObject → Nat × Nat
  | .none => (0, 0)
  | .order n => (1, n)
  | .stand k => (2, standCode k)
  | .station st => (3, stationCode st)
  | .address a => (4, a)

/-- R192: the items of a held first-error record. -/
def errorItems (e : FirstError) : List Nat :=
  [e.kind.number, flagsOf [true, e.unreported, e.overflow], (objectItems e.object).1, (objectItems e.object).2,
    e.odometer.toNat]

theorem errorRecord_eq (e : FirstError) : errorRecord (some e) = pack errorWidths (errorItems e) := by
  have flags : ∀ a b : Bool, 1 + 2 * boolNat a + 4 * boolNat b = flagsOf [true, a, b] := fun a b => by
    simp only [flagsOf, show boolNat true = 1 from rfl]; omega
  have object : objectBytes e.object = bytesOf 1 (objectItems e.object).1 ++ bytesOf 2 (objectItems e.object).2 := by
    cases e.object <;> rfl
  unfold errorRecord
  simp only [flags, object, errorItems, errorWidths, byteOf, coordBytes, pack_cons, pack_nil, List.append_assoc,
    List.append_nil]

theorem stationOf_stationCode (st : Station) : stationOf (stationCode st) = some st := by cases st <;> rfl

theorem errorKind_number_lt (e : ErrorKind) : e.number < 256 := by cases e <;> decide

theorem errorRecord_layout (e : FirstError) (order : ∀ n, e.object = .order n → n ≤ 65535)
    (address : ∀ n, e.object = .address n → n ≤ 65535) :
        let b := errorRecord (some e)
        b.length = 9 ∧ field b 0 1 = e.kind.number ∧ (field b 1 1).testBit 0 = true
        ∧ (field b 1 1).testBit 1 = e.unreported ∧ (field b 1 1).testBit 2 = e.overflow
        ∧ (match e.object with
            | .none => field b 2 3 = 0
            | .order n => field b 2 1 = 1 ∧ field b 3 2 = n
            | .stand k => field b 2 1 = 2 ∧ standOf (field b 3 2) = some k
            | .station st => field b 2 1 = 3 ∧ stationOf (field b 3 2) = some st
            | .address n => field b 2 1 = 4 ∧ field b 3 2 = n)
        ∧ coordField b 5 = e.odometer := by
  intro b
  rw [show b = _ from errorRecord_eq e]
  have full : (errorItems e).length = errorWidths.length := rfl
  have bit : ∀ i, (field (pack errorWidths (errorItems e)) 1 1).testBit i
      = [true, e.unreported, e.overflow].getD i false := fun i =>
    (congrArg (·.testBit i) (field_item full 1 rfl rfl rfl (flagsOf_byte (by simp)))).trans (flagsOf_testBit _ i)
  have kind : ∀ v, (objectItems e.object).1 = v → v < 256 → field (pack errorWidths (errorItems e)) 2 1 = v :=
    fun v is small => field_item full 2 rfl (congrArg some is) rfl small
  have value : ∀ v, (objectItems e.object).2 = v → v ≤ 65535 → field (pack errorWidths (errorItems e)) 3 2 = v :=
    fun v is small => field_item full 3 rfl (congrArg some is) rfl (Nat.lt_succ_of_le small)
  refine ⟨pack_length full, field_item full 0 rfl rfl rfl (errorKind_number_lt _), bit 0, bit 1, bit 2, ?_,
    coordField_item full 4 rfl rfl rfl⟩
  split
  case h_1 none_ => exact field_zero_items full 2 2 rfl rfl (by simp [errorItems, none_, objectItems])
  case h_2 n is => exact ⟨kind 1 (by rw [is]; rfl) (by decide), value n (by rw [is]; rfl) (order n is)⟩
  case h_3 k is =>
    have small : standCode k ≤ 65535 := (standCode_lt k).le.trans (by decide)
    exact ⟨kind 2 (by rw [is]; rfl) (by decide), by rw [value _ (by rw [is]; rfl) small, standOf_standCode]⟩
  case h_4 st is =>
    have small : stationCode st ≤ 65535 := by cases st <;> decide
    exact ⟨kind 3 (by rw [is]; rfl) (by decide), by rw [value _ (by rw [is]; rfl) small, stationOf_stationCode]⟩
  case h_5 n is => exact ⟨kind 4 (by rw [is]; rfl) (by decide), value n (by rw [is]; rfl) (address n is)⟩

end Sys2Proof.Machine
end

section
/-! PROOF. The layouts of a sequencer, of a grade and of a station (R121, R53, R138). -/

namespace Sys2Proof.Machine

open Sys2Proof

/-! ### The items of READ STAND -/

/-- The grade code a stand asks for, as a number. -/
def requiredCode : Required → Nat
  | .any => Config.anyGradeCode.toNat
  | .code n => n

/-- The length of the zone of the mark that a plan is for. -/
def zoneLength (s : State) (x : Option Plan) : Option Nat :=
  x.bind fun p => (s.findChange p.mark).bind (·.length)

theorem spliceItems_eq (x : Option Splice) :
    optional 5 (x.map fun x => codeByte .spliceKind (kindIndex x.kind) ++ coordBytes x.due)
    = pack [1, 1, 4] [boolNat x.isSome, (x.map fun x => (Config.enumCode .spliceKind (kindIndex x.kind)).toNat).getD 0,
        (x.map (·.due.toNat)).getD 0] := by
  rw [← Option.isSome_map]
  refine optional_eq_pack (ws := [1, 4]) rfl (fun bs here => ?_) (fun absent => ?_)
  · obtain ⟨y, rfl, rfl⟩ := Option.map_eq_some_iff.mp here
    rw [codeByte_eq_pack, coordBytes_eq_pack]; rfl
  · rw [Option.map_eq_none_iff.mp absent]; simp

theorem planItems_eq (s : State) (x : Option Plan) :
    optional 15 (x.map fun p => bytesOf 2 p.code ++ coordBytes p.due ++ coordBytes p.p
      ++ optional 4 (((s.findChange p.mark).bind (·.length)).map (bytesOf 4)))
    = pack [1, 2, 4, 4, 1, 4] [boolNat x.isSome, (x.map (·.code)).getD 0, (x.map (·.due.toNat)).getD 0,
        (x.map (·.p.toNat)).getD 0, boolNat (zoneLength s x).isSome, (zoneLength s x).getD 0] := by
  rw [← Option.isSome_map]
  refine optional_eq_pack (ws := [2, 4, 4, 1, 4]) rfl (fun bs here => ?_) (fun absent => ?_)
  · obtain ⟨y, rfl, rfl⟩ := Option.map_eq_some_iff.mp here
    have zone := optNum_eq_pack 4 ((s.findChange y.mark).bind (·.length))
    rw [optNum] at zone
    rw [zone]
    simp only [coordBytes, pack_cons, pack_nil, List.append_assoc]
    rfl
  · rw [Option.map_eq_none_iff.mp absent]; simp [zoneLength, boolNat]

theorem jointStateItems_eq (x : Option RunningJoint) :
    optional 5 (x.map fun j => coordBytes j.joint ++ codeByte .jointOrigin (if j.planned then 0 else 1))
    = pack [1, 4, 1] [boolNat x.isSome, (x.map (·.joint.toNat)).getD 0,
        (x.map fun j => (Config.enumCode .jointOrigin (if j.planned then 0 else 1)).toNat).getD 0] := by
  rw [← Option.isSome_map]
  refine optional_eq_pack (ws := [4, 1]) rfl (fun bs here => ?_) (fun absent => ?_)
  · obtain ⟨y, rfl, rfl⟩ := Option.map_eq_some_iff.mp here
    rw [codeByte_eq_pack, coordBytes_eq_pack]; rfl
  · rw [Option.map_eq_none_iff.mp absent]; simp

def standWidths : List Nat := [1, 1, 1, 1, 4, 1, 2, 1, 2, 4, 4, 1, 4, 1, 2, 1, 2, 1, 4, 1, 1]

/-- R121: the items of a sequencer. -/
def standItems (s : State) (k : Stand) (q : Sequencer) : List Nat :=
  [standCode k, (Config.enumCode .sequencerState (sequencerIndex q.state)).toNat,
    boolNat q.splice.isSome, (q.splice.map fun x => (Config.enumCode .spliceKind (kindIndex x.kind)).toNat).getD 0,
    (q.splice.map (·.due.toNat)).getD 0,
    boolNat q.required.isSome, (q.required.map requiredCode).getD 0,
    boolNat q.plan.isSome, (q.plan.map (·.code)).getD 0, (q.plan.map (·.due.toNat)).getD 0,
    (q.plan.map (·.p.toNat)).getD 0, boolNat (zoneLength s q.plan).isSome, (zoneLength s q.plan).getD 0,
    boolNat q.deferred.isSome, (q.deferred.map (·.code)).getD 0,
    boolNat q.timer.isSome, (q.timer.map (·.ms)).getD 0,
    boolNat q.runningJoint.isSome, (q.runningJoint.map (·.joint.toNat)).getD 0,
    (q.runningJoint.map fun j => (Config.enumCode .jointOrigin (if j.planned then 0 else 1)).toNat).getD 0,
    boolNat s.capFlag]

theorem standBytes_eq (s : State) (k : Stand) : standBytes s k = pack standWidths (standItems s k (s.seq k)) := by
  have required : ∀ f : Required → List Byte, (∀ r, f r = bytesOf 2 (requiredCode r)) →
      optional 2 ((s.seq k).required.map f)
        = pack [1, 2] [boolNat (s.seq k).required.isSome, ((s.seq k).required.map requiredCode).getD 0] :=
    fun f same => by rw [← optional_bytesOf, funext same]
  unfold standBytes
  dsimp only
  rw [spliceItems_eq, required _ fun r => by cases r <;> rfl, planItems_eq, jointStateItems_eq]
  simp only [optional_bytesOf, codeByte_eq_pack, boolByte_eq_pack, standItems, standWidths, byteOf, pack_cons, pack_nil,
    List.append_assoc, List.append_nil]

theorem standBytes_layout (s : State) (k : Stand) :
        let q := s.seq k
        let b := standBytes s k
        b.length = 40 ∧ standOf (field b 0 1) = some k
        ∧ b.getD 1 0#8 = Config.enumCode .sequencerState (sequencerIndex q.state)
        ∧ (∀ x, q.splice = some x → field b 2 1 = 1 ∧ b.getD 3 0#8 = Config.enumCode .spliceKind (kindIndex x.kind)
            ∧ coordField b 4 = x.due)
        ∧ (q.splice = none → field b 2 6 = 0)
        ∧ (∀ n, q.required = some (.code n) → n ≤ 65535 → field b 8 1 = 1 ∧ field b 9 2 = n)
        ∧ (q.required = some .any → field b 8 1 = 1 ∧ field b 9 2 = Config.anyGradeCode.toNat)
        ∧ (q.required = none → field b 8 3 = 0)
        ∧ (∀ x, q.plan = some x → x.code ≤ 65535 →
            field b 11 1 = 1 ∧ field b 12 2 = x.code ∧ coordField b 14 = x.due ∧ coordField b 18 = x.p
            ∧ (∀ m g, s.findChange x.mark = some m → m.length = some g → g ≤ 4294967295 →
                field b 22 1 = 1 ∧ field b 23 4 = g)
            ∧ ((∀ m, s.findChange x.mark = some m → m.length = none) → field b 22 5 = 0))
        ∧ (q.plan = none → field b 11 16 = 0)
        ∧ (∀ x, q.deferred = some x → x.code ≤ 65535 → field b 27 1 = 1 ∧ field b 28 2 = x.code)
        ∧ (q.deferred = none → field b 27 3 = 0)
        ∧ (∀ x, q.timer = some x → x.ms ≤ 65535 → field b 30 1 = 1 ∧ field b 31 2 = x.ms)
        ∧ (q.timer = none → field b 30 3 = 0)
        ∧ (∀ x, q.runningJoint = some x → field b 33 1 = 1 ∧ coordField b 34 = x.joint
            ∧ b.getD 38 0#8 = Config.enumCode .jointOrigin (if x.planned then 0 else 1))
        ∧ (q.runningJoint = none → field b 33 6 = 0)
        ∧ field b 39 1 = (if s.capFlag then 1 else 0) := by
  dsimp only
  rw [standBytes_eq]
  obtain ⟨state, splice, required, plan, deferred, timer, joint, tag⟩ := s.seq k
  dsimp only
  have full : ∀ q : Sequencer, (standItems s k q).length = standWidths.length := fun _ => rfl
  refine ⟨pack_length (full _), ?_, getD_item (full _) 1 rfl rfl rfl (by decide), ?_, ?_, ?_, ?_,
    ?_, ?_, ?_, ?_, ?_, ?_, ?_, ?_, ?_, field_item (full _) 20 rfl rfl rfl ((boolNat_lt _).trans (by decide))⟩
  · exact (congrArg standOf (field_item (full _) 0 rfl rfl rfl (standCode_lt k))).trans (standOf_standCode k)
  · rintro x rfl
    exact ⟨field_item (full _) 2 rfl rfl rfl (by decide), getD_item (full _) 3 rfl rfl rfl (by decide),
      coordField_item (full _) 4 rfl rfl rfl⟩
  · rintro rfl; exact field_zero_items (full _) 2 3 rfl rfl rfl
  · rintro n rfl small
    exact ⟨field_item (full _) 5 rfl rfl rfl (by decide), field_item (full _) 6 rfl rfl rfl (by omega)⟩
  · rintro rfl
    exact ⟨field_item (full _) 5 rfl rfl rfl (by decide), field_item (full _) 6 rfl rfl rfl Config.anyGradeCode.isLt⟩
  · rintro rfl; exact field_zero_items (full _) 5 2 rfl rfl rfl
  · rintro x rfl code
    have fixed := full ⟨state, splice, required, some x, deferred, timer, joint, tag⟩
    refine ⟨field_item fixed 7 rfl rfl rfl (by decide), field_item fixed 8 rfl rfl rfl (by omega),
      coordField_item fixed 9 rfl rfl rfl, coordField_item fixed 10 rfl rfl rfl, fun m g found closed fits => ?_,
      fun open_ => ?_⟩
    · have zone : zoneLength s (some x) = some g := by simp [zoneLength, found, closed]
      exact ⟨field_item fixed 11 rfl (congrArg (fun z : Option Nat => some (boolNat z.isSome)) zone) rfl (by decide),
        field_item fixed 12 rfl (congrArg (fun z : Option Nat => some (z.getD 0)) zone) rfl (by omega)⟩
    · have zone : zoneLength s (some x) = none := by
        cases found : s.findChange x.mark <;> simp_all [zoneLength]
      exact field_zero_items fixed 11 2 rfl rfl (congrArg (fun z : Option Nat => [boolNat z.isSome, z.getD 0]) zone)
  · rintro rfl; exact field_zero_items (full _) 7 6 rfl rfl rfl
  · rintro x rfl code
    exact ⟨field_item (full _) 13 rfl rfl rfl (by decide), field_item (full _) 14 rfl rfl rfl (by omega)⟩
  · rintro rfl; exact field_zero_items (full _) 13 2 rfl rfl rfl
  · rintro x rfl ms
    exact ⟨field_item (full _) 15 rfl rfl rfl (by decide), field_item (full _) 16 rfl rfl rfl (by omega)⟩
  · rintro rfl; exact field_zero_items (full _) 15 2 rfl rfl rfl
  · rintro x rfl
    exact ⟨field_item (full _) 17 rfl rfl rfl (by decide), coordField_item (full _) 18 rfl rfl rfl,
      getD_item (full _) 19 rfl rfl rfl (by decide)⟩
  · rintro rfl; exact field_zero_items (full _) 17 3 rfl rfl rfl

/-! ### The items of READ GRADE -/

theorem curveBytes_length (c : Curve) : (curveBytes c).length = 16 := by simp [curveBytes]

theorem glueBytes_length (v : GlueValues) : (glueBytes v).length = 4 := by simp [glueBytes]

theorem stand_at (k : Stand) : Stand.all[k.idx]? = some k := by cases k <;> rfl

theorem glueUnit_at (u : GlueUnit) : GlueUnit.all[u.idx]? = some u := by cases u <;> rfl

theorem stand_idx_le (k : Stand) : k.idx ≤ 4 := by cases k <;> decide

theorem glueUnit_idx_le (u : GlueUnit) : u.idx ≤ 2 := by cases u <;> decide

theorem field_bytesOf {w v : Nat} (fits : v < 256 ^ w) : field (bytesOf w v) 0 w = v := by
  rw [field_whole (bytesOf_length w v).le, bigEndian_bytesOf, Nat.mod_eq_of_lt fits]

/-- R192: a point of a curve, behind those before it. -/
theorem field_curveBytes {c : Curve} {i : Nat} {x : Breakpoint} (at_ : [c.b0, c.b1, c.b2, c.b3][i]? = some x)
    (speed : x.speed ≤ 65535) (wrap : x.wrap ≤ 65535) :
    field (curveBytes c) (4 * i) 2 = x.speed ∧ field (curveBytes c) (4 * i + 2) 2 = x.wrap := by
  have wide : ∀ p : Breakpoint, (bytesOf 2 p.speed ++ bytesOf 2 p.wrap).length = 4 := fun p => by simp
  have inside : ∀ off, off + 2 ≤ 4 → field (curveBytes c) (4 * i + off) 2
      = field (bytesOf 2 x.speed ++ bytesOf 2 x.wrap) off 2 := fun off h => field_within_flatMap wide at_ h
  exact ⟨(inside 0 (by decide)).trans ((field_left (by simp)).trans (field_bytesOf (by omega))),
    (inside 2 (by decide)).trans ((field_skip (by simp)).trans (field_bytesOf (by omega)))⟩

/-- R53: the codes of an entry. -/
def codesBlock (g : Grade) : List Byte := Stand.all.flatMap fun k => bytesOf 2 (g.fields.codes.get k)

/-- R53: the curves of an entry. -/
def curvesBlock (g : Grade) : List Byte := Stand.all.flatMap fun k => curveBytes (g.fields.curves.get k)

/-- R53: the glue values of an entry. -/
def glueBlock (g : Grade) : List Byte := GlueUnit.all.flatMap fun u => glueBytes (g.fields.glue.get u)

theorem codesBlock_length (g : Grade) : (codesBlock g).length = 10 :=
  length_flatMap_const (w := 2) (fun _ => bytesOf_length _ _) Stand.all

theorem curvesBlock_length (g : Grade) : (curvesBlock g).length = 80 :=
  length_flatMap_const (w := 16) (fun _ => curveBytes_length _) Stand.all

theorem glueBlock_length (g : Grade) : (glueBlock g).length = 12 :=
  length_flatMap_const (w := 4) (fun _ => glueBytes_length _) GlueUnit.all

def gradeWidths : List Nat := [2, 1, 10, 80, 12, 1, 1]

/-- R53: the items of an entry, each block as one. -/
def gradeItems (g : Grade) : List Nat :=
  [g.fields.number, g.slot, bigEndian (codesBlock g), bigEndian (curvesBlock g), bigEndian (glueBlock g), g.refs, g.active]

theorem gradeBytes_eq (g : Grade) : gradeBytes g = pack gradeWidths (gradeItems g) := by
  have blocks : gradeBytes g = bytesOf 2 g.fields.number ++ byteOf g.slot ++ codesBlock g ++ curvesBlock g ++ glueBlock g
      ++ byteOf g.refs ++ byteOf g.active := rfl
  rw [blocks]
  conv_lhs => rw [bytes_eq_bytesOf (codesBlock_length g), bytes_eq_bytesOf (curvesBlock_length g),
    bytes_eq_bytesOf (glueBlock_length g)]
  simp only [gradeWidths, gradeItems, byteOf, pack_cons, pack_nil, List.append_assoc, List.append_nil]

theorem gradeBytes_layout (g : Grade) (number : g.fields.number ≤ 65535) (slot : g.slot ≤ 255) (refs : g.refs ≤ 255)
    (active : g.active ≤ 255) :
        let b := gradeBytes g
        b.length = 107 ∧ field b 0 2 = g.fields.number ∧ field b 2 1 = g.slot
        ∧ (∀ k : Stand, g.fields.codes.get k ≤ 65535 → field b (3 + 2 * k.idx) 2 = g.fields.codes.get k)
        ∧ (∀ (k : Stand) (i : Nat) (x : Breakpoint), x.speed ≤ 65535 → x.wrap ≤ 65535 →
            (let c := g.fields.curves.get k
             [c.b0, c.b1, c.b2, c.b3][i]? = some x) →
            field b (13 + 16 * k.idx + 4 * i) 2 = x.speed ∧ field b (15 + 16 * k.idx + 4 * i) 2 = x.wrap)
        ∧ (∀ u : GlueUnit, (g.fields.glue.get u).base ≤ 65535 → (g.fields.glue.get u).bump ≤ 65535 →
            field b (93 + 4 * u.idx) 2 = (g.fields.glue.get u).base
            ∧ field b (95 + 4 * u.idx) 2 = (g.fields.glue.get u).bump)
        ∧ field b 105 1 = g.refs ∧ field b 106 1 = g.active := by
  dsimp only
  rw [gradeBytes_eq]
  have full : (gradeItems g).length = gradeWidths.length := rfl
  refine ⟨pack_length full, field_item full 0 rfl rfl rfl (by omega), field_item full 1 rfl rfl rfl (by omega),
    fun k fits => ?_, fun k i x speed wrap at_ => ?_, fun u base bump => ?_, field_item full 5 rfl rfl rfl (by omega),
    field_item full 6 rfl rfl rfl (by omega)⟩
  · have low := stand_idx_le k
    exact (field_within_item full 2 (codesBlock_length g) rfl rfl rfl (by omega)).trans
      ((field_within_flatMap (off := 0) (fun _ => bytesOf_length 2 _) (stand_at k) (by decide)).trans
        (field_bytesOf (by omega)))
  · have low := stand_idx_le k
    have few : i < 4 := (List.getElem?_eq_some_iff.mp at_).1
    have point := field_curveBytes at_ speed wrap
    have inside : ∀ off, off ≤ 2 → field (pack gradeWidths (gradeItems g)) (13 + (16 * k.idx + (4 * i + off))) 2
        = field (curveBytes (g.fields.curves.get k)) (4 * i + off) 2 := fun off h =>
      (field_within_item full 3 (curvesBlock_length g) rfl rfl rfl (by omega)).trans
        (field_within_flatMap (fun _ => curveBytes_length _) (stand_at k) (by omega))
    refine ⟨?_, ?_⟩
    · rw [Nat.add_assoc]; exact (inside 0 (by decide)).trans point.1
    · rw [show 15 + 16 * k.idx + 4 * i = 13 + (16 * k.idx + (4 * i + 2)) by omega]
      exact (inside 2 (by decide)).trans point.2
  · have low := glueUnit_idx_le u
    have inside : ∀ off, off ≤ 2 → field (pack gradeWidths (gradeItems g)) (93 + (4 * u.idx + off)) 2
        = field (glueBytes (g.fields.glue.get u)) off 2 := fun off h =>
      (field_within_item full 4 (glueBlock_length g) rfl rfl rfl (by omega)).trans
        (field_within_flatMap (fun _ => glueBytes_length _) (glueUnit_at u) (by omega))
    refine ⟨(inside 0 (by decide)).trans ((field_left (by simp)).trans (field_bytesOf (by omega))), ?_⟩
    rw [show 95 + 4 * u.idx = 93 + (4 * u.idx + 2) by omega]
    exact (inside 2 (by decide)).trans ((field_skip (by simp)).trans (field_bytesOf (by omega)))

end Sys2Proof.Machine
end

section
/-! PROOF. The layouts of a station and of an entry of the decision list (R138), of the knife counter's items (R157) and of
the channels of the bond controller (R170). -/

namespace Sys2Proof.Machine

open Sys2Proof

/-! ### A station of READ SLITTER -/

/-- R126: the positions of a pattern, filled up to the 20 places. -/
def placesBlock (p : Pattern) : List Byte :=
  (p.slits ++ p.scores).flatMap (bytesOf 2) ++ List.replicate (40 - 2 * (p.slits ++ p.scores).length) 0#8

theorem placesBlock_length {p : Pattern} (few : p.slits.length + p.scores.length ≤ 20) : (placesBlock p).length = 40 := by
  rw [placesBlock, List.length_append, length_flatMap_const (bytesOf_length 2), List.length_replicate, List.length_append]
  omega

theorem patternItems_eq {x : Option Pattern} (few : ∀ p, x = some p → p.slits.length + p.scores.length ≤ 20) :
    optional 42 (x.map patternBytes) = pack [1, 1, 1, 40] [boolNat x.isSome, (x.map (·.slits.length)).getD 0,
      (x.map (·.scores.length)).getD 0, (x.map fun p => bigEndian (placesBlock p)).getD 0] := by
  rw [← Option.isSome_map]
  refine optional_eq_pack (ws := [1, 1, 40]) rfl (fun bs here => ?_) (fun absent => ?_)
  · obtain ⟨p, rfl, rfl⟩ := Option.map_eq_some_iff.mp here
    have places : patternBytes p = byteOf p.slits.length ++ byteOf p.scores.length ++ placesBlock p :=
      List.append_assoc _ _ _
    rw [places, bytes_eq_bytesOf (placesBlock_length (few p rfl))]
    simp only [byteOf, pack_cons, pack_nil, List.append_assoc, List.append_nil]
    rfl
  · rw [Option.map_eq_none_iff.mp absent]; simp

def stationWidths : List Nat := [1, 1, 2, 1, 4, 1, 1, 1, 40, 1, 1, 3, 1, 1]

/-- The P of the mark that a station serves. -/
def servedP (s : State) (x : Option Nat) : Option Coord := (x.bind s.findChange).map (·.p)

/-- R138: the items of a station. -/
def stationItems (s : State) (x : SlitterStation) : List Nat :=
  [(Config.enumCode .stationState (stationIndex x.state)).toNat, boolNat x.order.isSome, x.order.getD 0,
    boolNat (servedP s x.served).isSome, ((servedP s x.served).map (·.toNat)).getD 0,
    boolNat x.pattern.isSome, (x.pattern.map (·.slits.length)).getD 0, (x.pattern.map (·.scores.length)).getD 0,
    (x.pattern.map fun p => bigEndian (placesBlock p)).getD 0, x.retry,
    boolNat x.timer.isSome, (x.timer.map (·.ms)).getD 0,
    boolNat x.exchangeSent.isSome, (x.exchangeSent.map boolNat).getD 0]

theorem stationBytes_eq (s : State) (st : Station)
    (few : ∀ p, (s.station st).pattern = some p → p.slits.length + p.scores.length ≤ 20) :
    stationBytes s st = pack stationWidths (stationItems s (s.station st)) := by
  have sent : optional 1 ((s.station st).exchangeSent.map boolByte) = pack [1, 1] [boolNat (s.station st).exchangeSent.isSome,
      ((s.station st).exchangeSent.map boolNat).getD 0] := optional_bytesOf 1 _ _
  unfold stationBytes
  dsimp only
  rw [patternItems_eq few, sent, optNum_eq_pack, optNum_eq_pack, optCoord_eq_pack, State.stationByte, codeByte_eq_pack]
  simp only [stationItems, stationWidths, servedP, byteOf, Option.isSome_map, pack_cons, pack_nil, List.append_assoc,
    List.append_nil]

theorem stationBytes_layout (s : State) (st : Station) :
        let x := s.station st
        let b := stationBytes s st
        (∀ n, x.order = some n → n ≤ 65535) → x.retry ≤ 255 → (∀ y, x.timer = some y → y.ms ≤ 16777215) →
        (∀ p, x.pattern = some p → p.slits.length + p.scores.length ≤ 20) →
        b.length = 59
        ∧ b.getD 0 0#8 = Config.enumCode .stationState (stationIndex x.state)
        ∧ (∀ n, x.order = some n → field b 1 1 = 1 ∧ field b 2 2 = n) ∧ (x.order = none → field b 1 3 = 0)
        ∧ (∀ mark m, x.served = some mark → s.findChange mark = some m → field b 4 1 = 1 ∧ coordField b 5 = m.p)
        ∧ (x.served = none → field b 4 5 = 0)
        ∧ (∀ p, x.pattern = some p → field b 9 1 = 1 ∧ field b 10 1 = p.slits.length ∧ field b 11 1 = p.scores.length
            ∧ ∀ i y, (p.slits ++ p.scores)[i]? = some y → y ≤ 65535 → field b (12 + 2 * i) 2 = y)
        ∧ (x.pattern = none → field b 9 43 = 0)
        ∧ field b 52 1 = x.retry
        ∧ (∀ y, x.timer = some y → field b 53 1 = 1 ∧ field b 54 3 = y.ms) ∧ (x.timer = none → field b 53 4 = 0)
        ∧ (∀ sent, x.exchangeSent = some sent → field b 57 1 = 1 ∧ field b 58 1 = if sent then 1 else 0)
        ∧ (x.exchangeSent = none → field b 57 2 = 0) := by
  dsimp only
  intro order retry timer few
  rw [stationBytes_eq s st few]
  generalize s.station st = x at order retry timer few ⊢
  obtain ⟨state, orderNow, served, pattern, retryNow, timerNow, sent, setTag, exchangeTag⟩ := x
  dsimp only at order retry timer few ⊢
  have full : ∀ x : SlitterStation, (stationItems s x).length = stationWidths.length := fun _ => rfl
  refine ⟨pack_length (full _), getD_item (full _) 0 rfl rfl rfl (by decide), ?_, ?_, ?_, ?_, ?_, ?_,
    field_item (full _) 9 rfl rfl rfl (by omega), ?_, ?_, ?_, ?_⟩
  · rintro n rfl
    have small := order n rfl
    exact ⟨field_item (full _) 1 rfl rfl rfl (by decide), field_item (full _) 2 rfl rfl rfl (by omega)⟩
  · rintro rfl; exact field_zero_items (full _) 1 2 rfl rfl rfl
  · rintro mark m rfl found
    have shown : servedP s (some mark) = some m.p := congrArg (Option.map _) found
    exact ⟨field_item (full _) 3 rfl (congrArg (fun z : Option Coord => some (boolNat z.isSome)) shown) rfl (by decide),
      coordField_item (full _) 4 rfl (congrArg (fun z : Option Coord => some ((z.map BitVec.toNat).getD 0)) shown) rfl⟩
  · rintro rfl; exact field_zero_items (full _) 3 2 rfl rfl rfl
  · rintro p rfl
    have all := few p rfl
    refine ⟨field_item (full _) 5 rfl rfl rfl (by decide), field_item (full _) 6 rfl rfl rfl (by omega),
      field_item (full _) 7 rfl rfl rfl (by omega), fun i y at_ fits => ?_⟩
    have few_ : i < (p.slits ++ p.scores).length := (List.getElem?_eq_some_iff.mp at_).1
    rw [List.length_append] at few_
    refine (field_within_item (full _) 8 (placesBlock_length all) rfl rfl rfl (by omega)).trans ?_
    rw [placesBlock, field_left (by rw [length_flatMap_const (bytesOf_length 2), List.length_append]; omega)]
    exact (field_within_flatMap (off := 0) (bytesOf_length 2) at_ (by decide)).trans (field_bytesOf (by omega))
  · rintro rfl; exact field_zero_items (full _) 5 4 rfl rfl rfl
  · rintro y rfl
    have small := timer y rfl
    exact ⟨field_item (full _) 10 rfl rfl rfl (by decide), field_item (full _) 11 rfl rfl rfl (by omega)⟩
  · rintro rfl; exact field_zero_items (full _) 10 2 rfl rfl rfl
  · rintro sent rfl
    exact ⟨field_item (full _) 12 rfl rfl rfl (by decide),
      field_item (full _) 13 rfl rfl rfl ((boolNat_lt sent).trans (by decide))⟩
  · rintro rfl; exact field_zero_items (full _) 12 2 rfl rfl rfl

def decisionWidths : List Nat := [4, 2, 1, 4, 2]

/-- R138: the items of an entry of the decision list, with its mark. -/
def decisionItems (d : Decision) (m : ChangeMark) : List Nat :=
  [m.p.toNat, m.incoming.getD 0, (Config.enumCode .decisionStatus (decisionIndex d.status)).toNat, m.xEx.toNat,
    m.extensions]

theorem decisionBytes_eq {s : State} {d : Decision} {m : ChangeMark} (found : s.findChange d.mark = some m) :
    decisionBytes s d = pack decisionWidths (decisionItems d m) := by
  rw [decisionBytes, found]
  simp only [decisionItems, decisionWidths, codeByte_eq_pack, coordBytes, pack_cons, pack_nil, List.append_assoc,
    List.append_nil]

theorem decisionBytes_layout (s : State) (d : Decision) (m : ChangeMark) (found : s.findChange d.mark = some m)
    (incoming : ∀ n, m.incoming = some n → n ≤ 65535) (extensions : m.extensions ≤ 65535) :
        let b := decisionBytes s d
        b.length = 13 ∧ coordField b 0 = m.p ∧ field b 4 2 = m.incoming.getD 0
        ∧ b.getD 6 0#8 = Config.enumCode .decisionStatus (decisionIndex d.status)
        ∧ coordField b 7 = m.xEx ∧ field b 11 2 = m.extensions := by
  dsimp only
  rw [decisionBytes_eq found]
  have full : (decisionItems d m).length = decisionWidths.length := rfl
  exact ⟨pack_length full, coordField_item full 0 rfl rfl rfl,
    field_item full 1 rfl rfl rfl (getD_lt (by decide) fun n h => Nat.lt_succ_of_le (incoming n h)),
    getD_item full 2 rfl rfl rfl (by decide), coordField_item full 3 rfl rfl rfl,
    field_item full 4 rfl rfl rfl (by omega)⟩

/-! ### The knife counter -/

theorem markP_eq {s : State} {mark : Nat} {m : ChangeMark} (found : s.findChange mark = some m) :
    s.markP mark = coordBytes m.p := by
  rw [State.markP, found]; rfl

/-- R157: the owner's items, a place, an order and the mark's P behind their presence bytes. -/
def ownerItems (code : Byte) (order : Option Nat) (p : Option Coord) : List Nat :=
  [code.toNat, boolNat order.isSome, order.getD 0, boolNat p.isSome, (p.map (·.toNat)).getD 0]

def ownerWidths : List Nat := [1, 1, 2, 1, 4]

theorem ownerItems_eq (i : Nat) (order : Option Nat) (p : Option Coord) :
    codeByte .knifeOwner i ++ optNum 2 order ++ optCoord p
      = pack ownerWidths (ownerItems (Config.enumCode .knifeOwner i) order p) := by
  rw [codeByte_eq_pack, optNum_eq_pack, optCoord_eq_pack]
  simp only [ownerItems, ownerWidths, pack_cons, pack_nil, List.append_assoc, List.append_nil]

theorem ownerBytes_unassigned {s : State} (h : s.knife.owner = .unassigned) :
    ownerBytes s = pack ownerWidths (ownerItems (Config.enumCode .knifeOwner 0) none none) := by
  rw [ownerBytes, h, ownerItems_eq]

theorem ownerBytes_zone {s : State} {mark : Nat} {m : ChangeMark} (h : s.knife.owner = .zone mark)
    (found : s.findChange mark = some m) :
    ownerBytes s = pack ownerWidths (ownerItems (Config.enumCode .knifeOwner 1) none (some m.p)) := by
  rw [ownerBytes, h, ← ownerItems_eq]
  exact (congrArg _ (markP_eq found)).trans (List.append_assoc _ _ _)

theorem ownerBytes_segment {s : State} {mark : Nat} {m : ChangeMark} {out : Outgoing} (h : s.knife.owner = .segment mark)
    (found : s.findChange mark = some m) (segment : m.outgoing = some out) :
    ownerBytes s = pack ownerWidths (ownerItems (Config.enumCode .knifeOwner 2) (some out.order) (some m.p)) := by
  have order : s.segmentOrder mark = out.order := by rw [State.segmentOrder, found]; simp [segment]
  rw [ownerBytes, h, ← ownerItems_eq, ← order]
  exact (congrArg _ (markP_eq found)).trans (List.append_assoc _ _ _)

theorem ownerBytes_length (s : State) : (ownerBytes s).length = 9 := by
  unfold ownerBytes
  split <;> simp [optNum, optCoord, optional, State.markP, coordOr0]

theorem ownerBytes_layout (s : State) :
       let b := ownerBytes s
       b.length = 9
        ∧ (s.knife.owner = .unassigned → b.getD 0 0#8 = Config.enumCode .knifeOwner 0 ∧ field b 1 8 = 0)
        ∧ (∀ mark m, s.knife.owner = .zone mark → s.findChange mark = some m →
            b.getD 0 0#8 = Config.enumCode .knifeOwner 1 ∧ field b 1 3 = 0 ∧ field b 4 1 = 1 ∧ coordField b 5 = m.p)
        ∧ (∀ mark m out, s.knife.owner = .segment mark → s.findChange mark = some m → m.outgoing = some out →
            out.order ≤ 65535 →
            b.getD 0 0#8 = Config.enumCode .knifeOwner 2 ∧ field b 1 1 = 1 ∧ field b 2 2 = out.order
              ∧ field b 4 1 = 1 ∧ coordField b 5 = m.p) := by
  dsimp only
  have full : ∀ code order p, (ownerItems code order p).length = ownerWidths.length := fun _ _ _ => rfl
  refine ⟨ownerBytes_length s, fun h => ?_, fun mark m h found => ?_, fun mark m out h found segment small => ?_⟩
  · rw [ownerBytes_unassigned h]
    exact ⟨getD_item (full _ _ _) 0 rfl rfl rfl (by decide), field_zero_items (full _ _ _) 1 4 rfl rfl rfl⟩
  · rw [ownerBytes_zone h found]
    exact ⟨getD_item (full _ _ _) 0 rfl rfl rfl (by decide), field_zero_items (full _ _ _) 1 2 rfl rfl rfl,
      field_item (full _ _ _) 3 rfl rfl rfl (by decide), coordField_item (full _ _ _) 4 rfl rfl rfl⟩
  · rw [ownerBytes_segment h found segment]
    exact ⟨getD_item (full _ _ _) 0 rfl rfl rfl (by decide), field_item (full _ _ _) 1 rfl rfl rfl (by decide),
      field_item (full _ _ _) 2 rfl rfl rfl (by omega), field_item (full _ _ _) 3 rfl rfl rfl (by decide),
      coordField_item (full _ _ _) 4 rfl rfl rfl⟩

theorem gridPosBytes_layout (s : State) (mark : Nat) (m : ChangeMark) (found : s.findChange mark = some m) :
        gridPosBytes s (.lead mark) = Config.enumCode .gridPosition 0 :: coordBytes m.p
        ∧ gridPosBytes s (.zone mark) = Config.enumCode .gridPosition 1 :: coordBytes m.p
        ∧ gridPosBytes s (.segment mark) = Config.enumCode .gridPosition 2 :: coordBytes m.p := by
  simp only [gridPosBytes, markP_eq found]
  exact ⟨rfl, rfl, rfl⟩

def postponedWidths : List Nat := [2, 3, 1, 1, 2]

/-- R157: the items of a postponed stack change. -/
def postponedItems (p : Postponed) : List Nat :=
  [p.order, p.stack, (Config.enumCode .postponedKind (boolNat p.closed.isSome)).toNat, boolNat p.closed.isSome,
    p.closed.getD 0]

theorem postponedBytes_eq (p : Postponed) : postponedBytes p = pack postponedWidths (postponedItems p) := by
  unfold postponedBytes
  simp only [postponedItems, postponedWidths, codeByte_eq_pack, optNum_eq_pack, pack_cons, pack_nil, List.append_assoc,
    List.append_nil]

theorem postponedBytes_layout (p : Postponed) (order : p.order ≤ 65535) (stack : p.stack ≤ 65536)
    (closed : ∀ n, p.closed = some n → n ≤ 65535) :
        let b := postponedBytes p
        b.length = 9 ∧ field b 0 2 = p.order ∧ field b 2 3 = p.stack
        ∧ b.getD 5 0#8 = Config.enumCode .postponedKind (if p.closed.isSome then 1 else 0)
        ∧ (∀ n, p.closed = some n → field b 6 1 = 1 ∧ field b 7 2 = n) ∧ (p.closed = none → field b 6 3 = 0) := by
  dsimp only
  rw [postponedBytes_eq]
  obtain ⟨orderNow, stackNow, closedNow, retired⟩ := p
  dsimp only at order stack closed ⊢
  have full : ∀ p : Postponed, (postponedItems p).length = postponedWidths.length := fun _ => rfl
  refine ⟨pack_length (full _), field_item (full _) 0 rfl rfl rfl (by omega), field_item (full _) 1 rfl rfl rfl (by omega),
    getD_item (full _) 2 rfl rfl rfl (by decide), ?_, ?_⟩
  · rintro n rfl
    have small := closed n rfl
    exact ⟨field_item (full _) 3 rfl rfl rfl (by decide), field_item (full _) 4 rfl rfl rfl (by omega)⟩
  · rintro rfl; exact field_zero_items (full _) 3 2 rfl rfl rfl

/-! ### The channels of READ BOND -/

theorem setpointQueued_iff {s : State} {u : BondUnit} :
    s.setpointQueued u = true ↔ ∃ v, Command.bondSetpoint u v ∈ s.link.bond := by
  rw [State.setpointQueued, List.any_eq_true]
  constructor
  · rintro ⟨c, mem, is⟩
    cases c with
    | bondSetpoint w v => exact ⟨v, by rwa [← eq_of_beq is]⟩
    | _ => cases is
  · rintro ⟨v, mem⟩
    exact ⟨_, mem, beq_self_eq_true u⟩

theorem boolNat_le (b : Bool) : boolNat b ≤ 1 := Nat.le_of_lt_succ (boolNat_lt b)

theorem boolNat_eq_one {b : Bool} : boolNat b = 1 ↔ b = true := by cases b <;> decide

theorem curveItems_eq (x : Option WrapGrade) : optional 16 (x.map fun a => curveBytes a.curve)
    = pack [1, 16] [boolNat x.isSome, (x.map fun a => bigEndian (curveBytes a.curve)).getD 0] := by
  rw [← optional_bytesOf]
  cases x with
  | none => rfl
  | some a => exact congrArg (optional 16 ∘ some) (bytes_eq_bytesOf (curveBytes_length _))

def preheaterWidths : List Nat := [1, 2, 1, 16, 1, 2, 2, 1, 1, 2]

/-- R170: the items of a preheater channel. -/
def preheaterItems (queued : Bool) (c : Preheater) : List Nat :=
  [boolNat c.active.isSome, (c.active.map (·.grade)).getD 0, boolNat c.active.isSome,
    (c.active.map fun a => bigEndian (curveBytes a.curve)).getD 0, boolNat c.target.isSome, c.target.getD 0, c.output,
    boolNat queued, boolNat c.lastSent.isSome, c.lastSent.getD 0]

theorem preheaterBytes_eq (s : State) (k : Stand) : preheaterBytes s k
    = pack preheaterWidths (preheaterItems (s.setpointQueued (.ph k)) (s.preheaters.get k)) := by
  unfold preheaterBytes
  dsimp only
  rw [curveItems_eq]
  simp only [optNum_eq_pack, boolByte_eq_pack, preheaterItems, preheaterWidths, Option.isSome_map, pack_cons, pack_nil,
    List.append_assoc, List.append_nil]

theorem preheaterBytes_layout (s : State) (k : Stand) :
        let c := s.preheaters.get k
        let b := preheaterBytes s k
        (∀ t, c.target = some t → t ≤ 65535) → c.output ≤ 65535 → (∀ v, c.lastSent = some v → v ≤ 65535) →
        (∀ a, c.active = some a → a.grade ≤ 65535 ∧ ∀ x ∈ [a.curve.b0, a.curve.b1, a.curve.b2, a.curve.b3],
          x.speed ≤ 65535 ∧ x.wrap ≤ 65535) →
        b.length = 29
        ∧ (∀ a, c.active = some a → field b 0 1 = 1 ∧ field b 1 2 = a.grade ∧ field b 3 1 = 1
            ∧ ∀ i x, [a.curve.b0, a.curve.b1, a.curve.b2, a.curve.b3][i]? = some x →
                field b (4 + 4 * i) 2 = x.speed ∧ field b (6 + 4 * i) 2 = x.wrap)
        ∧ (c.active = none → field b 0 20 = 0)
        ∧ (∀ t, c.target = some t → field b 20 1 = 1 ∧ field b 21 2 = t) ∧ (c.target = none → field b 20 3 = 0)
        ∧ field b 23 2 = c.output
        ∧ field b 25 1 ≤ 1 ∧ (field b 25 1 = 1 ↔ ∃ v, Command.bondSetpoint (.ph k) v ∈ s.link.bond)
        ∧ (∀ v, c.lastSent = some v → field b 26 1 = 1 ∧ field b 27 2 = v) ∧ (c.lastSent = none → field b 26 3 = 0) := by
  dsimp only
  intro target output lastSent active
  rw [preheaterBytes_eq, ← setpointQueued_iff]
  generalize s.preheaters.get k = c at target output lastSent active ⊢
  generalize s.setpointQueued (.ph k) = queued
  obtain ⟨activeNow, targetNow, outputNow, sentNow⟩ := c
  dsimp only at target output lastSent active ⊢
  have full : ∀ c : Preheater, (preheaterItems queued c).length = preheaterWidths.length := fun _ => rfl
  have flag : field (pack preheaterWidths (preheaterItems queued ⟨activeNow, targetNow, outputNow, sentNow⟩)) 25 1
      = boolNat queued := field_item (full _) 7 rfl rfl rfl ((boolNat_lt _).trans (by decide))
  refine ⟨pack_length (full _), ?_, ?_, ?_, ?_, field_item (full _) 6 rfl rfl rfl (by omega), flag.trans_le (boolNat_le _),
    by rw [flag, boolNat_eq_one], ?_, ?_⟩
  · rintro a rfl
    obtain ⟨grade, points⟩ := active a rfl
    refine ⟨field_item (full _) 0 rfl rfl rfl (by decide), field_item (full _) 1 rfl rfl rfl (by omega),
      field_item (full _) 2 rfl rfl rfl (by decide), fun i x at_ => ?_⟩
    obtain ⟨speed, wrap⟩ := points x (List.mem_of_getElem? at_)
    have few : i < 4 := (List.getElem?_eq_some_iff.mp at_).1
    have point := field_curveBytes at_ speed wrap
    have inside : ∀ off, off + 2 ≤ 16 → field (pack preheaterWidths (preheaterItems queued
        ⟨some a, targetNow, outputNow, sentNow⟩)) (4 + off) 2 = field (curveBytes a.curve) off 2 := fun off h =>
      field_within_item (full _) 3 (curveBytes_length a.curve) rfl (congrArg some (Option.getD_some ..)) rfl h
    refine ⟨(inside (4 * i) (by omega)).trans point.1, ?_⟩
    rw [show 6 + 4 * i = 4 + (4 * i + 2) by omega]
    exact (inside (4 * i + 2) (by omega)).trans point.2
  · rintro rfl; exact field_zero_items (full _) 0 4 rfl rfl rfl
  · rintro t rfl
    have small := target t rfl
    exact ⟨field_item (full _) 4 rfl rfl rfl (by decide), field_item (full _) 5 rfl rfl rfl (by omega)⟩
  · rintro rfl; exact field_zero_items (full _) 4 2 rfl rfl rfl
  · rintro v rfl
    have small := lastSent v rfl
    exact ⟨field_item (full _) 8 rfl rfl rfl (by decide), field_item (full _) 9 rfl rfl rfl (by omega)⟩
  · rintro rfl; exact field_zero_items (full _) 8 2 rfl rfl rfl

def channelWidths : List Nat := [1, 2, 1, 2, 1, 2, 1, 4, 2, 1, 1, 2]

/-- R170: the items of a glue channel. -/
def channelItems (queued : Bool) (c : GlueChannel) : List Nat :=
  [boolNat c.active.isSome, (c.active.map (·.grade)).getD 0, boolNat c.active.isSome, (c.active.map (·.values.base)).getD 0,
    boolNat c.active.isSome, (c.active.map (·.values.bump)).getD 0, boolNat c.bumpEnd.isSome,
    (c.bumpEnd.map (·.toNat)).getD 0, c.gap, boolNat queued, boolNat c.lastSent.isSome, c.lastSent.getD 0]

theorem channelBytes_eq (s : State) (g : GlueUnit) : channelBytes s g
    = pack channelWidths (channelItems (s.setpointQueued (.glue g)) (s.glue.get g)) := by
  unfold channelBytes
  dsimp only
  simp only [optNum_eq_pack, optCoord_eq_pack, boolByte_eq_pack, channelItems, channelWidths, Option.isSome_map, pack_cons,
    pack_nil, List.append_assoc, List.append_nil]

theorem channelBytes_layout (s : State) (g : GlueUnit) :
        let c := s.glue.get g
        let b := channelBytes s g
        c.gap ≤ 65535 → (∀ v, c.lastSent = some v → v ≤ 65535) →
        (∀ a, c.active = some a → a.grade ≤ 65535 ∧ a.values.base ≤ 65535 ∧ a.values.bump ≤ 65535) →
        b.length = 20
        ∧ (∀ a, c.active = some a → field b 0 1 = 1 ∧ field b 1 2 = a.grade ∧ field b 3 1 = 1
            ∧ field b 4 2 = a.values.base ∧ field b 6 1 = 1 ∧ field b 7 2 = a.values.bump)
        ∧ (c.active = none → field b 0 9 = 0)
        ∧ (∀ x, c.bumpEnd = some x → field b 9 1 = 1 ∧ coordField b 10 = x) ∧ (c.bumpEnd = none → field b 9 5 = 0)
        ∧ field b 14 2 = c.gap
        ∧ field b 16 1 ≤ 1 ∧ (field b 16 1 = 1 ↔ ∃ v, Command.bondSetpoint (.glue g) v ∈ s.link.bond)
        ∧ (∀ v, c.lastSent = some v → field b 17 1 = 1 ∧ field b 18 2 = v)
        ∧ (c.lastSent = none → field b 17 3 = 0) := by
  dsimp only
  intro gap lastSent active
  rw [channelBytes_eq, ← setpointQueued_iff]
  generalize s.glue.get g = c at gap lastSent active ⊢
  generalize s.setpointQueued (.glue g) = queued
  obtain ⟨activeNow, bumpNow, gapNow, sentNow⟩ := c
  dsimp only at gap lastSent active ⊢
  have full : ∀ c : GlueChannel, (channelItems queued c).length = channelWidths.length := fun _ => rfl
  have flag : field (pack channelWidths (channelItems queued ⟨activeNow, bumpNow, gapNow, sentNow⟩)) 16 1
      = boolNat queued := field_item (full _) 9 rfl rfl rfl ((boolNat_lt _).trans (by decide))
  refine ⟨pack_length (full _), ?_, ?_, ?_, ?_, field_item (full _) 8 rfl rfl rfl (by omega), flag.trans_le (boolNat_le _),
    by rw [flag, boolNat_eq_one], ?_, ?_⟩
  · rintro a rfl
    obtain ⟨grade, base, bump⟩ := active a rfl
    exact ⟨field_item (full _) 0 rfl rfl rfl (by decide), field_item (full _) 1 rfl rfl rfl (by omega),
      field_item (full _) 2 rfl rfl rfl (by decide), field_item (full _) 3 rfl rfl rfl (by omega),
      field_item (full _) 4 rfl rfl rfl (by decide), field_item (full _) 5 rfl rfl rfl (by omega)⟩
  · rintro rfl; exact field_zero_items (full _) 0 6 rfl rfl rfl
  · rintro x rfl
    exact ⟨field_item (full _) 6 rfl rfl rfl (by decide), coordField_item (full _) 7 rfl rfl rfl⟩
  · rintro rfl; exact field_zero_items (full _) 6 2 rfl rfl rfl
  · rintro v rfl
    have small := lastSent v rfl
    exact ⟨field_item (full _) 10 rfl rfl rfl (by decide), field_item (full _) 11 rfl rfl rfl (by omega)⟩
  · rintro rfl; exact field_zero_items (full _) 10 2 rfl rfl rfl

end Sys2Proof.Machine
end

section
/-! PROOF. The commands of the link (R179), the response frame on SDO (R189, R191), and the statement on all layouts (O8). -/

namespace Sys2Proof.Machine

open Sys2Proof

/-! ### Commands -/

theorem optNum_match (n : Nat) (x : Option Nat) : optNum n x = (match x with
    | some v => 1#8 :: bytesOf n v
    | none => 0#8 :: List.replicate n 0#8) := by cases x <;> rfl

theorem optCoord_match (x : Option Coord) : optCoord x = (match x with
    | some v => 1#8 :: coordBytes v
    | none => List.replicate 5 0#8) := by cases x <;> rfl

theorem byteOf_stationCode (st : Station) : byteOf (stationCode st) = [if st = .a then 1#8 else 2#8] := by
  cases st <;> rfl

theorem commandBytes_layout (c : Command) : commandBytes c = Config.enumCode .commandKind (match c with
          | .spliceGo _ _ _ => 0 | .speedCap _ => 1 | .knifeSchedule _ _ _ => 2 | .slitterSet _ _ _ => 3
          | .slitterExchange _ _ _ _ => 4 | .stackChange _ _ _ _ => 5 | .bondSetpoint _ _ => 6)
        :: BitVec.ofNat 8 c.address :: (match c with
          | .spliceGo k p _ => [BitVec.ofNat 8 (k.idx + 1), BitVec.ofNat 8 (p.idx + 1)]
          | .speedCap limit => (match limit with
              | some v => 1#8 :: bytesOf 2 v
              | none => [0#8, 0#8, 0#8])
          | .knifeSchedule x cutLength n => coordBytes x ++ bytesOf 2 cutLength ++ (match n with
              | some v => 1#8 :: bytesOf 2 v
              | none => [0#8, 0#8, 0#8])
          | .slitterSet st p _ => [if st = .a then 1#8 else 2#8, BitVec.ofNat 8 p.slits.length,
                BitVec.ofNat 8 (p.slits.length + p.scores.length)] ++ (p.slits ++ p.scores).flatMap (bytesOf 2)
          | .slitterExchange e lift x _ => (if e = .a then 1#8 else 2#8) :: (match lift with
              | some l => [1#8, if l = .a then 1#8 else 2#8]
              | none => [0#8, 0#8]) ++ (match x with
              | some v => 1#8 :: coordBytes v
              | none => List.replicate 5 0#8)
          | .stackChange o n cuts final => bytesOf 2 o ++ bytesOf 3 n ++ bytesOf 2 cuts
                ++ [if final then 1#8 else 0#8]
          | .bondSetpoint u v => Config.enumCode .commandUnit (match u with
              | .ph k => k.idx
              | .glue g => 5 + g.idx) :: bytesOf 2 v) := by
  have head : commandBytes c
      = Config.enumCode .commandKind (commandIndex c) :: BitVec.ofNat 8 c.address :: commandItems c := by
    rw [commandBytes, byteOf_eq]; rfl
  rw [head]
  cases c with
  | spliceGo k p tag => simp only [commandItems, byteOf_eq]; rfl
  | speedCap limit => cases limit <;> rfl
  | knifeSchedule x cutLength n => cases n <;> rfl
  | slitterSet st p tag => cases st <;> (simp only [commandItems, byteOf_eq]; rfl)
  | slitterExchange e lift x tag =>
    simp only [commandItems, byteOf_stationCode, optCoord_match]
    cases x <;> rcases lift with _ | _ | _ <;> rfl
  | stackChange o n cuts final => simp only [commandItems, boolByte_eq]; rfl
  | bondSetpoint u v => cases u <;> rfl

/-! ### The response frame -/

theorem status_code_eq (x : Status) : x.code = (match x with
    | .ok => 0 | .clamped => 1 | .format => 2 | .range => 3 | .noSuch => 4 | .exists => 5 | .full => 6
    | .state => 7 | .inUse => 8 | .tooLate => 9) := by cases x <;> rfl

theorem shiftedOut_layout (s : State) (n i : Nat) (inside : i < n) :
    (s.shiftedOut n).length = n ∧ (s.shiftedOut n).getD i 0#8 = s.port.frame.getD i 0#8 := by
  refine ⟨?_, ?_⟩
  · rw [State.shiftedOut, List.length_append, List.length_take, List.length_replicate]; omega
  · simp only [State.shiftedOut, List.getD_eq_getElem?_getD, List.getElem?_append, List.length_take,
      List.getElem?_take_of_lt inside, List.getElem?_replicate]
    split
    · rfl
    · have out : s.port.frame.length ≤ i := by omega
      rw [List.getElem?_eq_none out]
      split <;> rfl

theorem bitsOfByte_getD (b : Byte) {i : Nat} (h : i < 8) : (bitsOfByte b).getD i false = b.getLsbD (7 - i) := by
  match i, h with
  | 0, _ | 1, _ | 2, _ | 3, _ | 4, _ | 5, _ | 6, _ | 7, _ => simp [bitsOfByte, BitVec.getMsbD]

/-- R189: a bit of bytes, by its byte and its place in it, most significant first. -/
theorem bitsOfBytes_getD (bs : List Byte) (i : Nat) :
    (bitsOfBytes bs).getD i false = (bs.getD (i / 8) 0#8).getLsbD (7 - i % 8) := by
  induction bs generalizing i with
  | nil => simp [bitsOfBytes]
  | cons b bs ih =>
    have long : (bitsOfByte b).length = 8 := rfl
    rw [bitsOfBytes, List.flatMap_cons]
    rcases Nat.lt_or_ge i 8 with low | high
    · rw [List.getD_append _ _ _ _ (long ▸ low), bitsOfByte_getD b low, Nat.div_eq_of_lt low, Nat.mod_eq_of_lt low]
      rfl
    · rw [List.getD_append_right _ _ _ _ (long ▸ high), long, ← bitsOfBytes, ih,
        show i / 8 = (i - 8) / 8 + 1 by omega, show i % 8 = (i - 8) % 8 by omega]
      rfl

theorem bytesOf_getD {n i : Nat} (v : Nat) (inside : i < n) :
    ((bytesOf n v).getD i 0#8).toNat = v / 256 ^ (n - 1 - i) % 256 := by
  rw [List.getD_eq_getElem _ _ (by rw [bytesOf_length]; exact inside)]
  simp [bytesOf]

/-- Settles O8: each record is a row of items of fixed widths, in which an item reads back at the sum of the widths before
it. -/
theorem recordsFollowTheirLayouts : Obligations.RecordsFollowTheirLayouts := by
  intro s
  exact ⟨orderRecord_layout s, changeRecord_layout, jointRecord_layout, gapRecord_layout, hostRecord_layout,
    reelRecord_layout s, errorRecord_layout, rfl, standBytes_layout s, gradeBytes_layout,
    ⟨_, rfl, status_code_eq _⟩, shiftedOut_layout s,
    fun edge => ⟨rfl, congrArg some (bitsOfBytes_getD s.port.frame edge)⟩,
    stationBytes_layout s, decisionBytes_layout s, ownerBytes_layout s, gridPosBytes_layout s, postponedBytes_layout,
    preheaterBytes_layout s, channelBytes_layout s, commandBytes_layout,
    fun n v i inside => ⟨bytesOf_length n v, bytesOf_getD v inside⟩⟩

end Sys2Proof.Machine
end

section
/-! PROOF. What repeated checks of waiting stands and the gap of a plan touch (R108, R114): the groundwork of the hand-offs of
a launch by request (O18). -/

namespace Sys2Proof.Machine

open Sys2Proof

/-! ### Checks of waiting stands -/

/-- What checks of waiting stands can do: beside SpliceFrame, the sequencer of no other stand and no queue of the link but
the SPLICE queue is touched. -/
structure WaitersOnly (s t : State) : Prop where
  frame : SpliceFrame s t
  queues : ∀ d, d ≠ .splice → t.link.queue d = s.link.queue d
  seqs : ∀ j, (s.seq j).state.waitsForReel = false → t.seq j = s.seq j
  serial : s.serial ≤ t.serial

namespace WaitersOnly

variable {s t u : State}

theorem refl (s : State) : WaitersOnly s s := ⟨rfl, fun _ _ => rfl, fun _ _ => rfl, le_rfl⟩

theorem trans (h : WaitersOnly s t) (g : WaitersOnly t u) : WaitersOnly s u where
  frame := h.frame.trans g.frame
  queues d n := (g.queues d n).trans (h.queues d n)
  seqs j w := (g.seqs j (by rw [h.seqs j w]; exact w)).trans (h.seqs j w)
  serial := h.serial.trans g.serial

theorem drawn (s : State) : WaitersOnly s s.drawn := ⟨rfl, fun _ _ => rfl, fun _ _ => rfl, le_rfl⟩

/-- An event at a waiting stand. -/
theorem ofStand {k : Stand} (h : SpliceAt k s t) (waits : (s.seq k).state.waitsForReel = true) : WaitersOnly s t where
  frame := h.frame
  queues := h.queues
  seqs j w := h.others j fun e => by subst e; rw [w] at waits; cases waits
  serial := h.serial

theorem recheck (k : Stand) (s : State) : WaitersOnly s (s.recheck k) := by
  unfold State.recheck; split
  · next waits => exact ofStand (SpliceAt.refl k s).checkReel waits
  · exact refl s

theorem goTest (k : Stand) (s : State) : WaitersOnly s (s.goTest k) := by
  unfold State.goTest; split
  · next go =>
    have waits : (s.seq k).state.waitsForReel = true := by rw [go]; rfl
    split
    · split
      · exact ofStand ((SpliceAt.refl k s).setSeq.bumpSerial.enqueue rfl) waits
      · exact refl s
    · exact refl s
  · exact refl s

theorem recheckAll (s : State) : WaitersOnly s s.recheckAll :=
  takeEvents_rel refl (fun _ _ _ => trans) drawn (fun k _ s => recheck k s) s

theorem goTestAll (s : State) : WaitersOnly s s.goTestAll :=
  takeEvents_rel refl (fun _ _ _ => trans) drawn (fun k _ s => goTest k s) s

end WaitersOnly

/-! ### Marks found by their serial numbers -/

theorem findChange_of_marks {s t : State} (h : t.marks = s.marks) (u : Nat) : t.findChange u = s.findChange u := by
  rw [State.findChange, State.changes, h]; rfl

theorem provisional_of_marks {s t : State} (h : t.marks = s.marks) (p : t.planner = s.planner) :
    t.provisional = s.provisional := by
  simp only [State.provisional, p, findChange_of_marks h]

theorem findChange_eq_find (s : State) (u : Nat) :
    s.findChange u = (s.marks.find? (Mark.isChangeOf u)).bind Mark.asChange := by
  have same : (fun x : Mark => x.asChange.any fun c => c.uid == u) = Mark.isChangeOf u := by
    funext x; cases x <;> rfl
  rw [State.findChange, State.changes, List.find?_filterMap, same]

/-- A mark that is not the CHANGE mark looked for does not matter where it stands. -/
theorem find_insertMark_other {odo : Coord} {m : Mark} {u : Nat} (other : m.isChangeOf u = false) (l : List Mark) :
    (insertMark odo m l).find? (Mark.isChangeOf u) = l.find? (Mark.isChangeOf u) := by
  induction l with
  | nil => simp [insertMark, other]
  | cons x xs ih =>
    simp only [insertMark]
    split
    · rw [List.find?_cons_of_neg (by rw [other]; decide)]
    · rw [List.find?_cons, List.find?_cons, ih]

theorem find_eraseP_other {u w : Nat} (ne : u ≠ w) (l : List Mark) :
    (l.eraseP (Mark.isChangeOf w)).find? (Mark.isChangeOf u) = l.find? (Mark.isChangeOf u) := by
  induction l with
  | nil => rfl
  | cons x xs ih =>
    by_cases is : x.isChangeOf w = true
    · have other : ¬ x.isChangeOf u = true := by
        cases x with
        | change c =>
          have : c.uid = w := by simpa [Mark.isChangeOf] using is
          simp [Mark.isChangeOf, this, Ne.symm ne]
        | _ => simp [Mark.isChangeOf]
      rw [List.eraseP_cons_of_pos is, List.find?_cons_of_neg other]
    · rw [List.eraseP_cons_of_neg is, List.find?_cons, List.find?_cons, ih]

theorem isChangeOf_self (c : ChangeMark) : (Mark.change c).isChangeOf c.uid = true := by simp [Mark.isChangeOf]

theorem isChangeOf_other {c : ChangeMark} {u : Nat} (ne : u ≠ c.uid) : (Mark.change c).isChangeOf u = false := by
  simp [Mark.isChangeOf, Ne.symm ne]

/-- R13: a CHANGE mark that takes a new place leaves the others to be found. -/
theorem replaceChange_findChange {s : State} {c : ChangeMark} {u : Nat} (ne : u ≠ c.uid) :
    (s.replaceChange c).findChange u = s.findChange u := by
  rw [findChange_eq_find, findChange_eq_find, State.replaceChange, State.placeMark,
    find_insertMark_other (isChangeOf_other ne), find_eraseP_other ne]

/-- The table holds the CHANGE mark m and no other with its serial number. -/
def Alone (s : State) (m : ChangeMark) : Prop := s.marks.filter (Mark.isChangeOf m.uid) = [.change m]

namespace Alone

variable {s t : State} {m : ChangeMark}

theorem findChange (h : Alone s m) : s.findChange m.uid = some m := by
  rw [findChange_eq_find, ← List.head?_filter, h]; rfl

theorem mem (h : Alone s m) : Mark.change m ∈ s.marks := (findChange_mem h.findChange).1

theorem of_marks (h : Alone s m) (e : t.marks = s.marks) : Alone t m := by rw [Alone, e]; exact h

theorem provisional (h : Alone s m) {b : Coord} {n : Nat} (p : s.planner = some ⟨m.uid, b, n⟩) :
    s.provisional = some (⟨m.uid, b, n⟩, m) := by
  simp only [State.provisional, p, h.findChange, Option.map_some]

theorem filter_insertMark_other {odo : Coord} {x : Mark} {u : Nat} (other : x.isChangeOf u = false) (l : List Mark) :
    (insertMark odo x l).filter (Mark.isChangeOf u) = l.filter (Mark.isChangeOf u) := by
  induction l with
  | nil => simp [insertMark, other]
  | cons y ys ih =>
    simp only [insertMark]
    split
    · rw [List.filter_cons_of_neg (by rw [other]; decide)]
    · rw [List.filter_cons, List.filter_cons, ih]

theorem filter_insertMark_self {odo : Coord} {x : Mark} {u : Nat} (is : x.isChangeOf u = true) {l : List Mark}
    (none : l.filter (Mark.isChangeOf u) = []) : (insertMark odo x l).filter (Mark.isChangeOf u) = [x] := by
  induction l with
  | nil => simp [insertMark, is]
  | cons y ys ih =>
    have free : ¬ y.isChangeOf u = true := List.filter_eq_nil_iff.mp none y List.mem_cons_self
    have rest : ys.filter (Mark.isChangeOf u) = [] := by rwa [List.filter_cons_of_neg free] at none
    simp only [insertMark]
    split
    · rw [List.filter_cons_of_pos is, none]
    · rw [List.filter_cons_of_neg free, ih rest]

theorem filter_eraseP_self {u : Nat} {x : Mark} : ∀ {l : List Mark}, l.filter (Mark.isChangeOf u) = [x] →
    (l.eraseP (Mark.isChangeOf u)).filter (Mark.isChangeOf u) = []
  | [], h => nomatch h
  | y :: ys, h => by
    by_cases is : y.isChangeOf u = true
    · rw [List.filter_cons_of_pos is] at h
      rw [List.eraseP_cons_of_pos is]
      exact (List.cons.inj h).2
    · rw [List.filter_cons_of_neg is] at h
      rw [List.eraseP_cons_of_neg is, List.filter_cons_of_neg is, filter_eraseP_self h]

/-- Another mark takes its place. -/
theorem placeMark (h : Alone s m) {x : Mark} (other : x.isChangeOf m.uid = false) : Alone (s.placeMark x) m :=
  (filter_insertMark_other other _).trans h

/-- A mark with a new serial number is alone. -/
theorem placed (s : State) {m : ChangeMark} (fresh : ∀ c ∈ s.changes, c.uid ≠ m.uid) : Alone (s.placeMark (.change m)) m := by
  refine filter_insertMark_self (isChangeOf_self m) (List.filter_eq_nil_iff.mpr fun x mem is => ?_)
  cases x with
  | change c => exact fresh c (mem_changes.mpr mem) (by simpa [Mark.isChangeOf] using is)
  | _ => cases is

/-- R13: the mark alone, moved. -/
theorem replaceChange (h : Alone s m) {c : ChangeMark} (same : c.uid = m.uid) : Alone (s.replaceChange c) c := by
  refine filter_insertMark_self (isChangeOf_self c) ?_
  rw [same]
  exact filter_eraseP_self h

end Alone

/-- R9: the culls of a table stay when a CHANGE mark takes a new place. -/
theorem mem_replaceChange_cull {s : State} {c : ChangeMark} {x : Mark} (cull : x.asChange = none) :
    x ∈ (s.replaceChange c).marks ↔ x ∈ s.marks := by
  have other : x ≠ .change c := by rintro rfl; cases cull
  have apart : ¬ x.isChangeOf c.uid = true := by
    cases x with
    | change _ => cases cull
    | _ => exact Bool.false_ne_true
  rw [State.replaceChange, mem_placeMark, List.mem_eraseP_of_neg apart]
  exact or_iff_right other

end Sys2Proof.Machine
end

section
/-! PROOF. What the arrival of a plan touches, and the gap that it places (R103, R104, R114). -/

namespace Sys2Proof.Machine

open Sys2Proof

/-! ### What arrivals of plans touch -/

/-- The provisional mark m has become m': it is the same, or its end and X_ex have moved together (R59). -/
def Moved (m m' : ChangeMark) : Prop := m' = m ∨ m' = { m with p := m'.p, xEx := m'.p }

/-- What arrivals of plans at the stands of K can do, whose gaps end at b. -/
structure Arrivals (K : List Stand) (b : Coord) (s t : State) : Prop where
  frame : t = { s with marks := t.marks, seqs := t.seqs, capFlag := t.capFlag, link := t.link, errors := t.errors,
                       serial := t.serial, draws := t.draws }
  queues : ∀ d, d ≠ .splice → t.link.queue d = s.link.queue d
  seqs : ∀ j, j ∉ K → (s.seq j).state.waitsForReel = false → t.seq j = s.seq j
  serial : s.serial ≤ t.serial
  status : ∀ i, s.errors.status.getLsbD i = true → t.errors.status.getLsbD i = true
  gapsIn : ∀ x, Mark.gap x ∈ s.marks → Mark.gap x ∈ t.marks
  gapsOut : ∀ x, Mark.gap x ∈ t.marks → Mark.gap x ∈ s.marks ∨ x.stand ∈ K
  length : t.marks.length ≤ s.marks.length + K.length
  find : ∀ u, (∀ pr, s.planner = some pr → u ≠ pr.mark) → t.findChange u = s.findChange u
  provisional : ∀ pr m, s.planner = some pr → pr.mark = m.uid → Alone s m → ∃ m', Alone t m' ∧ Moved m m'
    ∧ ((∀ o, m.outgoing = some o → before o.start b = false) → m' = m)

namespace Moved

variable {m m' m'' : ChangeMark}

theorem refl (m : ChangeMark) : Moved m m := .inl rfl

theorem uid (h : Moved m m') : m'.uid = m.uid := by
  rcases h with rfl | h
  · rfl
  · rw [h]

theorem outgoing (h : Moved m m') : m'.outgoing = m.outgoing := by
  rcases h with rfl | h
  · rfl
  · rw [h]

theorem trans (h : Moved m m') (g : Moved m' m'') : Moved m m'' := by
  rcases h with rfl | h
  · exact g
  · rcases g with rfl | g
    · exact .inr h
    · rw [h] at g; exact .inr g

end Moved

namespace Arrivals

variable {K L : List Stand} {b : Coord} {s t u : State}

theorem odometer (h : Arrivals K b s t) : t.odometer = s.odometer := by rw [h.frame]
theorem config (h : Arrivals K b s t) : t.config = s.config := by rw [h.frame]
theorem reels (h : Arrivals K b s t) : t.reels = s.reels := by rw [h.frame]
theorem planner (h : Arrivals K b s t) : t.planner = s.planner := by rw [h.frame]
theorem orders (h : Arrivals K b s t) : t.orders = s.orders := by rw [h.frame]
theorem grades (h : Arrivals K b s t) : t.grades = s.grades := by rw [h.frame]
theorem runSeq (h : Arrivals K b s t) : t.runSeq = s.runSeq := by rw [h.frame]
theorem knife (h : Arrivals K b s t) : t.knife = s.knife := by rw [h.frame]

theorem refl (b : Coord) (s : State) : Arrivals [] b s s where
  frame := rfl
  queues _ _ := rfl
  seqs _ _ _ := rfl
  serial := le_rfl
  status _ h := h
  gapsIn _ h := h
  gapsOut _ h := .inl h
  length := le_rfl
  find _ _ := rfl
  provisional _ m _ _ alone := ⟨m, alone, .refl m, fun _ => rfl⟩

theorem trans (h : Arrivals K b s t) (g : Arrivals L b t u) : Arrivals (K ++ L) b s u where
  frame := by rw [g.frame, h.frame]
  queues d n := (g.queues d n).trans (h.queues d n)
  seqs j out w := by
    have out' := not_or.mp (mt List.mem_append.mpr out)
    have same := h.seqs j out'.1 w
    exact (g.seqs j out'.2 (by rw [same]; exact w)).trans same
  serial := h.serial.trans g.serial
  status i on := g.status i (h.status i on)
  gapsIn x mem := g.gapsIn x (h.gapsIn x mem)
  gapsOut x mem := by
    rcases g.gapsOut x mem with mem | k
    · exact (h.gapsOut x mem).imp id fun k => List.mem_append_left _ k
    · exact .inr (List.mem_append_right _ k)
  length := by have := h.length; have := g.length; rw [List.length_append]; omega
  find u other := (g.find u fun pr p => other pr (h.planner ▸ p)).trans (h.find u other)
  provisional pr m p uid alone := by
    obtain ⟨m', alone', moved, near⟩ := h.provisional pr m p uid alone
    obtain ⟨m'', alone'', moved', near'⟩ :=
      g.provisional pr m' (h.planner.trans p) (uid.trans moved.uid.symm) alone'
    exact ⟨m'', alone'', moved.trans moved', fun apart =>
      (near' fun o out => apart o (moved.outgoing ▸ out)).trans (near apart)⟩

end Arrivals

/-! ### The gap of a plan (R114) -/

theorem plusMm_shiftBy (b : Coord) (n : Nat) : plusMm (shiftBy b (-(n : Int))) n = b := by
  simp only [plusMm, shiftBy, BitVec.ofInt_neg, BitVec.ofInt_natCast]
  rw [BitVec.add_assoc, BitVec.add_comm (-_), BitVec.add_right_neg, BitVec.add_zero]

/-- R108: beside the marks, a granted cull does what the checks of waiting stands do. -/
theorem cullGranted_waiters (s : State) (a b : Coord) :
    WaitersOnly { s with marks := (s.cullGranted a b).marks } (s.cullGranted a b) := by
  rcases cullGranted_cases s a b with ⟨pr, m, o, prov, out, h⟩ | ⟨same, -⟩
  · rw [cullGranted_of_culls prov out h, moveEnd_marks, State.moveEnd]
    split
    · exact WaitersOnly.recheckAll s
    · exact WaitersOnly.recheckAll _
  · rw [same]; exact WaitersOnly.refl s

theorem provisional_planner {s : State} {pr : Provisional} {m : ChangeMark} (h : s.provisional = some (pr, m)) :
    s.planner = some pr ∧ pr.mark = m.uid := by
  unfold State.provisional at h
  split at h
  · cases h
  · next p planner =>
    obtain ⟨x, found, is⟩ := Option.map_eq_some_iff.mp h
    cases is
    exact ⟨planner, (findChange_mem found).2.symm⟩

theorem moveEnd_findChange {s : State} {m : ChangeMark} {p : Coord} {u : Nat} (ne : u ≠ m.uid) :
    (s.moveEnd m p).findChange u = s.findChange u := by
  have marks := moveEnd_marks s m p
  split at marks
  · exact findChange_of_marks marks u
  · rw [findChange_of_marks marks]; exact replaceChange_findChange ne

theorem cullGranted_findChange {s : State} (a b : Coord) {u : Nat} (other : ∀ pr, s.planner = some pr → u ≠ pr.mark) :
    (s.cullGranted a b).findChange u = s.findChange u := by
  rcases cullGranted_cases s a b with ⟨pr, m, o, prov, out, h⟩ | ⟨same, -⟩
  · obtain ⟨planner, uid⟩ := provisional_planner prov
    rw [cullGranted_of_culls prov out h]
    exact moveEnd_findChange (uid ▸ other pr planner)
  · rw [same]

/-- R59, R72: the provisional mark alone stays alone; its end moves where the cull overlaps its segment. -/
theorem cullGranted_alone {s : State} (a b : Coord) {pr : Provisional} {m : ChangeMark} (p : s.planner = some pr)
    (uid : pr.mark = m.uid) (alone : Alone s m) : ∃ m', Alone (s.cullGranted a b) m' ∧ Moved m m'
      ∧ ((∀ o, m.outgoing = some o → before o.start b = false) → m' = m) := by
  rcases cullGranted_cases s a b with ⟨pr', m₁, o, prov, out, h⟩ | ⟨same, -⟩
  · obtain ⟨planner, uid'⟩ := provisional_planner prov
    obtain rfl : pr = pr' := Option.some.inj (p.symm.trans planner)
    have found := provisional_findChange prov
    rw [← uid', uid, alone.findChange] at found
    obtain rfl : m = m₁ := Option.some.inj found
    have apart : ¬ ∀ o, m.outgoing = some o → before o.start b = false := fun apart => by
      have meet := h.2
      simp only [overlaps, Bool.and_eq_true] at meet
      rw [apart o out] at meet
      exact Bool.false_ne_true meet.2
    rw [cullGranted_of_culls prov out h]
    generalize laterOf (cleanEnd s.cullZones o.cutLength pr.count pr.base) m.p = e
    have marks := moveEnd_marks s m e
    split at marks
    · exact ⟨m, alone.of_marks marks, .refl m, fun _ => rfl⟩
    · exact ⟨{ m with p := e, xEx := e }, (alone.replaceChange (c := { m with p := e, xEx := e }) rfl).of_marks marks,
        .inr rfl, fun h => absurd h apart⟩
  · rw [same]; exact ⟨m, alone, .refl m, fun _ => rfl⟩

theorem cullGranted_gaps (s : State) (a b : Coord) (x : GapMark) :
    Mark.gap x ∈ (s.cullGranted a b).marks ↔ Mark.gap x ∈ s.marks := by
  rcases cullGranted_cases s a b with ⟨pr, m, o, prov, out, h⟩ | ⟨same, -⟩
  · rw [cullGranted_of_culls prov out h, moveEnd_marks]
    split
    · rfl
    · exact mem_replaceChange_cull rfl
  · rw [same]

/-- R114: the gap placed, where a slot is free. -/
def gapMark (s : State) (k : Stand) (a b : Coord) : GapMark :=
  ⟨s.serial, shiftBy b (-((min (sdist a b).toNat 1000000 : Nat) : Int)), min (sdist a b).toNat 1000000, k⟩

/-- R114: the state with the gap placed and handed to the span planner. -/
def gapPlaced (s : State) (k : Stand) (a b : Coord) : State :=
  (s.bumpSerial.placeMark (.gap (gapMark s k a b))).cullGranted (gapMark s k a b).start b

theorem placeGap_eq (s : State) (k : Stand) (a b : Coord) : s.placeGap k a b =
    if sdist a b ≤ 0 then s
    else if s.marks.length < 48 then (gapPlaced s k a b).raise .gradeGap (.stand k)
    else (s.raise .markOverflow (.stand k)).raise .gradeGap (.stand k) := by
  have room : 0 < s.freeMarks ↔ s.marks.length < 48 := by
    rw [State.freeMarks, show Config.markSlots = 48 from rfl]; omega
  have stop : (Mark.gap (gapMark s k a b)).cullZone = some ((gapMark s k a b).start, b) := by
    simp only [Mark.cullZone, Mark.stop, Mark.start, gapMark, plusMm_shiftBy, Option.map_some]
  unfold State.placeGap
  split
  · rfl
  · simp only [room]
    split
    · exact congrArg (State.raise · .gradeGap (.stand k))
        (show State.placeCullMark s.bumpSerial (.gap (gapMark s k a b)) = _ by rw [State.placeCullMark, stop]; rfl)
    · rfl

theorem gapPlaced_seq {s : State} {k : Stand} {a b : Coord} {j : Stand} (w : (s.seq j).state.waitsForReel = false) :
    (gapPlaced s k a b).seq j = s.seq j :=
  (cullGranted_waiters (s.bumpSerial.placeMark (.gap (gapMark s k a b))) _ b).seqs j w

theorem gapPlaced_arrivals (s : State) (k : Stand) (a b : Coord) : Arrivals [k] b s (gapPlaced s k a b) := by
  have cull : (Mark.gap (gapMark s k a b)).asChange = none := rfl
  have waiters := cullGranted_waiters (s.bumpSerial.placeMark (.gap (gapMark s k a b))) (gapMark s k a b).start b
  obtain ⟨length, -, -⟩ := cullGranted_marks (s := s.bumpSerial.placeMark (.gap (gapMark s k a b)))
    (gapMark s k a b).start b
  have gaps := cullGranted_gaps (s.bumpSerial.placeMark (.gap (gapMark s k a b))) (gapMark s k a b).start b
  exact {
    frame := waiters.frame.trans rfl
    queues := waiters.queues
    seqs := fun j _ w => gapPlaced_seq w
    serial := (Nat.le_succ _).trans waiters.serial
    status := ((Evolves.refl (s.bumpSerial.placeMark (.gap (gapMark s k a b)))).cullGranted).status
    gapsIn := fun x mem => (gaps x).mpr (mem_placeMark.mpr (.inr mem))
    gapsOut := fun x mem => by
      rcases mem_placeMark.mp ((gaps x).mp mem) with is | mem
      · rw [Mark.gap.inj is]; exact .inr (List.mem_singleton_self k)
      · exact .inl mem
    length := length.le.trans (by rw [State.placeMark_marks, insertMark_length]; exact le_rfl)
    find := fun u other => by
      have granted := cullGranted_findChange (s := s.bumpSerial.placeMark (.gap (gapMark s k a b)))
        (gapMark s k a b).start b other
      rw [gapPlaced, granted, placeMark_findChange cull]; rfl
    provisional := fun pr m p uid alone => cullGranted_alone _ b p uid (alone.placeMark rfl) }

theorem placeGap_seq {s : State} {k : Stand} {a b : Coord} {j : Stand} (w : (s.seq j).state.waitsForReel = false) :
    (s.placeGap k a b).seq j = s.seq j := by
  rw [placeGap_eq]
  split
  · rfl
  · split
    · exact gapPlaced_seq w
    · rfl

namespace Arrivals

variable {K : List Stand} {b : Coord} {s t u : State}

/-- An event at one of the stands, behind the arrivals. -/
theorem thenStand (h : Arrivals K b s t) {k : Stand} (mem : k ∈ K) (g : SpliceAt k t u)
    (status : ∀ i, s.errors.status.getLsbD i = true → u.errors.status.getLsbD i = true) : Arrivals K b s u where
  frame := by rw [g.frame, h.frame]
  queues d n := (g.queues d n).trans (h.queues d n)
  seqs j out w := (g.others j fun e => out (e ▸ mem)).trans (h.seqs j out w)
  serial := h.serial.trans g.serial
  status := status
  gapsIn x mem := by rw [g.frame.marks]; exact h.gapsIn x mem
  gapsOut x mem := h.gapsOut x (by rwa [g.frame.marks] at mem)
  length := by rw [g.frame.marks]; exact h.length
  find u other := (findChange_of_marks g.frame.marks u).trans (h.find u other)
  provisional pr m p uid alone := by
    obtain ⟨m', alone', moved, near⟩ := h.provisional pr m p uid alone
    exact ⟨m', alone'.of_marks g.frame.marks, moved, near⟩

theorem raise (h : Arrivals K b s t) (e : ErrorKind) (o : ErrorObject) : Arrivals K b s (t.raise e o) where
  frame := by rw [State.raise, h.frame]
  queues := h.queues
  seqs := h.seqs
  serial := h.serial
  status i on := (Evolves.refl t).raise.status i (h.status i on)
  gapsIn := h.gapsIn
  gapsOut := h.gapsOut
  length := h.length
  find := h.find
  provisional pr m p uid alone := by
    obtain ⟨m', alone', moved, near⟩ := h.provisional pr m p uid alone
    exact ⟨m', alone'.of_marks rfl, moved, near⟩

/-- The stands named may be more than those where something arrived. -/
theorem widen (h : Arrivals [] b s t) (K : List Stand) : Arrivals K b s t where
  frame := h.frame
  queues := h.queues
  seqs j _ := h.seqs j List.not_mem_nil
  serial := h.serial
  status := h.status
  gapsIn := h.gapsIn
  gapsOut x mem := (h.gapsOut x mem).imp id fun k => absurd k List.not_mem_nil
  length := h.length.trans (by simp)
  find := h.find
  provisional := h.provisional

end Arrivals

theorem placeGap_arrivals (s : State) (k : Stand) (a b : Coord) : Arrivals [k] b s (s.placeGap k a b) := by
  rw [placeGap_eq]
  split
  · exact (Arrivals.refl b s).widen [k]
  · split
    · exact (gapPlaced_arrivals s k a b).raise _ _
    · exact (((Arrivals.refl b s).widen [k]).raise _ _).raise _ _

theorem bit_isIn (e : ErrorKind) : e.isIn e.bit = true := by cases e <;> decide

/-- R198: a raise sets its status. -/
theorem raise_isIn (s : State) (e : ErrorKind) (o : ErrorObject) : e.isIn (s.raise e o).errors.status = true := by
  have set : (s.raise e o).errors.status = s.errors.status ||| e.bit := by
    rw [State.raise, Errors.raised]
    split <;> rfl
  rw [set, ErrorKind.isIn, BitVec.getLsbD_or, ← ErrorKind.isIn, ← ErrorKind.isIn, bit_isIn, Bool.or_true]

/-- R114: a gap that is not empty raises GRADE_GAP. -/
theorem placeGap_raises {s : State} {k : Stand} {a b : Coord} (long : 0 < sdist a b) :
    ErrorKind.gradeGap.isIn (s.placeGap k a b).errors.status = true := by
  rw [placeGap_eq, if_neg (by omega)]
  split <;> exact raise_isIn _ _ _

/-- R114: the gap is placed where a slot is free. -/
theorem gapMark_mem {s : State} {k : Stand} {a b : Coord} (long : 0 < sdist a b) (room : s.marks.length < 48) :
    Mark.gap (gapMark s k a b) ∈ (s.placeGap k a b).marks := by
  rw [placeGap_eq, if_neg (by omega), if_pos room]
  exact (cullGranted_gaps _ _ b _).mpr (mem_placeMark.mpr (.inl rfl))

end Sys2Proof.Machine
end

section
/-! PROOF. A plan that arrives at a stand whose reel does not meet it (R103, R104), seen from the state before the request. -/

namespace Sys2Proof.Machine

open Sys2Proof

/-! ### The arrival of a plan -/

/-- R104: the plan that a new one replaces, deferred at a stand that splices, else pending. -/
def heldPlan (s : State) (k : Stand) : Option Plan :=
  if (s.seq k).state = .splicing then (s.seq k).deferred else (s.seq k).plan

/-- R104: the state with the gap of the replaced plan placed. -/
def planGap (s : State) (k : Stand) (pl : Plan) : State :=
  match heldPlan s k with
  | some old => s.abandonedGap k old pl
  | none => s

/-- R103: a plan that the running reel does not meet, taken as the pending plan of a stand. -/
def takePending (s : State) (k : Stand) (pl : Plan) : State :=
  let u := s.setPlan k (some pl)
  match (u.seq k).state with
  | .idle => u.armGrade k pl
  | .armed | .waitReel | .waitGo => if (u.seq k).holdsGrade then u.armGrade k pl else u
  | .splicing | .fault => u

theorem runningCode_of_reels {s t : State} (h : t.reels = s.reels) (k : Stand) : t.runningCode k = s.runningCode k := by
  simp only [State.runningCode, State.runningPos, State.slot, h]
  rfl

theorem planGap_arrivals (s : State) (k : Stand) (pl : Plan) : Arrivals [k] pl.p s (planGap s k pl) := by
  unfold planGap
  split
  · exact placeGap_arrivals s k _ pl.p
  · exact (Arrivals.refl pl.p s).widen [k]

theorem planGap_seq {s : State} {k : Stand} (pl : Plan) {j : Stand} (w : (s.seq j).state.waitsForReel = false) :
    (planGap s k pl).seq j = s.seq j := by
  unfold planGap
  split
  · exact placeGap_seq w
  · rfl

theorem planGap_none {s : State} {k : Stand} (pl : Plan) (none : heldPlan s k = none) : planGap s k pl = s := by
  rw [planGap, none]

theorem planArrives_splicing {s : State} {k : Stand} (pl : Plan) (splicing : (s.seq k).state = .splicing) :
    s.planArrives k pl
      = (planGap s k pl).setSeq k { (planGap s k pl).seq k with deferred := some pl } := by
  have held : heldPlan s k = (s.seq k).deferred := if_pos splicing
  cases old : (s.seq k).deferred with
  | none =>
    rw [planGap_none pl (held.trans old)]
    simp only [State.planArrives, splicing, old]
  | some d =>
    have gap : planGap s k pl = s.abandonedGap k d pl := by rw [planGap, held, old]
    rw [gap]
    simp only [State.planArrives, splicing, old]

theorem planArrives_pending {s : State} {k : Stand} {pl : Plan} (splicing : (s.seq k).state ≠ .splicing)
    (unmet : s.runningCode k ≠ some pl.code) : s.planArrives k pl = takePending (planGap s k pl) k pl := by
  have held : heldPlan s k = (s.seq k).plan := if_neg splicing
  have taken : s.planArrives k pl = s.takePlan k pl := by
    unfold State.planArrives
    split
    · next h => exact absurd h splicing
    · rfl
  have unfolded : s.takePlan k pl = if ((planGap s k pl).setPlan k (some pl)).planSatisfied k pl then
      ((planGap s k pl).setPlan k (some pl)).clearSatisfied k pl else takePending (planGap s k pl) k pl := by
    rw [planGap, held]
    cases plan : (s.seq k).plan <;> simp only [State.takePlan, plan] <;> rfl
  have open_ : ((planGap s k pl).setPlan k (some pl)).planSatisfied k pl = false := by
    have code : ((planGap s k pl).setPlan k (some pl)).runningCode k = s.runningCode k :=
      runningCode_of_reels ((State.setPlan_reels _ _ _).trans (planGap_arrivals s k pl).reels) k
    rw [State.planSatisfied, code]
    simpa using unmet
  rw [taken, unfolded, open_]
  rfl

theorem State.released_at {k : Stand} {s t : State} (h : SpliceAt k s t) (q : SeqState) : SpliceAt k s (t.released q) := by
  unfold State.released; split
  · exact h.capRelease
  · exact h

theorem armGrade_at (s : State) (k : Stand) (pl : Plan) : SpliceAt k s (s.armGrade k pl) := by
  have released := State.released_at ((SpliceAt.refl k s).setSeq
    (q := { s.seq k with state := .armed, splice := some ⟨.grade, pl.due⟩, required := none })) (s.seq k).state
  unfold State.armGrade State.dueCheck
  dsimp only
  split
  · split
    · exact released.checkReel
    · exact released
  · exact released

theorem takePending_at (s : State) (k : Stand) (pl : Plan) : SpliceAt k s (takePending s k pl) := by
  have set : SpliceAt k s (s.setPlan k (some pl)) := (SpliceAt.refl k s).setSeq
  unfold takePending
  dsimp only
  split
  · exact set.trans (armGrade_at _ k pl)
  all_goals first | exact set | (split; exacts [set.trans (armGrade_at _ k pl), set])

theorem released_seq (s : State) (q : SeqState) (k : Stand) : (s.released q).seq k = s.seq k := by
  unfold State.released State.capRelease
  repeat' split
  · exact enqueue_seq _ _ k
  all_goals rfl

/-- R103, R107: a stand armed for a plan that is not due. -/
theorem armGrade_seq {s : State} {k : Stand} {pl : Plan} (early : reached s.odometer pl.due = false) :
    (s.armGrade k pl).seq k
      = { s.seq k with state := .armed, splice := some ⟨.grade, pl.due⟩, required := none } := by
  have at_ := State.released_at ((SpliceAt.refl k s).setSeq
    (q := { s.seq k with state := .armed, splice := some ⟨.grade, pl.due⟩, required := none })) (s.seq k).state
  have seq := (released_seq (s.setSeq k { s.seq k with state := .armed, splice := some ⟨.grade, pl.due⟩, required := none })
    (s.seq k).state k).trans (State.seq_setSeq_same s k _)
  unfold State.armGrade
  dsimp only
  simp only [State.dueCheck, seq, at_.frame.odometer, early, Bool.false_eq_true, if_false]

theorem setPlan_seq (s : State) (k : Stand) (pl : Option Plan) : (s.setPlan k pl).seq k = { s.seq k with plan := pl } :=
  State.seq_setSeq_same s k _

/-- R103: IDLE arms GRADE for the plan. -/
theorem takePending_idle {s : State} {k : Stand} {pl : Plan} (idle : (s.seq k).state = .idle)
    (early : reached s.odometer pl.due = false) : (takePending s k pl).seq k
      = { s.seq k with state := .armed, splice := some ⟨.grade, pl.due⟩, required := none, plan := some pl } := by
  have plan := setPlan_seq s k (some pl)
  simp only [takePending, plan, idle]
  rw [armGrade_seq (s := s.setPlan k (some pl)) early, plan]

/-- R104: ARMED for the GRADE of a pending plan is armed for the new one. -/
theorem takePending_armed {s : State} {k : Stand} {pl : Plan} {due : Coord} (armed : (s.seq k).state = .armed)
    (grade : (s.seq k).splice = some ⟨.grade, due⟩) (early : reached s.odometer pl.due = false) :
    (takePending s k pl).seq k
      = { s.seq k with state := .armed, splice := some ⟨.grade, pl.due⟩, required := none, plan := some pl } := by
  have plan := setPlan_seq s k (some pl)
  have holds : ((s.setPlan k (some pl)).seq k).holdsGrade = true := by
    rw [plan]; simp only [Sequencer.holdsGrade, armed, grade]
  simp only [takePending, holds, if_true]
  rw [plan]
  simp only [armed]
  rw [armGrade_seq (s := s.setPlan k (some pl)) early, plan]

/-- R103: FAULT, and ARMED for a splice of another kind, go on as they were. -/
theorem takePending_goesOn {s : State} {k : Stand} {pl : Plan}
    (h : (s.seq k).state = .fault
      ∨ ((s.seq k).state = .armed ∧ ∃ sp, (s.seq k).splice = some sp ∧ sp.kind ≠ .grade)) :
    (takePending s k pl).seq k = { s.seq k with plan := some pl } := by
  have plan := setPlan_seq s k (some pl)
  rcases h with fault | ⟨armed, sp, hand, other⟩
  · simp only [takePending, plan, fault]
  · have holds : ((s.setPlan k (some pl)).seq k).holdsGrade = false := by
      obtain ⟨kind, due⟩ := sp
      rw [plan]
      simp only [Sequencer.holdsGrade, armed, hand]
      cases kind <;> first | rfl | exact absurd rfl other
    have state : ((s.setPlan k (some pl)).seq k).state = .armed := by rw [plan]; exact armed
    simp only [takePending, state, holds, Bool.false_eq_true, if_false]
    exact plan

/-- R103: beyond its gap, an arrival touches the stand alone. -/
theorem planArrives_at {s : State} {k : Stand} {pl : Plan} (unmet : s.runningCode k ≠ some pl.code) :
    SpliceAt k (planGap s k pl) (s.planArrives k pl) := by
  by_cases splicing : (s.seq k).state = .splicing
  · rw [planArrives_splicing pl splicing]
    exact (SpliceAt.refl k _).setSeq
  · rw [planArrives_pending splicing unmet]
    exact takePending_at _ k pl

/-- R198: no status is lost behind the gap. -/
theorem planArrives_status {s : State} {k : Stand} {pl : Plan} (unmet : s.runningCode k ≠ some pl.code) :
    ∀ i, (planGap s k pl).errors.status.getLsbD i = true → (s.planArrives k pl).errors.status.getLsbD i = true := by
  by_cases splicing : (s.seq k).state = .splicing
  · rw [planArrives_splicing pl splicing]; exact fun _ h => h
  · rw [planArrives_pending splicing unmet]
    have set := (Evolves.refl (planGap s k pl)).setPlan (k := k) (p := some pl)
    unfold takePending
    dsimp only
    split
    · exact set.armGrade.status
    all_goals first | exact set.status | (split; exacts [set.armGrade.status, set.status])

theorem planArrives_arrivals {s : State} {k : Stand} {pl : Plan} (unmet : s.runningCode k ≠ some pl.code) :
    Arrivals [k] pl.p s (s.planArrives k pl) :=
  (planGap_arrivals s k pl).thenStand (List.mem_singleton_self k) (planArrives_at unmet)
    (Evolves.refl s).planArrives.status

end Sys2Proof.Machine
end

section
/-! PROOF. The plans of a launch by request, each at its stand (R55, R69, R71), from the state before to the state after. -/

namespace Sys2Proof.Machine

open Sys2Proof

/-! ### A part of a launch seen from one stand -/

/-- What a part of a launch leaves alone that matters to a plan arriving at stand k: of the marks, those with a serial number
below `bound` but the one named; `n` slots of the table at most are taken. -/
structure Toward (bound mark n : Nat) (k : Stand) (s t : State) : Prop where
  odometer : t.odometer = s.odometer
  config : t.config = s.config
  reels : t.reels = s.reels
  serial : s.serial ≤ t.serial
  status : ∀ i, s.errors.status.getLsbD i = true → t.errors.status.getLsbD i = true
  seq : (s.seq k).state.waitsForReel = false → t.seq k = s.seq k
  find : ∀ u, u < bound → u ≠ mark → t.findChange u = s.findChange u
  gapsIn : ∀ x, Mark.gap x ∈ s.marks → Mark.gap x ∈ t.marks
  gapsOut : ∀ x, Mark.gap x ∈ t.marks → x.stand = k → Mark.gap x ∈ s.marks
  length : t.marks.length ≤ s.marks.length + n

namespace Toward

variable {bound mark n m : Nat} {k : Stand} {s t u : State}

theorem trans (h : Toward bound mark n k s t) (g : Toward bound mark m k t u) : Toward bound mark (n + m) k s u where
  odometer := g.odometer.trans h.odometer
  config := g.config.trans h.config
  reels := g.reels.trans h.reels
  serial := h.serial.trans g.serial
  status i on := g.status i (h.status i on)
  seq w := (g.seq (by rw [h.seq w]; exact w)).trans (h.seq w)
  find u lt ne := (g.find u lt ne).trans (h.find u lt ne)
  gapsIn x mem := g.gapsIn x (h.gapsIn x mem)
  gapsOut x mem stand := h.gapsOut x (g.gapsOut x mem stand) stand
  length := by have := h.length; have := g.length; omega

/-- A part that leaves the table, the reels and the sequencer of the stand alone. -/
theorem ofMarks (marks : t.marks = s.marks) (odometer : t.odometer = s.odometer) (config : t.config = s.config)
    (reels : t.reels = s.reels) (serial : s.serial ≤ t.serial)
    (status : ∀ i, s.errors.status.getLsbD i = true → t.errors.status.getLsbD i = true)
    (seq : (s.seq k).state.waitsForReel = false → t.seq k = s.seq k) : Toward bound mark 0 k s t where
  odometer := odometer
  config := config
  reels := reels
  serial := serial
  status := status
  seq := seq
  find u _ _ := findChange_of_marks marks u
  gapsIn x mem := by rwa [marks]
  gapsOut x mem _ := by rwa [marks] at mem
  length := by rw [marks]; exact le_rfl

theorem refl (bound mark : Nat) (k : Stand) (s : State) : Toward bound mark 0 k s s :=
  ofMarks rfl rfl rfl rfl le_rfl (fun _ h => h) fun _ => rfl

theorem ofWaiters (h : WaitersOnly s t)
    (status : ∀ i, s.errors.status.getLsbD i = true → t.errors.status.getLsbD i = true) : Toward bound mark 0 k s t :=
  ofMarks h.frame.marks h.frame.odometer h.frame.config h.frame.reels h.serial status (h.seqs k)

theorem recheckAll (s : State) : Toward bound mark 0 k s s.recheckAll :=
  ofWaiters (WaitersOnly.recheckAll s) (Evolves.refl s).recheckAll.status

/-- Arrivals at other stands. -/
theorem ofArrivals {K : List Stand} {b : Coord} (h : Arrivals K b s t) (out : k ∉ K)
    (new : ∀ pr, s.planner = some pr → bound ≤ pr.mark) : Toward bound mark K.length k s t where
  odometer := h.odometer
  config := h.config
  reels := h.reels
  serial := h.serial
  status := h.status
  seq := h.seqs k out
  find u lt _ := h.find u fun pr p => (lt.trans_le (new pr p)).ne
  gapsIn := h.gapsIn
  gapsOut x mem stand := (h.gapsOut x mem).resolve_right fun other => out (stand ▸ other)
  length := h.length

/-- A new CHANGE mark in the table. -/
theorem placeMark (s : State) {c : ChangeMark} (new : bound ≤ c.uid) : Toward bound mark 1 k s (s.placeMark (.change c)) where
  odometer := rfl
  config := rfl
  reels := rfl
  serial := le_rfl
  status _ h := h
  seq _ := rfl
  find u lt _ := by
    rw [findChange_eq_find, findChange_eq_find]
    exact congrArg (Option.bind · Mark.asChange) (find_insertMark_other (isChangeOf_other (lt.trans_le new).ne) _)
  gapsIn x mem := mem_placeMark.mpr (.inr mem)
  gapsOut x mem _ := (mem_placeMark.mp mem).resolve_left nofun
  length := by rw [State.placeMark_marks, insertMark_length]

theorem noGap (h : Toward bound mark n k s t) : NoGap s t k := h.gapsOut

end Toward

/-! ### A plan at its stand (R103, R104) -/

section Taken

variable {s v t : State} {k : Stand} {pl : Plan} {slots n m : Nat}

/-- R104: the gap of an abandoned plan begins where the statements say. -/
theorem abandonedGap_eq {old : Plan} {start : Coord}
    (from_ : AbandonedFrom v old (shiftBy v.odometer (-(knOffset v.config))) start) :
    v.abandonedGap k old pl = v.placeGap k start pl.p := by
  rcases from_ with ⟨c, g, found, length, rfl⟩ | ⟨gone, rfl⟩
  · simp only [State.abandonedGap, found, length]; rfl
  · simp only [State.abandonedGap, gone]; rfl

variable (before_ : Toward s.serial pl.mark n k s v) (unmet : s.runningCode k ≠ some pl.code)
include before_ unmet

theorem unmet_there : v.runningCode k ≠ some pl.code := by rw [runningCode_of_reels before_.reels]; exact unmet

variable (after : Toward s.serial pl.mark m k (v.planArrives k pl) t)
include after

/-- R104: a plan that replaces none places no gap. -/
theorem planTaken_noGap (none : heldPlan v k = none) : NoGap s t k := by
  intro x mem stand
  have early := after.gapsOut x mem stand
  rw [(planArrives_at (unmet_there before_ unmet)).frame.marks, planGap_none pl none] at early
  exact before_.gapsOut x early stand

/-- R104, R114: the gap of a plan that is replaced. -/
theorem planTaken_gap (keyed : s.MarksKeyed) (few : n < slots) {old : Plan} (held : heldPlan v k = some old)
    (other : old.mark ≠ pl.mark) (known : old.mark < s.serial) {start : Coord}
    (from_ : AbandonedFrom s old (shiftBy s.odometer (-(knOffset s.config))) start) :
    GapHandled s t slots k start pl.p := by
  have same : AbandonedFrom v old (shiftBy v.odometer (-(knOffset v.config))) start := by
    rw [AbandonedFrom, before_.find _ known other, before_.odometer, before_.config]; exact from_
  have gap : planGap v k pl = v.placeGap k start pl.p := by rw [planGap, held]; exact abandonedGap_eq same
  have arrived := planArrives_at (unmet_there before_ unmet)
  have raised := planArrives_status (unmet_there before_ unmet)
  rw [gap] at arrived raised
  refine ⟨fun empty x mem stand => ?_, fun long => ⟨after.status _ (raised _ (placeGap_raises long)), fun room => ?_⟩⟩
  · have early := after.gapsOut x mem stand
    rw [arrived.frame.marks, placeGap_eq, if_pos empty] at early
    exact before_.gapsOut x early stand
  · have short := before_.length
    have placed := gapMark_mem (s := v) (k := k) (b := pl.p) long (by omega)
    refine ⟨gapMark v k start pl.p, after.gapsIn _ (by rw [arrived.frame.marks]; exact placed), fun old => ?_, rfl, rfl, rfl⟩
    exact absurd (keyed.2 _ old) (not_lt.mpr before_.serial)

/-- R103, R104: what a plan does that arrives on the way from s to t. -/
theorem planTaken (keyed : s.MarksKeyed) (few : n < slots) : PlanTaken s t s.odometer slots k pl := by
  have there := unmet_there before_ unmet
  /- A stand that does not wait has its sequencer of s, and leaves its own one in t where it does not come to wait. -/
  have sequencer : ∀ q : Sequencer, (s.seq k).state.waitsForReel = false → (s.seq k).state ≠ .splicing →
      (takePending (planGap v k pl) k pl).seq k = q → q.state.waitsForReel = false → t.seq k = q :=
    fun q w splicing taken quiet => by
      have taken' : (v.planArrives k pl).seq k = q := by
        rw [planArrives_pending (by rw [before_.seq w]; exact splicing) there, taken]
      rw [after.seq (by rw [taken']; exact quiet), taken']
  have gapSeq : (s.seq k).state.waitsForReel = false → (planGap v k pl).seq k = s.seq k := fun w =>
    (planGap_seq pl (by rw [before_.seq w]; exact w)).trans (before_.seq w)
  have gapOdometer : (planGap v k pl).odometer = s.odometer :=
    (planGap_arrivals v k pl).odometer.trans before_.odometer
  have held : ∀ {state : SeqState}, (s.seq k).state = state → state.waitsForReel = false →
      heldPlan v k = if state = .splicing then (s.seq k).deferred else (s.seq k).plan := fun is w => by
    rw [heldPlan, before_.seq (by rw [is]; exact w), is]
  refine ⟨fun splicing => ?_, fun _ => ⟨fun idle none early => ?_, fun on => ?_, fun due old armed grade plan early => ?_⟩⟩
  · have w : (s.seq k).state.waitsForReel = false := by rw [splicing]; rfl
    have deferred := held splicing rfl
    rw [if_pos rfl] at deferred
    have taken : (v.planArrives k pl).seq k = { s.seq k with deferred := some pl } := by
      rw [planArrives_splicing pl (by rw [before_.seq w]; exact splicing), State.seq_setSeq_same, gapSeq w]
    refine ⟨?_, fun none => planTaken_noGap before_ unmet after (deferred.trans none), fun old is other known start from_ =>
      planTaken_gap before_ unmet after keyed few (deferred.trans is) other known from_⟩
    rw [after.seq (by rw [taken]; exact w), taken]
  · have w : (s.seq k).state.waitsForReel = false := by rw [idle]; rfl
    have taken := takePending_idle (s := planGap v k pl) (k := k) (pl := pl) (by rw [gapSeq w]; exact idle)
      (by rw [gapOdometer]; exact early)
    rw [gapSeq w] at taken
    exact ⟨sequencer _ w (by rw [idle]; decide) taken rfl,
      planTaken_noGap before_ unmet after ((held idle rfl).trans (by rw [if_neg (by decide)]; exact none))⟩
  · have w : (s.seq k).state.waitsForReel = false := by
      rcases on with h | ⟨h, -⟩ <;> rw [h] <;> rfl
    have splicing : (s.seq k).state ≠ .splicing := by
      rcases on with h | ⟨h, -⟩ <;> rw [h] <;> decide
    have plan := held rfl w
    rw [if_neg splicing] at plan
    have taken := takePending_goesOn (s := planGap v k pl) (k := k) (pl := pl) (by rw [gapSeq w]; exact on)
    rw [gapSeq w] at taken
    exact ⟨sequencer _ w splicing taken w, fun none => planTaken_noGap before_ unmet after (plan.trans none),
      fun old is other known start from_ => planTaken_gap before_ unmet after keyed few (plan.trans is) other known from_⟩
  · have w : (s.seq k).state.waitsForReel = false := by rw [armed]; rfl
    have taken := takePending_armed (s := planGap v k pl) (k := k) (pl := pl) (by rw [gapSeq w]; exact armed)
      (by rw [gapSeq w]; exact grade) (by rw [gapOdometer]; exact early)
    rw [gapSeq w] at taken
    have pending := (held armed rfl).trans (if_neg (by decide))
    exact ⟨sequencer _ w (by rw [armed]; decide) taken rfl, fun other known start from_ =>
      planTaken_gap before_ unmet after keyed few (pending.trans plan) other known from_⟩

end Taken

end Sys2Proof.Machine
end

section
/-! PROOF. The plans of a grade difference handed over one after the other (R55, R68, R69, R71). -/

namespace Sys2Proof.Machine

open Sys2Proof

/-- R55: the stands whose running reel carries another code than the entry asks for, with its codes. -/
def startDiff (s : State) (gi : Grade) : List (Stand × Nat) :=
  Stand.all.filterMap fun k => (s.runningCode k).bind fun c =>
    if c = gi.fields.codes.get k then none else some (k, gi.fields.codes.get k)

theorem gradeDiffAtStart_eq {s : State} {n : Nat} {o : Order} (found : s.findOrder n = some o) :
    s.gradeDiffAtStart n = (match s.findGrade o.fields.grade with
      | some gi => startDiff s gi
      | none => []) := by
  simp only [State.gradeDiffAtStart, found, Option.bind_some]
  cases s.findGrade o.fields.grade with
  | none => rfl
  | some gi =>
    refine List.filterMap_congr fun k _ => ?_
    cases s.runningCode k <;> rfl

theorem mem_startDiff {s : State} {gi : Grade} {k : Stand} {c : Nat} : (k, c) ∈ startDiff s gi ↔
    c = gi.fields.codes.get k ∧ ∃ r, s.runningCode k = some r ∧ r ≠ c := by
  simp only [startDiff, List.mem_filterMap, Option.bind_eq_some_iff]
  constructor
  · rintro ⟨j, -, r, run, is⟩
    split at is
    · cases is
    · next ne => cases is; exact ⟨rfl, r, run, ne⟩
  · rintro ⟨rfl, r, run, ne⟩
    exact ⟨k, mem_standAll k, r, run, by rw [if_neg ne]⟩

/-- Stands picked from a list keep their order. -/
theorem map_fst_filterMap_sublist {f : Stand → Option (Stand × Nat)} (own : ∀ k d, f k = some d → d.1 = k) :
    ∀ l : List Stand, ((l.filterMap f).map Prod.fst).Sublist l
  | [] => List.Sublist.refl []
  | k :: l => by
    have rest := map_fst_filterMap_sublist own l
    cases e : f k with
    | none => rw [List.filterMap_cons_none e]; exact rest.cons k
    | some d => rw [List.filterMap_cons_some e, List.map_cons, own k d e]; exact rest.cons_cons k

theorem startDiff_sublist (s : State) (gi : Grade) : ((startDiff s gi).map Prod.fst).Sublist Stand.all :=
  map_fst_filterMap_sublist (fun k d is => by
    obtain ⟨r, -, is⟩ := Option.bind_eq_some_iff.mp is
    split at is
    · cases is
    · cases is; rfl) _

theorem handPlans_append (s : State) (mark : Nat) (p gp : Coord) (l r : List (Stand × Nat)) :
    s.handPlans mark p gp (l ++ r) = (s.handPlans mark p gp l).handPlans mark p gp r := List.foldl_append

/-- R68: the plan that a stand of the grade difference gets. -/
def handedPlan (c : List Int) (mark : Nat) (p gp : Coord) (d : Stand × Nat) : Plan :=
  ⟨d.2, shiftBy gp ((jointAim c : Int) - (pathOf c d.1 : Int)), mark, p⟩

theorem handPlans_cons (s : State) (mark : Nat) (p gp : Coord) (d : Stand × Nat) (l : List (Stand × Nat)) :
    s.handPlans mark p gp (d :: l)
      = (s.planArrives d.1 (handedPlan s.config mark p gp d)).handPlans mark p gp l := rfl

/-- R68: plans that the running reels do not meet. -/
theorem handPlans_arrivals {mark : Nat} {p gp : Coord} : ∀ {l : List (Stand × Nat)} {s : State},
    (∀ d ∈ l, s.runningCode d.1 ≠ some d.2) → Arrivals (l.map Prod.fst) p s (s.handPlans mark p gp l)
  | [], s, _ => Arrivals.refl p s
  | d :: l, s, unmet => by
    have first := planArrives_arrivals (pl := handedPlan s.config mark p gp d) (unmet d List.mem_cons_self)
    rw [handPlans_cons]
    exact first.trans (handPlans_arrivals fun e mem => by
      rw [runningCode_of_reels first.reels]; exact unmet e (List.mem_cons_of_mem _ mem))

/-- R55, R69, R71: the plans of a launch by request, where the launch takes n slots of the table before them. -/
theorem startPlansHanded {s w t : State} {mark n slots : Nat} {p gp : Coord} {i : Order} (keyed : s.MarksKeyed)
    (room : n + 5 ≤ slots) (toward : ∀ k, Toward s.serial mark n k s w)
    (new : ∀ pr, w.planner = some pr → s.serial ≤ pr.mark)
    (after : ∀ k gi, s.findGrade i.fields.grade = some gi →
      Toward s.serial mark 0 k (w.handPlans mark p gp (startDiff s gi)) t) :
    StartPlansHanded s t slots mark p gp i := by
  intro gi found k pl
  have last := after k gi found
  have unmet : ∀ d ∈ startDiff s gi, s.runningCode d.1 ≠ some d.2 := fun d mem is => by
    obtain ⟨-, r, run, ne⟩ := mem_startDiff.mp mem
    exact ne (Option.some.inj (run.symm.trans is))
  refine ⟨fun c run ne => ?_, fun meets => ?_⟩
  · have mem : (k, pl.code) ∈ startDiff s gi := mem_startDiff.mpr ⟨rfl, c, run, ne⟩
    obtain ⟨pre, post, split⟩ := List.append_of_mem mem
    have sub := startDiff_sublist s gi
    rw [split, List.map_append, List.map_cons] at sub
    have nodup := sub.nodup nodup_standAll
    have short : (pre.map Prod.fst).length ≤ 4 := by
      have := sub.length_le
      rw [List.length_append, List.length_cons, show Stand.all.length = 5 from rfl] at this
      omega
    have outPre : k ∉ pre.map Prod.fst := fun mem =>
      (List.nodup_append.mp nodup).2.2 k mem k List.mem_cons_self rfl
    have outPost : k ∉ post.map Prod.fst := (List.nodup_cons.mp (List.nodup_append.mp nodup).2.1).1
    have there : ∀ {v : State}, v.reels = s.reels → ∀ d ∈ startDiff s gi, v.runningCode d.1 ≠ some d.2 :=
      fun reels d mem => by rw [runningCode_of_reels reels]; exact unmet d mem
    rw [split] at there last
    have first := handPlans_arrivals (mark := mark) (p := p) (gp := gp) (s := w) fun d mem =>
      there (toward k).reels d (List.mem_append_left _ mem)
    have before_ := (toward k).trans (Toward.ofArrivals first outPre new)
    generalize at_ : w.handPlans mark p gp pre = v at first before_
    have plan : handedPlan v.config mark p gp (k, pl.code) = pl := by
      rw [handedPlan, before_.config]
    have own := planArrives_arrivals (pl := pl)
      (there before_.reels (k, pl.code) (List.mem_append_right _ List.mem_cons_self))
    have rest := handPlans_arrivals (mark := mark) (p := p) (gp := gp) (s := v.planArrives k pl) fun d mem =>
      there (own.reels.trans before_.reels) d (List.mem_append_right _ (List.mem_cons_of_mem _ mem))
    have behind := Toward.ofArrivals (mark := mark) rest outPost (bound := s.serial) fun pr h =>
      new pr (by rw [← first.planner, ← own.planner]; exact h)
    rw [handPlans_append, at_, handPlans_cons, plan] at last
    exact planTaken before_ (fun is => ne (Option.some.inj (run.symm.trans is))) (behind.trans last) keyed (by omega)
  · have out : k ∉ (startDiff s gi).map Prod.fst := fun mem => by
      obtain ⟨d, inside, rfl⟩ := List.mem_map.mp mem
      obtain ⟨code, r, run, ne⟩ := mem_startDiff.mp inside
      exact ne ((meets r run).trans code.symm)
    have all := handPlans_arrivals (mark := mark) (p := p) (gp := gp) (s := w) fun d mem is =>
      unmet d mem (by rw [← runningCode_of_reels (toward d.1).reels]; exact is)
    have whole := ((toward k).trans (Toward.ofArrivals all out new)).trans last
    refine ⟨whole.noGap, fun reel go => whole.seq ?_⟩
    cases state : (s.seq k).state <;> first | rfl | exact absurd state reel | exact absurd state go

end Sys2Proof.Machine
end

section
/-! PROOF. The launch of a queued order (R64) and the mark that joins the decision list (R127), by what they leave. -/

namespace Sys2Proof.Machine

open Sys2Proof

/-! ### Orders and marks changed in their places -/

theorem findOrder_updateOrder {s : State} {n : Nat} {f : Order → Order}
    (keep : ∀ o, (f o).fields.number = o.fields.number) : (s.updateOrder n f).findOrder n = (s.findOrder n).map f := by
  have same : ((fun o : Order => o.fields.number == n) ∘ fun o => if o.fields.number == n then f o else o)
      = fun o => o.fields.number == n := by
    funext o
    simp only [Function.comp]
    split
    · rw [keep]
    · rfl
  rw [State.findOrder, State.updateOrder_orders, List.find?_map, same]
  change Option.map _ (s.findOrder n) = _
  refine Option.map_congr fun o found => ?_
  exact if_pos (List.find?_some found)

theorem findOrder_number {s : State} {n : Nat} {o : Order} (found : s.findOrder n = some o) : o.fields.number = n := by
  simpa using List.find?_some found

theorem updateChange_changes (s : State) (u : Nat) (f : ChangeMark → ChangeMark) :
    (s.updateChange u f).changes = s.changes.map fun c => if c.uid == u then f c else c := by
  simp only [State.changes, State.updateChange, List.filterMap_map, List.map_filterMap]
  refine List.filterMap_congr fun x _ => ?_
  cases x with
  | change c =>
    show (if c.uid == u then Mark.change (f c) else Mark.change c).asChange = some (if c.uid == u then f c else c)
    split <;> rfl
  | _ => rfl

theorem updateChange_cullZones (s : State) (u : Nat) (f : ChangeMark → ChangeMark) :
    (s.updateChange u f).cullZones = s.cullZones := by
  simp only [State.cullZones, State.updateChange, List.filterMap_map]
  refine List.filterMap_congr fun x _ => ?_
  cases x with
  | change c => simp only [Function.comp]; split <;> rfl
  | _ => rfl

theorem updateChange_gap {s : State} {u : Nat} {f : ChangeMark → ChangeMark} {x : GapMark} :
    Mark.gap x ∈ (s.updateChange u f).marks ↔ Mark.gap x ∈ s.marks := by
  simp only [State.updateChange, List.mem_map]
  constructor
  · rintro ⟨y, mem, is⟩
    cases y with
    | change c =>
      obtain is : (if c.uid == u then Mark.change (f c) else Mark.change c) = Mark.gap x := is
      split at is <;> exact nomatch is
    | _ => rw [← is]; exact mem
  · exact fun mem => ⟨_, mem, rfl⟩

section Find

variable {s : State} {u : Nat} {f : ChangeMark → ChangeMark} (keep : ∀ c, (f c).uid = c.uid)
include keep

theorem updateChange_find_other {w : Nat} (ne : w ≠ u) : (s.updateChange u f).findChange w = s.findChange w := by
  have same : ((fun c : ChangeMark => c.uid == w) ∘ fun c => if c.uid == u then f c else c) = fun c => c.uid == w := by
    funext c
    simp only [Function.comp]
    split
    · rw [keep]
    · rfl
  rw [State.findChange, updateChange_changes, List.find?_map, same]
  change Option.map _ (s.findChange w) = _
  refine (Option.map_congr fun c found => ?_).trans Option.map_id'
  rw [if_neg]
  simpa [(findChange_mem found).2] using ne

theorem updateChange_find_self {m : ChangeMark} (found : s.findChange u = some m) :
    (s.updateChange u f).findChange u = some (f m) := by
  have same : ((fun c : ChangeMark => c.uid == u) ∘ fun c => if c.uid == u then f c else c) = fun c => c.uid == u := by
    funext c
    simp only [Function.comp]
    split
    · rw [keep]
    · rfl
  rw [State.findChange, updateChange_changes, List.find?_map, same]
  change Option.map _ (s.findChange u) = _
  rw [found, Option.map_some, if_pos (by simpa using (findChange_mem found).2)]

/-- The mark named may change in its place. -/
theorem Toward.updateChange (bound : Nat) (k : Stand) : Toward bound u 0 k s (s.updateChange u f) where
  odometer := rfl
  config := rfl
  reels := rfl
  serial := le_rfl
  status _ h := h
  seq _ := rfl
  find _ _ ne := updateChange_find_other keep ne
  gapsIn _ mem := updateChange_gap.mpr mem
  gapsOut _ mem _ := updateChange_gap.mp mem
  length := (List.length_map _).le

end Find

/-! ### The need of a launch (R63) -/

theorem need_eq_launchNeed (s : State) (o : Order) : s.need o none = launchNeed s o := by
  unfold State.need State.expectation
  rw [List.filter_congr (q := fun m : ChangeMark => m.outgoing.map (·.order) == some o.fields.number) fun m _ => by
    cases m.outgoing <;> simp]
  rfl

/-- R63: the need counts the segments that the order has, and no other state but their open cuts. -/
theorem launchNeed_congr {s v : State} {i o : Order} (fields : i.fields = o.fields) (goodCuts : i.goodCuts = o.goodCuts)
    (cuts : ((v.changes.filter fun m => m.outgoing.map (·.order) == some o.fields.number).map v.openCuts)
      = (s.changes.filter fun m => m.outgoing.map (·.order) == some o.fields.number).map s.openCuts) :
    launchNeed v i = launchNeed s o := by
  simp only [launchNeed, fields, goodCuts, cuts]

theorem openCuts_congr {s v : State} {m c : ChangeMark} (zones : v.cullZones = s.cullZones) (grid : v.knife = s.knife)
    (p : m.p = c.p) (outgoing : m.outgoing = c.outgoing) : v.openCuts m = s.openCuts c := by
  have uncut : v.uncut = s.uncut := by funext e; simp only [State.uncut, grid]
  simp only [State.openCuts, zones, uncut, p, outgoing]

/-! ### The launch (R64) -/

/-- R63, R64: the planned count of a launch. -/
def plannedCount (v : State) (o : Order) : Nat := target (v.need o none) o.fields.allowance

/-- R64: the provisional mark of a launch. -/
def launchMark (v : State) (o : Order) (start : Coord) : ChangeMark :=
  { uid := v.serial, p := cleanEnd v.cullZones o.fields.cutLength (plannedCount v o) start, length := none,
    outgoing := some ⟨o.fields.number, start, o.fields.cutLength⟩, incoming := none, state := .provisional,
    pinned := false, xEx := cleanEnd v.cullZones o.fields.cutLength (plannedCount v o) start, extensions := 0,
    waste := 0, crossings := ⟨.freeze, .pending⟩ :: boundaryCrossings }

/-- R64: the order as its launch leaves it. -/
def launchedOrder (o : Order) : Order := { o with state := .running, segments := min 3 (o.segments + 1), rush := false }

/-- R64: the state of the launch of a queued order before the repeated reel checks. -/
def launchWritten (v : State) (o : Order) (start : Coord) : State :=
  { v.bumpSerial.placeMark (.change (launchMark v o start)) with
    planner := some ⟨v.serial, start, plannedCount v o⟩
    runSeq := v.runSeq.filter fun m => m != o.fields.number
    grades := activeUp v o
    orders := (v.updateOrder o.fields.number launchedOrder).orders }

section Launch

variable {v : State} {o : Order} (start : Coord) (queued : o.state = .queued)
include queued

theorem launch_eq : v.launch o start = (launchWritten v o start).recheckAll := by
  unfold State.launch State.bookLaunch
  simp only [queued, reduceCtorEq, or_self, if_false]
  rfl

theorem launch_frame : SpliceFrame (launchWritten v o start) (v.launch o start) := by
  rw [launch_eq start queued]
  exact (WaitersOnly.recheckAll _).frame

theorem launch_planner : (v.launch o start).planner = some ⟨v.serial, start, plannedCount v o⟩ :=
  (launch_frame start queued).planner

theorem launch_marks : (v.launch o start).marks
    = (v.bumpSerial.placeMark (.change (launchMark v o start))).marks := (launch_frame start queued).marks

theorem launch_runSeq : (v.launch o start).runSeq = v.runSeq.filter fun m => m != o.fields.number := by
  rw [launch_frame start queued]; rfl

theorem launch_grades : (v.launch o start).grades = activeUp v o := by
  rw [launch_frame start queued]; rfl

theorem launch_orders : (v.launch o start).orders = (v.updateOrder o.fields.number launchedOrder).orders := by
  rw [launch_frame start queued]; rfl

theorem launch_knife : (v.launch o start).knife = v.knife := by rw [launch_frame start queued]; rfl

theorem launch_queue {d : LinkClass} (other : d ≠ .splice) : (v.launch o start).link.queue d = v.link.queue d := by
  rw [launch_eq start queued, (WaitersOnly.recheckAll _).queues d other]; rfl

/-- R64: the launched order is RUNNING. -/
theorem launch_findOrder (found : v.findOrder o.fields.number = some o) :
    (v.launch o start).findOrder o.fields.number
      = some (launchedOrder o) := by
  have updated := findOrder_updateOrder (s := v) (n := o.fields.number) (f := launchedOrder) fun _ => rfl
  rw [State.findOrder, launch_orders start queued, ← State.findOrder, updated, found]
  rfl

/-- A launch as the stands see it. -/
theorem Toward.launch (mark : Nat) (k : Stand) {bound : Nat} (new : bound ≤ v.serial) :
    Toward bound mark 1 k v (v.launch o start) := by
  have bumped : Toward bound mark 0 k v v.bumpSerial :=
    ofMarks rfl rfl rfl rfl (Nat.le_succ _) (fun _ h => h) fun _ => rfl
  have placed := bumped.trans (Toward.placeMark v.bumpSerial (c := launchMark v o start) new)
  have written : Toward bound mark 0 k (v.bumpSerial.placeMark (.change (launchMark v o start))) (launchWritten v o start) :=
    ofMarks rfl rfl rfl rfl le_rfl (fun _ h => h) fun _ => rfl
  rw [launch_eq start queued]
  exact (placed.trans written).trans (Toward.recheckAll _)

/-- R64: the provisional mark is alone with its serial number. -/
theorem launch_alone (fresh : ∀ c ∈ v.changes, c.uid ≠ v.serial) : Alone (v.launch o start) (launchMark v o start) :=
  (Alone.placed v.bumpSerial (m := launchMark v o start) fresh).of_marks (launch_marks start queued)

/-- R64: every other CHANGE mark is found as before. -/
theorem launch_find {u : Nat} (ne : u ≠ v.serial) : (v.launch o start).findChange u = v.findChange u := by
  rw [findChange_of_marks (launch_marks start queued), findChange_eq_find, findChange_eq_find]
  exact congrArg (Option.bind · Mark.asChange) (find_insertMark_other (isChangeOf_other (c := launchMark v o start) ne) _)

end Launch

/-! ### A queued command (R180) -/

theorem enqueue_findChange (s : State) (c : Command) (u : Nat) : (s.enqueue c).findChange u = s.findChange u :=
  findChange_of_marks (by rw [enqueue_frame]) u

theorem Toward.enqueue (bound mark : Nat) (k : Stand) (s : State) (c : Command) :
    Toward bound mark 0 k s (s.enqueue c) := by
  have frame := enqueue_frame s c
  exact ofMarks (by rw [frame]) (by rw [frame]) (by rw [frame]) (by rw [frame]) (by rw [frame])
    (Evolves.refl s).enqueue.status fun _ => enqueue_seq s c k

/-! ### A mark joins the decision list (R127, R128) -/

/-- R128: the walk changes statuses alone. -/
theorem walkList_marks (s : State) : ∀ l : List Decision, (s.walkList l).1.map (·.mark) = l.map (·.mark)
  | [] => rfl
  | d :: l => by
    have rest := walkList_marks s l
    unfold State.walkList
    dsimp only
    repeat' split
    all_goals simp [rest]

/-- R127: the decision list, the stations and what a set queues are all that a new entry touches. -/
theorem walk_frame (s : State) : s.walk = { s with
    decisions := (s.walkList s.decisions).1, stations := s.walk.stations, link := s.walk.link, errors := s.walk.errors
    serial := s.walk.serial } := by
  unfold State.walk
  dsimp only
  split
  · next mark n pat st _ =>
    obtain ⟨x, l, e, i, h⟩ := assignSet_frame { s with decisions := (s.walkList s.decisions).1 } mark n pat st
    rw [h]
  · rfl

theorem walk_queue (s : State) {d : LinkClass} (other : d ≠ .slitter) : s.walk.link.queue d = s.link.queue d := by
  unfold State.walk
  dsimp only
  split
  · next mark n pat st _ =>
    unfold State.assignSet State.queueSet
    rw [enqueue_queue_other _ other]
    cases st <;> rfl
  · rfl

theorem walk_serial (s : State) : s.serial ≤ s.walk.serial := by
  unfold State.walk
  dsimp only
  split
  · unfold State.assignSet State.queueSet
    rw [enqueue_frame]
    exact Nat.le_succ _
  · exact le_rfl

theorem addDecision_frame (s : State) (mark : Nat) : s.addDecision mark = { s with
    decisions := (s.addDecision mark).decisions, stations := (s.addDecision mark).stations
    link := (s.addDecision mark).link, errors := (s.addDecision mark).errors
    serial := (s.addDecision mark).serial } := by
  unfold State.addDecision
  rw [walk_frame]

theorem addDecision_queue (s : State) (mark : Nat) {d : LinkClass} (other : d ≠ .slitter) :
    (s.addDecision mark).link.queue d = s.link.queue d := walk_queue _ other

/-- R127: the mark has its entry. -/
theorem addDecision_mem (s : State) (mark : Nat) : ∃ d ∈ (s.addDecision mark).decisions, d.mark = mark := by
  have marks : (s.addDecision mark).decisions.map (·.mark)
      = (s.decisions ++ [(⟨mark, .unassigned⟩ : Decision)]).map (·.mark) := by
    rw [State.addDecision, walk_frame]
    exact walkList_marks _ _
  have mem : mark ∈ (s.addDecision mark).decisions.map (·.mark) := by rw [marks]; simp
  exact List.mem_map.mp mem

theorem Toward.addDecision (bound mark : Nat) (k : Stand) (s : State) (d : Nat) :
    Toward bound mark 0 k s (s.addDecision d) := by
  have frame := addDecision_frame s d
  exact ofMarks (by rw [frame]) (by rw [frame]) (by rw [frame]) (by rw [frame]) 
    (walk_serial { s with decisions := s.decisions ++ [⟨d, .unassigned⟩] })
    (Evolves.refl s).addDecision.status fun _ => by rw [frame]; rfl

end Sys2Proof.Machine
end

section
/-! PROOF. A launch attempt of a request (R61): what it starts from, and what its hand-offs leave of the launch (R64, R68). -/

namespace Sys2Proof.Machine

open Sys2Proof

/-! ### The hand-offs behind a launch -/

section Handed

variable {w : State} {mark : Nat} {p gp : Coord} {diff : List (Stand × Nat)}

/-- R68: the plans handed over, and the mark to the slitter exchange. -/
def handed (w : State) (mark : Nat) (p gp : Coord) (diff : List (Stand × Nat)) : State :=
  (w.handPlans mark p gp diff).addDecision mark

theorem handed_marks : (handed w mark p gp diff).marks = (w.handPlans mark p gp diff).marks := by
  rw [handed, addDecision_frame]

variable (unmet : ∀ d ∈ diff, w.runningCode d.1 ≠ some d.2)
include unmet

theorem handed_planner : (handed w mark p gp diff).planner = w.planner := by
  rw [handed, addDecision_frame]; exact (handPlans_arrivals unmet).planner

theorem handed_orders : (handed w mark p gp diff).orders = w.orders := by
  rw [handed, addDecision_frame]; exact (handPlans_arrivals unmet).orders

theorem handed_grades : (handed w mark p gp diff).grades = w.grades := by
  rw [handed, addDecision_frame]; exact (handPlans_arrivals unmet).grades

theorem handed_runSeq : (handed w mark p gp diff).runSeq = w.runSeq := by
  rw [handed, addDecision_frame]; exact (handPlans_arrivals unmet).runSeq

theorem handed_knife : (handed w mark p gp diff).knife = w.knife := by
  rw [handed, addDecision_frame]; exact (handPlans_arrivals unmet).knife

theorem handed_knifeQueue : (handed w mark p gp diff).link.queue .knife = w.link.queue .knife :=
  (addDecision_queue _ _ (by decide)).trans ((handPlans_arrivals unmet).queues _ (by decide))

theorem handed_find {u : Nat} (other : ∀ pr, w.planner = some pr → u ≠ pr.mark) :
    (handed w mark p gp diff).findChange u = w.findChange u :=
  (findChange_of_marks handed_marks u).trans ((handPlans_arrivals unmet).find u other)

/-- R59, R114: the provisional mark alone stays alone, and stays the same where no gap reaches its segment. -/
theorem handed_provisional {pr : Provisional} {m : ChangeMark} (planner : w.planner = some pr) (uid : pr.mark = m.uid)
    (alone : Alone w m) : ∃ m', Alone (handed w mark p gp diff) m' ∧ Moved m m'
      ∧ ((∀ o, m.outgoing = some o → before o.start p = false) → m' = m) := by
  obtain ⟨m', alone', moved, near⟩ := (handPlans_arrivals unmet).provisional pr m planner uid alone
  exact ⟨m', alone'.of_marks handed_marks, moved, near⟩

end Handed

/-! ### The launch that the statements describe -/

/-- R64: a launch keeps an order's definition and its cuts. -/
theorem launchedOrder_eq {i o : Order} (h : launchedOrder i = launchedOrder o) :
    i.fields = o.fields ∧ i.goodCuts = o.goodCuts := by
  have fields : (launchedOrder i).fields = (launchedOrder o).fields := by rw [h]
  have goodCuts : (launchedOrder i).goodCuts = (launchedOrder o).goodCuts := by rw [h]
  exact ⟨fields, goodCuts⟩

/-- A coordinate less than 2^31 mm ahead of another is not before it. -/
theorem before_plusMm {p : Coord} {n : Nat} (near : n < 2147483648) : before (plusMm p n) p = false := by
  have ahead : (plusMm p n - p).toNat = n := by
    rw [plusMm, BitVec.add_comm, BitVec.add_sub_cancel, BitVec.toNat_ofNat]
    omega
  rw [before, atOrAfter, ahead, decide_eq_true near]
  rfl

/-- R64: a launch that the order and the planner still show at the end is the one that the statements describe. -/
theorem launched_of {s v t : State} {o i : Order} {p start : Coord} {zone : Nat} (at_ : start = plusMm p zone)
    (queued : i.state = .queued)
    (found : v.findOrder i.fields.number = some i) (serial : s.serial ≤ v.serial) (zones : v.cullZones = s.cullZones)
    (cuts : (v.changes.filter fun m => m.outgoing.map (·.order) == some o.fields.number).map v.openCuts
      = (s.changes.filter fun m => m.outgoing.map (·.order) == some o.fields.number).map s.openCuts)
    (becomes : launchedOrder i = launchedOrder o)
    (planner : t.planner = (v.launch i start).planner) (orders : t.orders = (v.launch i start).orders)
    {y : ChangeMark} (alone : Alone t y) (moved : Moved (launchMark v i start) y)
    (near : (∀ x, (launchMark v i start).outgoing = some x → before x.start p = false) →
      y = launchMark v i start) : Launched s t o start zone := by
  subst at_
  have fields : i.fields = o.fields := (launchedOrder_eq becomes).1
  have goodCuts : i.goodCuts = o.goodCuts := (launchedOrder_eq becomes).2
  have count : plannedCount v i = launchCount s o := by
    rw [plannedCount, need_eq_launchNeed, launchNeed_congr fields goodCuts cuts, fields]; rfl
  have shape : y = { launchMark v i (plusMm p zone) with p := y.p, xEx := y.p } := by
    rcases moved with rfl | h
    · rfl
    · exact h
  have ends := endsSpan_cleanEnd (zones := v.cullZones) zones.symm o.fields.cutLength (launchCount s o) (plusMm p zone)
  have planned := planner.trans (launch_planner _ queued)
  refine ⟨⟨y, alone.mem, ?_, ?_, ?_, ?_, ?_, ?_, ?_, ?_, ?_, ?_, ?_, ?_, fun short => ?_⟩, ?_⟩
  · rw [moved.uid]; exact serial
  · rw [planned, moved.uid, count]; rfl
  · rw [moved.outgoing, ← fields]; rfl
  · rw [shape]; rfl
  · rw [shape]; rfl
  · rw [shape]; rfl
  · rw [shape]; rfl
  · rw [shape]
  · rw [shape]; rfl
  · rw [shape]; rfl
  · rw [shape]; rfl
  · rw [shape]
    show ∀ e ∈ (⟨.freeze, .pending⟩ :: boundaryCrossings : List CrossEntry), e.status = .pending
    decide
  · rw [near fun x out => by cases out; exact before_plusMm short]
    show EndsSpan s _ _ _ (cleanEnd v.cullZones i.fields.cutLength (plannedCount v i) (plusMm p zone))
    rw [count, fields]; exact ends
  · have launched := launch_findOrder (plusMm p zone) queued found
    rw [becomes, fields] at launched
    rw [State.findOrder, orders]
    exact launched

/-! ### What a launch attempt starts from -/

/-- The state u before the launch attempt of a request to state s, with order o at the head as i: what the launch reads of
s is there, and the sequencers of the stands that do not wait. -/
structure Ready (s u : State) (o i : Order) : Prop where
  marks : u.marks = s.marks
  odometer : u.odometer = s.odometer
  config : u.config = s.config
  reels : u.reels = s.reels
  grades : u.grades = s.grades
  knife : u.knife = s.knife
  queue : u.link.knife = s.link.knife
  serial : s.serial ≤ u.serial
  status : ∀ i, s.errors.status.getLsbD i = true → u.errors.status.getLsbD i = true
  seqs : ∀ k, (s.seq k).state.waitsForReel = false → u.seq k = s.seq k
  suspended : u.suspended = []
  hold : u.errors.hold = false
  head : u.runSeq.head? = some o.fields.number
  line : u.runSeq.filter (· != o.fields.number) = s.runSeq.filter (· != o.fields.number)
  found : u.findOrder o.fields.number = some i
  queued : i.state = .queued
  becomes : launchedOrder i = launchedOrder o

namespace Ready

variable {s u : State} {o i : Order}

theorem fields (h : Ready s u o i) : i.fields = o.fields := (launchedOrder_eq h.becomes).1

theorem changes (h : Ready s u o i) : u.changes = s.changes := by rw [State.changes, h.marks]; rfl

theorem cullZones (h : Ready s u o i) : u.cullZones = s.cullZones := by rw [State.cullZones, h.marks]; rfl

theorem freeMarks (h : Ready s u o i) : u.freeMarks = s.freeMarks := by rw [State.freeMarks, h.marks]; rfl

theorem toward (h : Ready s u o i) (bound mark : Nat) (k : Stand) : Toward bound mark 0 k s u :=
  .ofMarks h.marks h.odometer h.config h.reels h.serial h.status (h.seqs k)

theorem candidate (h : Ready s u o i) : u.candidate = (some o.fields.number, u) := by
  rw [State.candidate, h.suspended, ← h.head]; rfl

/-- R61, R69: with no CHANGE mark the order at the head starts the line. -/
theorem attempt_start (h : Ready s u o i) (none : s.changes = []) (room : 2 ≤ s.freeMarks) :
    u.attemptLaunch = (some o.fields.number, u.lineStart i) := by
  have empty := h.changes.trans none
  have closed : u.openRunOut = Option.none := by rw [State.openRunOut, empty]; rfl
  have two : ¬ u.freeMarks < 2 := by rw [h.freeMarks]; omega
  simp only [State.attemptLaunch, h.hold, closed, empty, List.isEmpty_nil, two, h.candidate, h.found, if_true, if_false,
    Bool.false_eq_true]

/-- R61, R71: with an open run-out the order at the head closes it. -/
theorem attempt_close (h : Ready s u o i) {m : ChangeMark} (run : s.openRunOut = some m) (room : s.marks.length < 48) :
    u.attemptLaunch = (some o.fields.number, u.closeRunOut m i) := by
  have open_ : u.openRunOut = some m := by rw [State.openRunOut, h.changes]; exact run
  have free : u.freeMarks ≠ 0 := by
    rw [h.freeMarks, State.freeMarks, show Config.markSlots = 48 from rfl]; omega
  simp only [State.attemptLaunch, h.hold, open_, free, h.candidate, h.found, if_false, Bool.false_eq_true]

/-- R55: the grade difference is that of the state before the request. -/
theorem gradeDiff (h : Ready s u o i) : u.gradeDiffAtStart o.fields.number
    = (match s.findGrade o.fields.grade with
      | some gi => startDiff s gi
      | none => []) := by
  have grade : u.findGrade i.fields.grade = s.findGrade o.fields.grade := by
    rw [State.findGrade, h.grades, h.fields]; rfl
  rw [gradeDiffAtStart_eq h.found, grade]
  cases s.findGrade o.fields.grade with
  | none => rfl
  | some gi => simp only [startDiff, runningCode_of_reels h.reels]

theorem unmet (h : Ready s u o i) : ∀ d ∈ u.gradeDiffAtStart o.fields.number, s.runningCode d.1 ≠ some d.2 := by
  rw [h.gradeDiff]
  intro d mem is
  split at mem
  · obtain ⟨-, r, run, ne⟩ := mem_startDiff.mp mem
    exact ne (Option.some.inj (run.symm.trans is))
  · cases mem

/-- R55, R69, R71: the plans of the launch, handed over from w on. -/
theorem plans (h : Ready s u o i) {w : State} {mark n slots : Nat} {p gp : Coord} (keyed : s.MarksKeyed)
    (room : n + 5 ≤ slots) (toward : ∀ k, Toward s.serial mark n k s w)
    (new : ∀ pr, w.planner = some pr → s.serial ≤ pr.mark) :
    StartPlansHanded s (handed w mark p gp (u.gradeDiffAtStart o.fields.number)) slots mark p gp o := by
  refine startPlansHanded keyed room toward new fun k gi found => ?_
  have diff := h.gradeDiff
  rw [found] at diff
  rw [handed, diff]
  exact Toward.addDecision _ _ k _ _

end Ready

end Sys2Proof.Machine
end

section
/-! PROOF. The line start of a launch by request (R69). -/

namespace Sys2Proof.Machine

open Sys2Proof

/-- R69: where a line start begins. -/
def freezePoint (s : State) : Coord := plusMm s.odometer (freezeDistance s.config)

/-- R69: the line-start mark. -/
def lineStartMark (u : State) (i : Order) : ChangeMark :=
  { uid := u.serial, p := freezePoint u, length := some 0, outgoing := none, incoming := some i.fields.number,
    state := .frozen, pinned := false, xEx := freezePoint u, extensions := 0, waste := 0, crossings := boundaryCrossings }

/-- R69: the table with the line-start mark, which the launch finds. -/
def lineStartTable (u : State) (i : Order) : State := u.bumpSerial.placeMark (.change (lineStartMark u i))

/-- R69: the launch and the knife drive's schedule, before the other hand-offs. -/
def lineStartLaunched (u : State) (i : Order) : State :=
  ((lineStartTable u i).launch i (freezePoint u)).enqueue
    (.knifeSchedule (freezePoint u) i.fields.cutLength (some i.fields.number))

theorem lineStart_eq (u : State) (i : Order) : u.lineStart i = handed (lineStartLaunched u i) u.serial (freezePoint u)
    (freezePoint u) (u.gradeDiffAtStart i.fields.number) := rfl

theorem activeUp_congr {s v : State} {i o : Order} (grades : v.grades = s.grades) (fields : i.fields = o.fields) :
    activeUp v i = activeUp s o := by simp only [activeUp, grades, fields]

section LineStart

variable {s u : State} {o i : Order} (h : Ready s u o i)
include h

theorem freezePoint_ready : freezePoint u = freezePoint s := by rw [freezePoint, h.odometer, h.config]; rfl

theorem lineStart_toward (k : Stand) : Toward s.serial u.serial 2 k s (lineStartLaunched u i) := by
  have bumped : Toward s.serial u.serial 0 k u u.bumpSerial :=
    .ofMarks rfl rfl rfl rfl (Nat.le_succ _) (fun _ h => h) fun _ => rfl
  have table := (h.toward s.serial u.serial k).trans (bumped.trans
    (Toward.placeMark u.bumpSerial (c := lineStartMark u i) h.serial))
  have launched := table.trans (Toward.launch (v := lineStartTable u i) (freezePoint u) h.queued u.serial k
    (h.serial.trans (Nat.le_succ _)))
  exact launched.trans (Toward.enqueue _ _ k _ _)

theorem lineStart_planner : (lineStartLaunched u i).planner
    = some ⟨u.serial + 1, freezePoint u, plannedCount (lineStartTable u i) i⟩ := by
  rw [lineStartLaunched, enqueue_frame]
  exact launch_planner (v := lineStartTable u i) _ h.queued

theorem lineStart_unmet : ∀ d ∈ u.gradeDiffAtStart i.fields.number,
    (lineStartLaunched u i).runningCode d.1 ≠ some d.2 := fun d mem => by
  rw [runningCode_of_reels (lineStart_toward h d.1).reels]
  exact h.unmet d (by rwa [h.fields] at mem)

variable (none : s.changes = [])
include none

/-- R69: the line-start mark is the one CHANGE mark before the launch. -/
theorem lineStart_changes {c : ChangeMark} (mem : c ∈ (lineStartTable u i).changes) : c = lineStartMark u i := by
  rcases mem_placeMark.mp (mem_changes.mp mem) with is | old
  · cases is; rfl
  · have : c ∈ u.changes := mem_changes.mpr old
    rw [h.changes, none] at this
    cases this

theorem lineStart_alone : Alone (lineStartLaunched u i) (launchMark (lineStartTable u i) i (freezePoint u)) := by
  have alone := launch_alone (v := lineStartTable u i) (freezePoint u) h.queued fun c mem is => by
    rw [lineStart_changes h none mem] at is
    exact absurd is (Nat.succ_ne_self u.serial).symm
  exact alone.of_marks (by rw [lineStartLaunched, enqueue_frame])

/-- R69: the line-start mark stays in the table. -/
theorem lineStart_mark : lineStartMark u i ∈ (u.lineStart i).changes := by
  have other : u.serial ≠ (lineStartTable u i).serial := (Nat.succ_ne_self u.serial).symm
  have table : Alone (lineStartTable u i) (lineStartMark u i) := Alone.placed _ fun c mem => by
    have : c ∈ u.changes := mem
    rw [h.changes, none] at this
    cases this
  have found : (u.lineStart i).findChange u.serial = some (lineStartMark u i) := by
    rw [lineStart_eq, handed_find (lineStart_unmet h), lineStartLaunched, enqueue_findChange,
      launch_find (v := lineStartTable u i) _ h.queued other]
    · exact table.findChange
    · intro pr planner
      rw [lineStart_planner h] at planner
      cases planner
      exact other
  exact mem_changes.mpr (findChange_mem found).1

/-- R64, R69: the launch of a line start. -/
theorem lineStart_launched : Launched s (u.lineStart i) o (freezePoint s) 0 := by
  have unmet := lineStart_unmet h
  obtain ⟨y, alone, moved, near⟩ := handed_provisional (mark := u.serial) (p := freezePoint u) (gp := freezePoint u) unmet
    (lineStart_planner h) rfl (lineStart_alone h none)
  rw [← freezePoint_ready h]
  refine launched_of (v := lineStartTable u i) (plusMm_zero _).symm h.queued ?_ (h.serial.trans (Nat.le_succ _)) ?_ ?_
    h.becomes ?_ ?_ alone moved near
  · rw [h.fields]; exact h.found
  · exact (insertMark_cullZones _ _ _).trans h.cullZones
  · rw [none, List.filter_eq_nil_iff.mpr fun c mem => by rw [lineStart_changes h none mem]; exact Bool.false_ne_true]
    rfl
  · rw [lineStart_eq, handed_planner unmet, lineStartLaunched, enqueue_frame]
  · rw [lineStart_eq, handed_orders unmet, lineStartLaunched, enqueue_frame]

omit none

theorem lineStart_grades : (u.lineStart i).grades = activeUp s o := by
  rw [lineStart_eq, handed_grades (lineStart_unmet h), lineStartLaunched, enqueue_frame]
  exact (launch_grades _ h.queued).trans (activeUp_congr h.grades h.fields)

theorem lineStart_runSeq : (u.lineStart i).runSeq = s.runSeq.filter (· != o.fields.number) := by
  rw [lineStart_eq, handed_runSeq (lineStart_unmet h), lineStartLaunched, enqueue_frame, ← h.line, ← h.fields]
  exact launch_runSeq _ h.queued

theorem lineStart_schedule (room : s.link.knife.length < 8) :
    Command.knifeSchedule (freezePoint s) o.fields.cutLength (some o.fields.number) ∈ (u.lineStart i).link.knife := by
  have queue : ((lineStartTable u i).launch i (freezePoint u)).link.queue .knife = s.link.knife :=
    (launch_queue _ h.queued (by decide)).trans h.queue
  show _ ∈ (u.lineStart i).link.queue .knife
  rw [lineStart_eq, handed_knifeQueue (lineStart_unmet h), lineStartLaunched, ← h.fields, ← freezePoint_ready h]
  refine mem_enqueue (c := .knifeSchedule (freezePoint u) i.fields.cutLength (some i.fields.number)) ?_
  show (State.link _ |>.queue .knife).length < 8
  rw [queue]; exact room

theorem lineStart_plans (keyed : s.MarksKeyed) :
    StartPlansHanded s (u.lineStart i) 7 u.serial (freezePoint u) (freezePoint u) o := by
  rw [lineStart_eq, h.fields]
  refine h.plans keyed (n := 2) le_rfl (lineStart_toward h) fun pr planner => ?_
  rw [lineStart_planner h] at planner
  cases planner
  exact h.serial.trans (Nat.le_succ _)

omit h in
theorem lineStart_decision : ∃ d ∈ (u.lineStart i).decisions, d.mark = u.serial := addDecision_mem _ _

end LineStart

end Sys2Proof.Machine
end

section
/-! PROOF. The closing of an open run-out by a launch by request (R71, R16). -/

namespace Sys2Proof.Machine

open Sys2Proof

/-- R71: the length of the closed zone. -/
def closingZone (s : State) (m : ChangeMark) (out : Outgoing) : Nat :=
  max 1 (max (ceilDiv (gMin s.config) out.cutLength) (stepsTo m.p (freezePoint s) out.cutLength)) * out.cutLength

/-- R71: the point from which the paper of the closing order is wanted. -/
def closingGradePoint (s : State) (m : ChangeMark) (out : Outgoing) : Coord :=
  shiftBy (plusMm m.p (closingZone s m out)) (-((ceilDiv (gMin s.config) out.cutLength * out.cutLength : Nat) : Int))

/-- R16: a closing order and the zone it ends, on the mark. -/
def closeMark (m : ChangeMark) (i : Order) (zone : Nat) (x : ChangeMark) : ChangeMark :=
  x.closed i.fields.number zone (plusMm m.p zone)

/-- R71: the table with the closed mark, which the launch finds. -/
def closedTable (u : State) (m : ChangeMark) (i : Order) (zone : Nat) : State :=
  (u.updateChange m.uid (closeMark m i zone)).recheckAll

/-- R71: the launch and the knife drive's schedule. -/
def closingScheduled (u : State) (m : ChangeMark) (i : Order) (zone : Nat) : State :=
  ((closedTable u m i zone).launch i (plusMm m.p zone)).enqueue
    (.knifeSchedule (plusMm m.p zone) i.fields.cutLength (some i.fields.number))

/-- R141: the knife counter takes a closing start. -/
def splitAt (w : State) (e : SplitEntry) : State :=
  { w with knife := { w.knife with split := insertSplit w.odometer e w.knife.split } }

theorem splitAt_planner (w : State) (e : SplitEntry) : (splitAt w e).planner = w.planner := rfl
theorem splitAt_marks (w : State) (e : SplitEntry) : (splitAt w e).marks = w.marks := rfl
theorem splitAt_orders (w : State) (e : SplitEntry) : (splitAt w e).orders = w.orders := rfl
theorem splitAt_grades (w : State) (e : SplitEntry) : (splitAt w e).grades = w.grades := rfl
theorem splitAt_runSeq (w : State) (e : SplitEntry) : (splitAt w e).runSeq = w.runSeq := rfl
theorem splitAt_link (w : State) (e : SplitEntry) : (splitAt w e).link = w.link := rfl

theorem Toward.splitAt (bound mark : Nat) (k : Stand) (w : State) (e : SplitEntry) :
    Toward bound mark 0 k w (splitAt w e) :=
  .ofMarks rfl rfl rfl rfl le_rfl (fun _ h => h) fun _ => rfl

/-- R71, R141: the closing start handed to the knife counter too, before the other hand-offs. -/
def closingLaunched (u : State) (m : ChangeMark) (i : Order) (zone : Nat) : State :=
  splitAt (closingScheduled u m i zone) ⟨m.uid, plusMm m.p zone⟩

theorem closeRunOut_eq {u : State} {m : ChangeMark} {out : Outgoing} (i : Order) (outgoing : m.outgoing = some out) :
    u.closeRunOut m i = handed (closingLaunched u m i (closingZone u m out)) m.uid m.p (closingGradePoint u m out)
      (u.gradeDiffAtStart i.fields.number) := by
  simp only [State.closeRunOut, outgoing]
  rfl

theorem mem_insertSplit (odo : Coord) (e : SplitEntry) : ∀ l : List SplitEntry, e ∈ insertSplit odo e l
  | [] => List.mem_singleton_self e
  | x :: xs => by
    unfold insertSplit
    split
    · exact List.mem_cons_self
    · exact List.mem_cons_of_mem _ (mem_insertSplit odo e xs)

/-- R16: a crossing done without a call is pending again, in the way of its kind; every other stays. -/
theorem rearm_cases (e : CrossEntry) : (e.status ≠ .silent → rearm e = e)
    ∧ (e.status = .silent → (∃ k, e.name = .ph k) ∨ (∃ u, e.name = .glue u) → rearm e = ⟨e.name, .rearmed⟩)
    ∧ (e = ⟨.decision, .silent⟩ → rearm e = ⟨.decision, .pending⟩) := by
  obtain ⟨name, status⟩ := e
  refine ⟨fun other => ?_, fun silent bond => ?_, fun is => by rw [is]; rfl⟩
  · cases status <;> first | rfl | exact absurd rfl other
  · obtain rfl : status = .silent := silent
    rcases bond with ⟨k, rfl⟩ | ⟨k, rfl⟩ <;> rfl

section Closing

variable {s u : State} {o i : Order} (h : Ready s u o i) {m : ChangeMark} {out : Outgoing} {zone : Nat}
include h

theorem closingZone_ready : closingZone u m out = closingZone s m out := by
  rw [closingZone, h.config, freezePoint_ready h]; rfl

theorem closingGradePoint_ready : closingGradePoint u m out = closingGradePoint s m out := by
  rw [closingGradePoint, h.config, closingZone_ready h]; rfl

theorem closedTable_toward (k : Stand) : Toward s.serial m.uid 0 k s (closedTable u m i zone) :=
  ((h.toward s.serial m.uid k).trans (Toward.updateChange (f := closeMark m i zone) (fun _ => rfl) s.serial k)).trans (Toward.recheckAll _)

omit h in
theorem closedTable_waiters : WaitersOnly (u.updateChange m.uid (closeMark m i zone)) (closedTable u m i zone) :=
  WaitersOnly.recheckAll _

theorem closing_toward (k : Stand) : Toward s.serial m.uid 1 k s (closingLaunched u m i zone) := by
  have table := closedTable_toward h (m := m) (zone := zone) k
  have launched := table.trans (Toward.launch (v := closedTable u m i zone) (plusMm m.p zone) h.queued m.uid k table.serial)
  have scheduled := launched.trans (Toward.enqueue s.serial m.uid k _
    (.knifeSchedule (plusMm m.p zone) i.fields.cutLength (some i.fields.number)))
  exact scheduled.trans (Toward.splitAt s.serial m.uid k _ _)

theorem closing_planner : (closingLaunched u m i zone).planner
    = some ⟨(closedTable u m i zone).serial, plusMm m.p zone, plannedCount (closedTable u m i zone) i⟩ := by
  rw [closingLaunched, splitAt_planner, closingScheduled, enqueue_frame]
  exact launch_planner _ h.queued

theorem closing_unmet : ∀ d ∈ u.gradeDiffAtStart i.fields.number,
    (closingLaunched u m i zone).runningCode d.1 ≠ some d.2 := fun d mem => by
  rw [runningCode_of_reels (closing_toward h d.1).reels]
  exact h.unmet d (by rwa [h.fields] at mem)

theorem closedTable_serial : s.serial ≤ (closedTable u m i zone).serial :=
  h.serial.trans closedTable_waiters.serial

theorem closedTable_changes : (closedTable u m i zone).changes
    = s.changes.map fun c => if c.uid == m.uid then closeMark m i zone c else c := by
  rw [← h.changes, ← updateChange_changes, State.changes, closedTable_waiters.frame.marks]; rfl

theorem closedTable_cullZones : (closedTable u m i zone).cullZones = s.cullZones := by
  rw [State.cullZones, closedTable_waiters.frame.marks, ← State.cullZones, updateChange_cullZones]
  exact h.cullZones

theorem closedTable_knife : (closedTable u m i zone).knife = s.knife := by
  rw [closedTable_waiters.frame]; exact h.knife

theorem closedTable_found : (closedTable u m i zone).findOrder i.fields.number = some i := by
  have orders : (closedTable u m i zone).orders = u.orders := by rw [closedTable_waiters.frame]; rfl
  rw [State.findOrder, orders, h.fields]
  exact h.found

/-- R63: the closing leaves the open cuts of every segment. -/
theorem closedTable_cuts (n : Nat) :
    ((closedTable u m i zone).changes.filter fun x => x.outgoing.map (·.order) == some n).map (closedTable u m i zone).openCuts
      = (s.changes.filter fun x => x.outgoing.map (·.order) == some n).map s.openCuts := by
  have kept : ∀ c : ChangeMark, (if c.uid == m.uid then closeMark m i zone c else c).outgoing = c.outgoing
      ∧ (if c.uid == m.uid then closeMark m i zone c else c).p = c.p := fun c => by split <;> exact ⟨rfl, rfl⟩
  rw [closedTable_changes h, List.filter_map, List.map_map]
  refine congrArg₂ List.map (funext fun c => ?_) (List.filter_congr fun c _ => ?_)
  · exact openCuts_congr (closedTable_cullZones h) (closedTable_knife h) (kept c).2 (kept c).1
  · simp only [Function.comp, (kept c).1]

variable (keyed : s.MarksKeyed)
include keyed

theorem closing_alone :
    Alone (closingLaunched u m i zone) (launchMark (closedTable u m i zone) i (plusMm m.p zone)) := by
  have fresh : ∀ c ∈ (closedTable u m i zone).changes, c.uid ≠ (closedTable u m i zone).serial := fun c mem => by
    rw [closedTable_changes h] at mem
    obtain ⟨d, old, rfl⟩ := List.mem_map.mp mem
    have known : d.uid < s.serial := keyed.2 _ (mem_changes.mp old)
    have same : (if d.uid == m.uid then closeMark m i zone d else d).uid = d.uid := by split <;> rfl
    rw [same]
    exact (known.trans_le (closedTable_serial h)).ne
  exact (launch_alone (plusMm m.p zone) h.queued fresh).of_marks
    (by rw [closingLaunched, splitAt_marks, closingScheduled, enqueue_frame])

/-- R64, R71: the launch of a closing. -/
theorem closing_launched (outgoing : m.outgoing = some out) :
    Launched s (u.closeRunOut m i) o (plusMm m.p (closingZone s m out)) (closingZone s m out) := by
  have unmet := closing_unmet h (m := m) (zone := closingZone s m out)
  obtain ⟨y, alone, moved, near⟩ := handed_provisional (mark := m.uid) (p := m.p) (gp := closingGradePoint u m out) unmet
    (closing_planner h) rfl (closing_alone h keyed)
  have last := closeRunOut_eq (u := u) i outgoing
  rw [closingZone_ready h] at last
  rw [last]
  refine launched_of (v := closedTable u m i (closingZone s m out)) rfl h.queued (closedTable_found h)
    (closedTable_serial h) (closedTable_cullZones h) (closedTable_cuts h _) h.becomes ?_ ?_ alone moved near
  · rw [handed_planner unmet, closingLaunched, splitAt_planner, closingScheduled, enqueue_frame]
  · rw [handed_orders unmet, closingLaunched, splitAt_orders, closingScheduled, enqueue_frame]

/-- R71: the closed mark stays in the table. -/
theorem closing_mark (there : m ∈ s.changes) (outgoing : m.outgoing = some out) :
    Mark.change (closeMark m i (closingZone s m out) m) ∈ (u.closeRunOut m i).marks := by
  have known : m.uid < s.serial := keyed.2 _ (mem_changes.mp there)
  have other : m.uid ≠ (closedTable u m i (closingZone s m out)).serial := (known.trans_le (closedTable_serial h)).ne
  have table : (closedTable u m i (closingZone s m out)).findChange m.uid
      = some (closeMark m i (closingZone s m out) m) := by
    rw [findChange_of_marks closedTable_waiters.frame.marks]
    refine updateChange_find_self (f := closeMark m i (closingZone s m out)) (fun _ => rfl) ?_
    rw [findChange_of_marks h.marks]
    exact keyed.findChange (mem_changes.mp there)
  have launched : (closingLaunched u m i (closingZone s m out)).findChange m.uid
      = some (closeMark m i (closingZone s m out) m) := by
    rw [closingLaunched, findChange_of_marks (splitAt_marks _ _), closingScheduled, enqueue_findChange, launch_find _ h.queued other, table]
  have found : (u.closeRunOut m i).findChange m.uid = some (closeMark m i (closingZone s m out) m) := by
    rw [closeRunOut_eq i outgoing, closingZone_ready h, handed_find (closing_unmet h)]
    · exact launched
    · intro pr planner
      rw [closing_planner h] at planner
      cases planner
      exact other
  exact (findChange_mem found).1

omit keyed

theorem closing_grades (outgoing : m.outgoing = some out) : (u.closeRunOut m i).grades = activeUp s o := by
  rw [closeRunOut_eq i outgoing, handed_grades (closing_unmet h), closingLaunched, splitAt_grades,
    closingScheduled, enqueue_frame]
  refine (launch_grades _ h.queued).trans (activeUp_congr ?_ h.fields)
  rw [closedTable_waiters.frame]
  exact h.grades

theorem closing_runSeq (outgoing : m.outgoing = some out) :
    (u.closeRunOut m i).runSeq = s.runSeq.filter (· != o.fields.number) := by
  rw [closeRunOut_eq i outgoing, handed_runSeq (closing_unmet h), ← h.line, ← h.fields, closingLaunched, splitAt_runSeq,
    closingScheduled, enqueue_frame]
  refine (launch_runSeq _ h.queued).trans ?_
  rw [closedTable_waiters.frame]; rfl

theorem closing_split (outgoing : m.outgoing = some out) :
    ⟨m.uid, plusMm m.p (closingZone s m out)⟩ ∈ (u.closeRunOut m i).knife.split := by
  rw [closeRunOut_eq i outgoing, handed_knife (closing_unmet h), closingZone_ready h]
  exact mem_insertSplit _ _ _

theorem closing_schedule (outgoing : m.outgoing = some out) (room : s.link.knife.length < 8) :
    Command.knifeSchedule (plusMm m.p (closingZone s m out)) o.fields.cutLength (some o.fields.number)
      ∈ (u.closeRunOut m i).link.knife := by
  have queue : ((closedTable u m i (closingZone s m out)).launch i
      (plusMm m.p (closingZone s m out))).link.queue .knife = s.link.knife :=
    (launch_queue _ h.queued (by decide)).trans ((closedTable_waiters.queues _ (by decide)).trans h.queue)
  show _ ∈ (u.closeRunOut m i).link.queue .knife
  rw [closeRunOut_eq i outgoing, handed_knifeQueue (closing_unmet h), closingZone_ready h, closingLaunched, splitAt_link, ← h.fields]
  refine mem_enqueue (c := .knifeSchedule (plusMm m.p (closingZone s m out)) i.fields.cutLength (some i.fields.number)) ?_
  show (State.link _ |>.queue .knife).length < 8
  rw [queue]; exact room

theorem closing_plans (outgoing : m.outgoing = some out) (keyed : s.MarksKeyed) :
    StartPlansHanded s (u.closeRunOut m i) 6 m.uid m.p (closingGradePoint s m out) o := by
  rw [closeRunOut_eq i outgoing, h.fields, ← closingGradePoint_ready h]
  refine h.plans keyed (n := 1) le_rfl (closing_toward h) fun pr planner => ?_
  rw [closing_planner h] at planner
  cases planner
  exact closedTable_serial h

/-- R71, R16: a launch attempt with an open run-out closes it. -/
theorem closes_runOut (run : s.openRunOut = some m) (outgoing : m.outgoing = some out) (keyed : s.MarksKeyed)
    (room : s.link.knife.length < 8) : ClosesRunOut s (u.closeRunOut m i) m out o := by
  have gradePoint : closingGradePoint s m out = plusMm m.p (closingZone s m out)
      - BitVec.ofNat 32 (ceilDiv (gMin s.config) out.cutLength * out.cutLength) := by
    rw [closingGradePoint, shiftBy, BitVec.ofInt_neg, BitVec.ofInt_natCast, BitVec.sub_eq_add_neg]
  refine ⟨closing_launched h keyed outgoing, closing_grades h outgoing,
    ⟨_, closing_mark h keyed (List.mem_of_find?_eq_some run) outgoing, ?_, fun e mem => ?_⟩, closing_split h outgoing,
    closing_schedule h outgoing room, ?_, ?_⟩
  · show m.closed _ _ _ = _
    simp only [ChangeMark.closed, List.contains_iff_mem, h.fields]
    rfl
  · have rearmed : rearm e ∈ (closeMark m i (closingZone s m out) m).crossings := List.mem_map_of_mem mem
    obtain ⟨stays, bond, decided⟩ := rearm_cases e
    exact ⟨fun other => stays other ▸ rearmed, fun silent kind => bond silent kind ▸ rearmed, fun is => decided is ▸ rearmed⟩
  · have plans := closing_plans h outgoing keyed
    rw [gradePoint] at plans
    exact plans
  · rw [closeRunOut_eq i outgoing]
    exact addDecision_mem _ _

end Closing

end Sys2Proof.Machine
end

section
/-! PROOF. The requests whose launch attempt makes a line start or closes an open run-out (O18). -/

namespace Sys2Proof.Machine

open Sys2Proof

/-! ### SCHEDULE ORDER and RUSH ORDER (R35, R77) -/

theorem filter_cons_filter (n : Nat) (l : List Nat) : (n :: l.filter (· != n)).filter (· != n) = l.filter (· != n) := by
  rw [List.filter_cons_of_neg (by simp), List.filter_filter]
  simp only [Bool.and_self]

/-- R35: the order placed in the run sequence. -/
def placedAt (n place a : Nat) (s : State) : State :=
  let t := (s.unlink n).updateOrder n fun o => { o with rush := false }
  match place with
  | 0 => t.linkHead n
  | 1 => t.linkTail n
  | _ => t.linkAfter a n

theorem scheduleAt_eq (n place a : Nat) (s : State) : scheduleAt n place a s
    = done (placedAt n place a s).attemptLaunch.2 ((placedAt n place a s).attemptLaunch.2.orderStateByte n
      ++ byteOf (placedAt n place a s).attemptLaunch.2.runSeq.length) := rfl

/-- R35, R77: an order that has come to the head of the run sequence is ready for the launch. -/
theorem ready_of_sequence {s : State} {o i : Order} {n : Nat} {os : List Order} (found : s.findOrder n = some o)
    (hold : s.errors.hold = false) (suspended : s.suspended = [])
    (written : ({ s with orders := os } : State).findOrder n = some i) (queued : i.state = .queued)
    (becomes : launchedOrder i = launchedOrder o) :
    Ready s { s with runSeq := n :: s.runSeq.filter (· != n), orders := os } o i := by
  have number := findOrder_number found
  exact {
    marks := rfl, odometer := rfl, config := rfl, reels := rfl, grades := rfl, knife := rfl, queue := rfl
    serial := le_rfl, status := fun _ on => on, seqs := fun _ _ => rfl, suspended := suspended, hold := hold
    head := by rw [number]; rfl
    line := by rw [number]; exact filter_cons_filter n s.runSeq
    found := by rw [number]; exact written
    queued := queued, becomes := becomes }

/-- R35: SCHEDULE ORDER at the head, or at the tail of a sequence that holds no other order. -/
theorem schedule_ready {s : State} {o : Order} {n place : Nat} (a : Nat) (found : s.findOrder n = some o)
    (hold : s.errors.hold = false) (suspended : s.suspended = [])
    (head : place = 0 ∨ (place = 1 ∧ s.runSeq.filter (· != n) = [])) :
    Ready s (placedAt n place a s) o { o with rush := false, state := .queued } := by
  have calm := findOrder_updateOrder (s := s.unlink n) (n := n) (f := fun o => { o with rush := false }) fun _ => rfl
  have linked := findOrder_updateOrder (s := (s.unlink n).updateOrder n fun o => { o with rush := false }) (n := n)
    (f := fun o => { o with state := .queued }) fun _ => rfl
  rw [calm, show (s.unlink n).findOrder n = some o from found] at linked
  have placed : placedAt n place a s = { s with
      runSeq := n :: s.runSeq.filter (· != n)
      orders := (((s.unlink n).updateOrder n fun o => { o with rush := false }).updateOrder n
        fun o => { o with state := .queued }).orders } := by
    rcases head with rfl | ⟨rfl, empty⟩
    · rfl
    · have alone : s.runSeq.filter (· != n) ++ [n] = n :: s.runSeq.filter (· != n) := by rw [empty]; rfl
      rw [← alone]; rfl
  rw [placed]
  exact ready_of_sequence found hold suspended linked rfl rfl

/-- R77: RUSH ORDER places the order at the head. -/
theorem rush_ready {s : State} {o : Order} {n : Nat} (found : s.findOrder n = some o) (hold : s.errors.hold = false)
    (suspended : s.suspended = []) : Ready s (s.rushToHead n) o { o with state := .queued, rush := true } := by
  have linked := findOrder_updateOrder (s := s.unlink n) (n := n) (f := fun o => { o with state := .queued }) fun _ => rfl
  have rushed := findOrder_updateOrder (s := (s.unlink n).linkHead n) (n := n)
    (f := fun o => { o with rush := true }) fun _ => rfl
  rw [show ((s.unlink n).linkHead n).findOrder n = some { o with state := .queued } from
    linked.trans (by rw [show (s.unlink n).findOrder n = some o from found]; rfl)] at rushed
  exact ready_of_sequence found hold suspended rushed rfl rfl

theorem orderStateByte_running {t : State} {n : Nat} {o : Order} (found : t.findOrder n = some o)
    (running : o.state = .running) : t.orderStateByte n = byteOf 2 := by
  simp only [State.orderStateByte, found, running]
  rfl

theorem waiting_of {o : Order} (h : o.state = .entered ∨ o.state = .queued) : o.waiting = true := by
  rcases h with h | h <;> simp [Order.waiting, h]

/-- R35: SCHEDULE ORDER that launches its order. -/
theorem exec_schedule {b : List Byte} {s t : State} {o : Order} (len : b.length = 5)
    (found : s.findOrder (field b 0 2) = some o) (waiting : o.state = .entered ∨ o.state = .queued)
    (place : field b 2 1 ≤ 1) (launched : t.findOrder (field b 0 2) = some (launchedOrder o))
    (attempt : (placedAt (field b 0 2) (field b 2 1) (field b 3 2) s).attemptLaunch.2 = t) :
    exec (.scheduleOrder b) s = .next (t.respond 0x12#8 .ok (byteOf 2 ++ byteOf t.runSeq.length)) := by
  have range : ¬ 2 < field b 2 1 := by omega
  have other : field b 2 1 ≠ 2 := by omega
  have answer : answerScheduleOrder b s = done t (byteOf 2 ++ byteOf t.runSeq.length) := by
    simp only [answerScheduleOrder, len, bne_self_eq_false, range, decide_false, refuseIf_false, found,
      waiting_of waiting, Bool.not_true, other, if_false]
    rw [scheduleAt_eq, attempt, orderStateByte_running launched rfl]
  show Host.Outcome.next (answered 0x12 s (answerScheduleOrder b s)) = _
  rw [answer]; rfl

/-- R77: RUSH ORDER that launches its order, where no provisional mark stands. -/
theorem exec_rush {b : List Byte} {s t : State} {o : Order} {p : Coord} (len : b.length = 2)
    (found : s.findOrder (field b 0 2) = some o) (waiting : o.state = .entered ∨ o.state = .queued)
    (none : s.planner = none) (launched : t.findOrder (field b 0 2) = some (launchedOrder o))
    (attempt : (s.rushToHead (field b 0 2)).attemptLaunch.2 = t) (end_ : t.provisional.map (·.2.p) = some p) :
    exec (.rushOrder b) s
      = .next (t.respond 0x14#8 .ok (byteOf 2 ++ byteOf 0 ++ byteOf 1 ++ coordBytes p)) := by
  have noTarget : ∀ u : State, u.planner = Option.none → u.curtailTarget = Option.none := fun u h => by
    rw [State.curtailTarget, State.provisional, h]
  have here := noTarget s none
  have there := noTarget (s.rushToHead (field b 0 2)) none
  have push : s.pushPossible = true := by rw [State.pushPossible, here]
  have still : (s.rushToHead (field b 0 2)).curtailForRush = s.rushToHead (field b 0 2) := by
    rw [State.curtailForRush, there]
  have answer : answerRushOrder b s = done t (byteOf 2 ++ byteOf 0 ++ byteOf 1 ++ coordBytes p) := by
    simp only [answerRushOrder, len, bne_self_eq_false, refuseIf_false, found, waiting_of waiting, Bool.not_true, push,
      still, there, attempt, orderStateByte_running launched rfl, State.provisionalEnd, end_, List.append_assoc]
    rfl
  show Host.Outcome.next (answered 0x14 s (answerRushOrder b s)) = _
  rw [answer]; rfl

/-! ### RELEASE HOLD (R204) -/

theorem enterSplicing_room {s : State} {k : Stand} (p : Pos) (room : s.link.splice.length < 8) :
    s.enterSplicing k p = (s.setSeq k { s.seq k with
      state := .splicing, required := none, timer := none, goTag := some s.serial }).bumpSerial.setQueue .splice
        (s.link.splice ++ [.spliceGo k p s.serial]) := by
  have single : (s.link.splice.any (Command.spliceGo k p s.serial).replaces) = false := by simp [Command.replaces]
  unfold State.enterSplicing State.enqueue
  exact (if_neg (by rw [Bool.not_eq_true]; exact single)).trans (if_pos room)

/-- R109, R111: with room in the SPLICE queue a go test queues one command at most and raises nothing. -/
theorem goTest_room {s : State} (k : Stand) (room : s.link.splice.length < 8) :
    (s.goTest k).link.splice.length ≤ s.link.splice.length + 1 ∧ (s.goTest k).errors = s.errors := by
  have entered : ∀ p, (s.enterSplicing k p).link.splice.length ≤ s.link.splice.length + 1
      ∧ (s.enterSplicing k p).errors = s.errors := fun p => by
    rw [enterSplicing_room p room]
    exact ⟨(List.length_append ..).le, rfl⟩
  have same : s.link.splice.length ≤ s.link.splice.length + 1 ∧ s.errors = s.errors := ⟨Nat.le_succ _, rfl⟩
  unfold State.goTest
  repeat' split
  · exact entered _
  all_goals exact same

/-- R109: with room for every stand the go tests raise nothing. -/
theorem goTestAll_errors {s : State} (room : s.link.splice.length ≤ 3) : s.goTestAll.errors = s.errors := by
  have five : (Stand.all.filter fun k => (s.seq k).state = .waitGo).length ≤ 5 := List.length_filter_le _ _
  have tested := takeEvents_induct (act := State.goTest)
    (es := Stand.all.filter fun k => (s.seq k).state = .waitGo) (s := s)
    (fun left t => t.link.splice.length + left.length ≤ 8 ∧ t.errors = s.errors) (fun _ _ h => h)
    (fun left i t lt ⟨fits, same⟩ => by
      obtain ⟨one, quiet⟩ := goTest_room left[i] (s := t) (by omega)
      exact ⟨by rw [List.length_eraseIdx_of_lt lt]; omega, quiet.trans same⟩)
    ⟨by omega, rfl⟩
  exact tested.2

/-- R204: the line leaves HOLD, and nothing moves but the stands in WAIT_GO. -/
theorem leaveHold_waiters (s : State) :
    WaitersOnly { s with errors := { s.errors with hold := false } } s.leaveHold := by
  unfold State.leaveHold
  split
  · exact WaitersOnly.goTestAll _
  · next run =>
    have off : s.errors.hold = false := by simpa using run
    have same : ({ s with errors := { s.errors with hold := false } } : State) = s := by rw [← off]
    rw [same]
    exact WaitersOnly.refl s

theorem leaveHold_errors {s : State} (room : s.link.splice.length ≤ 3) :
    s.leaveHold.errors = { s.errors with hold := false } := by
  unfold State.leaveHold
  split
  · exact goTestAll_errors room
  · next run =>
    have off : s.errors.hold = false := by simpa using run
    rw [← off]

theorem release_ready {s : State} {n : Nat} {rest : List Nat} {i : Order} (room : s.link.splice.length ≤ 3)
    (sequence : s.runSeq = n :: rest) (found : s.findOrder n = some i) (queued : i.state = .queued)
    (suspended : s.suspended = []) : Ready s s.leaveHold i i := by
  have waiters := leaveHold_waiters s
  have errors := leaveHold_errors room
  have number := findOrder_number found
  have orders : s.leaveHold.orders = s.orders := by rw [waiters.frame]
  exact {
    marks := waiters.frame.marks, odometer := waiters.frame.odometer, config := waiters.frame.config
    reels := waiters.frame.reels
    grades := by rw [waiters.frame]
    knife := by rw [waiters.frame]
    queue := waiters.queues .knife (by decide)
    serial := waiters.serial
    status := fun _ on => by rw [errors]; exact on
    seqs := waiters.seqs
    suspended := by rw [waiters.frame]; exact suspended
    hold := by rw [errors]
    head := by rw [waiters.frame, number]; exact congrArg List.head? sequence
    line := by rw [waiters.frame]
    found := by rw [State.findOrder, orders, number]; exact found
    queued := queued
    becomes := rfl }

/-- R204: RELEASE HOLD that launches an order. -/
theorem exec_release {s t : State} {n : Nat} (fatal : s.errors.fatalSet = false)
    (attempt : s.leaveHold.attemptLaunch = (some n, t)) : exec (.releaseHold []) s
      = .next (t.respond 0x0B#8 .ok ([if t.errors.hold then 1#8 else 0#8] ++ byteOf 1 ++ bytesOf 2 n)) := by
  have answer : answerReleaseHold [] s
      = done t ([if t.errors.hold then 1#8 else 0#8] ++ byteOf 1 ++ bytesOf 2 n) := by
    simp only [answerReleaseHold, List.length_nil, bne_self_eq_false, refuseIf_false, fatal, attempt, boolByte_eq,
      List.append_assoc]
    rfl
  show Host.Outcome.next (answered 0x0B s (answerReleaseHold [] s)) = _
  rw [answer]; rfl

/-! ### The launch by request (R61, R69, R71) -/

theorem launched_order {s t : State} {o : Order} {start : Coord} {zone n : Nat} (h : Launched s t o start zone)
    (number : o.fields.number = n) : t.findOrder n = some (launchedOrder o) := number ▸ h.2

/-- R64: a launched order has a provisional end. -/
theorem launched_end {s t : State} {o : Order} {start : Coord} {zone : Nat} (h : Launched s t o start zone) :
    ∃ p, t.provisional.map (·.2.p) = some p := by
  obtain ⟨⟨y, mem, -, planner, -⟩, -⟩ := h
  have found : (t.findChange y.uid).isSome := by
    rw [State.findChange, List.find?_isSome]
    exact ⟨y, mem_changes.mpr mem, by simp⟩
  obtain ⟨x, found⟩ := Option.isSome_iff_exists.mp found
  exact ⟨x.p, by simp only [State.provisional, planner, found, Option.map_some]⟩

/-- Settles O18. The launch attempt of each request starts from a state that is Ready; the line start and the closing are
followed from there to the end of their hand-offs. -/
theorem scheduleOrderMakesALineStart : Obligations.ScheduleOrderMakesALineStart := by
  refine ⟨fun b s o len hold found waiting none room place suspended => ?_,
    fun s m out run outgoing keyed table suspended link => ⟨fun b o hold found waiting => ⟨fun len place => ?_,
      fun len none => ?_⟩, fun n rest i fatal splice sequence found queued => ?_⟩⟩
  · have number := findOrder_number found
    have ready := schedule_ready (field b 3 2) found hold suspended place
    have start := ready.attempt_start none room
    have launched := lineStart_launched ready none
    have line := lineStart_runSeq ready
    rw [number] at line
    have done := exec_schedule len found waiting (by omega) (launched_order launched number) (congrArg Prod.snd start)
    refine ⟨_, by rw [line] at done; exact done, ⟨_, lineStart_mark ready none, freezePoint_ready ready, rfl,
      freezePoint_ready ready, rfl, ?_, rfl, fun keyed => ?_, lineStart_decision⟩, launched, lineStart_grades ready, line,
      fun link => ?_⟩
    · show some o.fields.number = _
      rw [number]
    · have plans := lineStart_plans ready keyed
      rw [freezePoint_ready ready] at plans
      exact plans
    · have schedule := lineStart_schedule ready link
      rw [number] at schedule
      exact schedule
  · have number := findOrder_number found
    have ready := schedule_ready (field b 3 2) found hold suspended place
    have close := ready.attempt_close run table
    have closes := closes_runOut ready run outgoing keyed link
    have line := closing_runSeq ready outgoing
    rw [number] at line
    have done := exec_schedule len found waiting (by omega) (launched_order (closing_launched ready keyed outgoing) number) (congrArg Prod.snd close)
    exact ⟨_, by rw [line] at done; exact done, closes, line⟩
  · have number := findOrder_number found
    have ready := rush_ready found hold suspended
    have close := ready.attempt_close run table
    have closes := closes_runOut ready run outgoing keyed link
    have line := closing_runSeq ready outgoing
    rw [number] at line
    obtain ⟨p, end_⟩ := launched_end (closing_launched ready keyed outgoing)
    exact ⟨_, p, exec_rush len found waiting none (launched_order (closing_launched ready keyed outgoing) number) (congrArg Prod.snd close) end_, end_, closes, line⟩
  · have number := findOrder_number found
    have ready := release_ready splice sequence found queued suspended
    have close := ready.attempt_close run table
    rw [number] at close
    have line := closing_runSeq ready outgoing
    rw [number, sequence, List.filter_cons_of_neg (by simp)] at line
    exact ⟨_, exec_release fatal close, closes_runOut ready run outgoing keyed link, line⟩

end Sys2Proof.Machine
end

section
/-! PROOF. The tables of the order book and the grades agree (R24, R31, R47, R49): an order record rewritten, entered and
retired, with the counts of the grades that go with it. The groundwork of the consistency of every step (O60). -/

namespace Sys2Proof.Machine

open Sys2Proof

/-! ### One record of a table without repetitions -/

theorem findOrder_mem {s : State} {n : Nat} {o : Order} (found : s.findOrder n = some o) :
    o ∈ s.orders ∧ o.fields.number = n :=
  ⟨List.mem_of_find?_eq_some found, findOrder_number found⟩

theorem findGrade_mem {s : State} {n : Nat} {g : Grade} (found : s.findGrade n = some g) :
    g ∈ s.grades ∧ g.fields.number = n :=
  ⟨List.mem_of_find?_eq_some found, by simpa using List.find?_some found⟩

/-- The list with the records of one number rewritten. -/
def rewriteAt (n : Nat) (f : Order → Order) (l : List Order) : List Order :=
  l.map fun r => if r.fields.number == n then f r else r

theorem rewriteAt_absent {n : Nat} {l : List Order} (f : Order → Order) (absent : n ∉ l.map (·.fields.number)) :
    rewriteAt n f l = l := by
  refine (List.map_congr_left fun r mem => ?_).trans (List.map_id l)
  have : r.fields.number ≠ n := fun e => absent (List.mem_map.mpr ⟨r, mem, e⟩)
  simp [this]

section Unique

variable {l : List Order} {o : Order} (nodup : (l.map (·.fields.number)).Nodup) (mem : o ∈ l)
include nodup mem

/-- A record is the only one of its number. -/
theorem eq_of_number {r : Order} (hr : r ∈ l) (same : r.fields.number = o.fields.number) : r = o :=
  List.inj_on_of_nodup_map nodup hr mem same

theorem mem_rewriteAt {f : Order → Order} {x : Order} :
    x ∈ rewriteAt o.fields.number f l ↔ x = f o ∨ (x ∈ l ∧ x.fields.number ≠ o.fields.number) := by
  simp only [rewriteAt, List.mem_map]
  constructor
  · rintro ⟨r, hr, rfl⟩
    by_cases same : r.fields.number = o.fields.number
    · simp [eq_of_number nodup mem hr same]
    · simp [same, hr]
  · rintro (rfl | ⟨hx, other⟩)
    · exact ⟨o, mem, by simp⟩
    · exact ⟨x, hx, by simp [other]⟩

/-- A reading that the rewritten record keeps is kept of the whole list. -/
theorem map_rewriteAt {α : Type} {f : Order → Order} (key : Order → α) (keep : key (f o) = key o) :
    (rewriteAt o.fields.number f l).map key = l.map key := by
  simp only [rewriteAt, List.map_map]
  refine List.map_congr_left fun r hr => ?_
  by_cases same : r.fields.number = o.fields.number
  · simp [eq_of_number nodup mem hr same, keep]
  · simp [same]

/-- The records that a test counts, once one record has been rewritten. -/
theorem countP_rewriteAt (f : Order → Order) (p : Order → Bool) :
    (rewriteAt o.fields.number f l).countP p + (p o).toNat = l.countP p + (p (f o)).toNat := by
  induction l with
  | nil => cases mem
  | cons r l ih =>
    obtain ⟨fresh, nodup⟩ := List.nodup_cons.mp nodup
    rcases List.mem_cons.mp mem with rfl | mem
    · have rest := rewriteAt_absent f fresh
      simp only [rewriteAt] at rest
      simp only [rewriteAt, List.map_cons, rest, List.countP_cons, BEq.rfl, if_true]
      cases p o <;> cases p (f o) <;> simp
    · have other : r.fields.number ≠ o.fields.number := fun e => fresh (List.mem_map.mpr ⟨o, mem, e.symm⟩)
      have rest := ih nodup mem
      simp only [rewriteAt, beq_iff_eq] at rest
      simp only [rewriteAt, List.map_cons, List.countP_cons, beq_iff_eq, if_neg other]
      omega

/-- The records that a test counts, once one record has been taken out. -/
theorem countP_filter_number (p : Order → Bool) :
    (l.filter fun r => r.fields.number != o.fields.number).countP p + (p o).toNat = l.countP p := by
  induction l with
  | nil => cases mem
  | cons r l ih =>
    obtain ⟨fresh, nodup⟩ := List.nodup_cons.mp nodup
    rcases List.mem_cons.mp mem with rfl | mem
    · have rest : (l.filter fun r => r.fields.number != o.fields.number) = l :=
        List.filter_eq_self.mpr fun r hr => by
          simpa using fun e : r.fields.number = o.fields.number => fresh (List.mem_map.mpr ⟨r, hr, e⟩)
      simp only [List.filter_cons, bne_self_eq_false, Bool.false_eq_true, if_false, rest, List.countP_cons]
      cases p o <;> simp
    · have other : r.fields.number ≠ o.fields.number := fun e => fresh (List.mem_map.mpr ⟨o, mem, e.symm⟩)
      simp only [List.filter_cons, bne_iff_ne, ne_eq, other, not_false_eq_true, if_true, List.countP_cons]
      have := ih nodup mem
      omega

end Unique

/-! ### The tables together -/

/-- R49: the order counts in the reference count of the grade of that number. -/
def Order.refersTo (o : Order) (n : Nat) : Bool := o.fields.grade == n

/-- R49: the order counts in the active count of the grade of that number. -/
def Order.activates (o : Order) (n : Nat) : Bool := o.fields.grade == n && o.onMachine

theorem countsAgree_iff {s : State} : s.CountsAgree ↔
    (∀ o ∈ s.orders, ∃ g ∈ s.grades, g.fields.number = o.fields.grade)
      ∧ ∀ g ∈ s.grades, g.refs = s.orders.countP (·.refersTo g.fields.number)
        ∧ g.active = s.orders.countP (·.activates g.fields.number) := by
  simp only [State.CountsAgree, List.countP_eq_length_filter, Order.refersTo, Order.activates, Order.onMachine]

/-- R24, R31, R47, R49: the order table, the run sequence and the grade table agree. -/
structure State.BookAgrees (s : State) : Prop where
  keys : s.KeysDistinct
  sequence : s.SequenceIsQueued
  counts : s.CountsAgree

namespace State.BookAgrees

variable {s t : State} {n : Nat} {o : Order}

theorem numbers (h : s.BookAgrees) : (s.orders.map (·.fields.number)).Nodup := h.keys.1

/-- R31: a QUEUED order of the table stands in the run sequence, and no other does. -/
theorem mem_runSeq (h : s.BookAgrees) (found : s.findOrder n = some o) : n ∈ s.runSeq ↔ o.state = .queued := by
  obtain ⟨mem, rfl⟩ := findOrder_mem found
  refine (h.sequence.2 _).trans ⟨?_, fun queued => ⟨o, mem, rfl, queued⟩⟩
  rintro ⟨r, hr, same, queued⟩
  exact eq_of_number h.numbers mem hr same ▸ queued

/-- R31, R49: one record has been rewritten by f, the grades by G. The tables still agree where the record keeps its number
and slot and names a grade of the table, the run sequence holds it exactly when it is QUEUED, and the counts of every grade
have followed. -/
theorem rewrite (h : s.BookAgrees) (found : s.findOrder n = some o) {f : Order → Order} {G : Grade → Grade}
    (orders : t.orders = rewriteAt n f s.orders) (grades : t.grades = s.grades.map G)
    (number : (f o).fields.number = o.fields.number) (slot : (f o).slot = o.slot)
    (named : ∃ g ∈ s.grades, g.fields.number = (f o).fields.grade)
    (same : ∀ g ∈ s.grades, (G g).fields.number = g.fields.number ∧ (G g).slot = g.slot)
    (nodup : t.runSeq.Nodup) (others : ∀ k, k ≠ n → (k ∈ t.runSeq ↔ k ∈ s.runSeq))
    (self : n ∈ t.runSeq ↔ (f o).state = .queued)
    (refs : ∀ g ∈ s.grades, (G g).refs + (o.refersTo g.fields.number).toNat
      = g.refs + ((f o).refersTo g.fields.number).toNat)
    (active : ∀ g ∈ s.grades, (G g).active + (o.activates g.fields.number).toNat
      = g.active + ((f o).activates g.fields.number).toNat) : t.BookAgrees := by
  obtain ⟨mem, rfl⟩ := findOrder_mem found
  have unique := h.numbers
  obtain ⟨keys1, keys2, keys3, keys4⟩ := h.keys
  obtain ⟨known, counts⟩ := countsAgree_iff.mp h.counts
  have gradeNumbers : t.grades.map (·.fields.number) = s.grades.map (·.fields.number) := by
    rw [grades, List.map_map]; exact List.map_congr_left fun g hg => (same g hg).1
  have gradeSlots : t.grades.map (·.slot) = s.grades.map (·.slot) := by
    rw [grades, List.map_map]; exact List.map_congr_left fun g hg => (same g hg).2
  refine ⟨⟨?_, ?_, gradeNumbers ▸ keys3, gradeSlots ▸ keys4⟩, ⟨nodup, fun k => ?_⟩,
    countsAgree_iff.mpr ⟨fun x hx => ?_, fun x hx => ?_⟩⟩
  · rw [orders, map_rewriteAt unique mem (fun r => r.fields.number) number]; exact keys1
  · rw [orders, map_rewriteAt unique mem (fun r => r.slot) slot]; exact keys2
  · simp only [orders, mem_rewriteAt unique mem]
    by_cases e : k = o.fields.number
    · subst e
      rw [self]
      exact ⟨fun q => ⟨f o, .inl rfl, number, q⟩, by
        rintro ⟨x, rfl | ⟨-, other⟩, eq, q⟩
        · exact q
        · exact absurd eq other⟩
    · rw [others k e, h.sequence.2 k]
      constructor
      · rintro ⟨x, hx, rfl, q⟩
        exact ⟨x, .inr ⟨hx, e⟩, rfl, q⟩
      · rintro ⟨x, rfl | ⟨hx, -⟩, eq, q⟩
        · exact absurd (eq.symm.trans number) e
        · exact ⟨x, hx, eq, q⟩
  · have present : ∃ g ∈ s.grades, g.fields.number = x.fields.grade := by
      rw [orders, mem_rewriteAt unique mem] at hx
      rcases hx with rfl | ⟨hx, -⟩
      · exact named
      · exact known x hx
    obtain ⟨g, hg, eq⟩ := present
    exact ⟨G g, grades ▸ List.mem_map_of_mem hg, (same g hg).1.trans eq⟩
  · rw [grades, List.mem_map] at hx
    obtain ⟨g, hg, rfl⟩ := hx
    obtain ⟨refsOf, activeOf⟩ := counts g hg
    rw [(same g hg).1, orders]
    have r := countP_rewriteAt unique mem f (·.refersTo g.fields.number)
    have a := countP_rewriteAt unique mem f (·.activates g.fields.number)
    have := refs g hg
    have := active g hg
    exact ⟨by omega, by omega⟩

/-- The record of an order changes in fields that no other table follows. -/
theorem updateOrder (h : s.BookAgrees) {f : Order → Order} (number : ∀ o, (f o).fields.number = o.fields.number)
    (slot : ∀ o, (f o).slot = o.slot) (grade : ∀ o, (f o).fields.grade = o.fields.grade)
    (state : ∀ o, (f o).state = o.state) : (s.updateOrder n f).BookAgrees := by
  cases found : s.findOrder n with
  | none =>
    have absent : n ∉ s.orders.map (·.fields.number) := by
      simpa [State.findOrder] using found
    have same : s.updateOrder n f = s := by
      have := rewriteAt_absent f absent
      simp only [rewriteAt] at this
      simp only [State.updateOrder, this]
    rw [same]; exact h
  | some o =>
    have mem := (findOrder_mem found).1
    refine h.rewrite found (f := f) (G := id) rfl (List.map_id _).symm (number o) (slot o) ?_ (fun _ _ => ⟨rfl, rfl⟩)
      h.sequence.1 (fun _ _ => Iff.rfl) ?_ (fun g _ => ?_) (fun g _ => ?_)
    · rw [grade]; exact h.counts.1 o mem
    · rw [state]; exact h.mem_runSeq found
    · simp [Order.refersTo, grade]
    · simp [Order.activates, Order.onMachine, grade, state]

/-! ### An order in another state (R28, R29, R30, R49) -/

/-- R49: the grades with the active count of one of them changed. -/
def withActive (n : Nat) (f : Nat → Nat) (g : Grade) : Grade :=
  if g.fields.number == n then { g with active := f g.active } else g

theorem withActive_keeps (n : Nat) (f : Nat → Nat) (g : Grade) :
    (withActive n f g).fields = g.fields ∧ (withActive n f g).slot = g.slot ∧ (withActive n f g).refs = g.refs := by
  unfold withActive; split <;> exact ⟨rfl, rfl, rfl⟩

/-- R49: the grades with the reference count of one of them changed. -/
def withRefs (n : Nat) (f : Nat → Nat) (g : Grade) : Grade :=
  if g.fields.number == n then { g with refs := f g.refs } else g

theorem withRefs_keeps (n : Nat) (f : Nat → Nat) (g : Grade) :
    (withRefs n f g).fields = g.fields ∧ (withRefs n f g).slot = g.slot ∧ (withRefs n f g).active = g.active := by
  unfold withRefs; split <;> exact ⟨rfl, rfl, rfl⟩

theorem withRefs_refs (n : Nat) (f : Nat → Nat) (g : Grade) :
    (withRefs n f g).refs = if g.fields.number = n then f g.refs else g.refs := by
  simp only [withRefs, beq_iff_eq]; split <;> rfl

theorem gradeRefUp_grades (s : State) (n : Nat) : (s.gradeRefUp n).grades = s.grades.map (withRefs n (· + 1)) := rfl

theorem gradeRefDown_grades (s : State) (n : Nat) : (s.gradeRefDown n).grades = s.grades.map (withRefs n (· - 1)) := rfl

section Restate

variable (h : s.BookAgrees) (found : s.findOrder n = some o) {f : Order → Order}
  (orders : t.orders = rewriteAt n f s.orders) (fields : (f o).fields = o.fields) (slot : (f o).slot = o.slot)
  (nodup : t.runSeq.Nodup) (others : ∀ k, k ≠ n → (k ∈ t.runSeq ↔ k ∈ s.runSeq))
  (self : n ∈ t.runSeq ↔ (f o).state = .queued)
include h found orders fields slot nodup others self

/-- An order takes another state, and with it its place in or out of the run sequence. -/
theorem restate {c : Nat → Nat} (grades : t.grades = s.grades.map (withActive o.fields.grade c))
    (count : ∀ g ∈ s.grades, g.fields.number = o.fields.grade →
      c g.active + o.onMachine.toNat = g.active + (f o).onMachine.toNat) : t.BookAgrees := by
  refine h.rewrite found orders grades (by rw [fields]) slot ?_ (fun g _ => ?_) nodup others self
    (fun g _ => ?_) (fun g hg => ?_)
  · rw [fields]; exact h.counts.1 o (findOrder_mem found).1
  · exact ⟨by rw [(withActive_keeps _ _ g).1], (withActive_keeps _ _ g).2.1⟩
  · rw [(withActive_keeps _ _ g).2.2, Order.refersTo, Order.refersTo, fields]
  · by_cases named : g.fields.number = o.fields.grade
    · simpa [withActive, Order.activates, fields, named] using count g hg named
    · simp [withActive, Order.activates, fields, named, beq_false_of_ne (Ne.symm named)]

/-- The order stays on the machine or off it. -/
theorem restate_still (grades : t.grades = s.grades) (still : (f o).onMachine = o.onMachine) : t.BookAgrees := by
  refine h.restate found orders fields slot nodup others self (c := id) ?_ fun _ _ _ => by rw [still, id]
  have same : withActive o.fields.grade id = id := by funext g; unfold withActive; split <;> rfl
  rw [grades, same, List.map_id]

/-- R49: the order comes onto the machine. -/
theorem restate_starts (grades : t.grades = s.grades.map (withActive o.fields.grade (· + 1)))
    (off : o.onMachine = false) (on : (f o).onMachine = true) : t.BookAgrees :=
  h.restate found orders fields slot nodup others self grades fun _ _ _ => by rw [off, on]; rfl

/-- R49: the order leaves the machine; its grade's active count holds it, so that it can fall. -/
theorem restate_ends (grades : t.grades = s.grades.map (withActive o.fields.grade (· - 1)))
    (on : o.onMachine = true) (off : (f o).onMachine = false) : t.BookAgrees := by
  refine h.restate found orders fields slot nodup others self grades fun g hg named => ?_
  have counted : 0 < s.orders.countP (·.activates g.fields.number) :=
    List.countP_pos_iff.mpr ⟨o, (findOrder_mem found).1, by simp [Order.activates, named, on]⟩
  have := ((countsAgree_iff.mp h.counts).2 g hg).2
  rw [on, off, Bool.toNat_true, Bool.toNat_false]
  omega

end Restate

end State.BookAgrees

/-! ### The run sequence (R32) -/

theorem rewriteAt_rewriteAt {n : Nat} {f g : Order → Order} (keep : ∀ o, (f o).fields.number = o.fields.number)
    (l : List Order) : rewriteAt n g (rewriteAt n f l) = rewriteAt n (g ∘ f) l := by
  simp only [rewriteAt, List.map_map]
  refine List.map_congr_left fun r _ => ?_
  by_cases e : r.fields.number = n <;> simp [e, keep]

theorem mem_insertAfter {a n : Nat} : ∀ {l : List Nat}, a ∈ l → ∀ k, k ∈ insertAfter a n l ↔ k = n ∨ k ∈ l
  | x :: xs, mem, k => by
    by_cases e : x = a
    · simp [insertAfter, e]; tauto
    · have later := mem_insertAfter (n := n) ((List.mem_cons.mp mem).resolve_left (Ne.symm e)) k
      simp [insertAfter, e, later]; tauto

theorem nodup_insertAfter {a n : Nat} : ∀ {l : List Nat}, a ∈ l → n ∉ l → l.Nodup → (insertAfter a n l).Nodup
  | x :: xs, mem, fresh, nodup => by
    obtain ⟨hx, hxs⟩ := List.nodup_cons.mp nodup
    obtain ⟨nx, nxs⟩ := not_or.mp (mt List.mem_cons.mpr fresh)
    by_cases e : x = a
    · subst e
      simp [insertAfter, nxs, hx, hxs, Ne.symm nx]
    · have here := (List.mem_cons.mp mem).resolve_left (Ne.symm e)
      have later := nodup_insertAfter here nxs hxs
      simp only [insertAfter, beq_iff_eq, e, if_false, List.nodup_cons, later, and_true, mem_insertAfter here]
      rintro (rfl | mem)
      · exact nx rfl
      · exact hx mem

theorem mem_unlinked {n k : Nat} {l : List Nat} (other : k ≠ n) : k ∈ l.filter (· != n) ↔ k ∈ l := by
  simp [List.mem_filter, other]

theorem not_mem_unlinked (n : Nat) (l : List Nat) : n ∉ l.filter (· != n) := by simp [List.mem_filter]

/-! ### The events of the order book -/

namespace State.BookAgrees

variable {s t : State} {n : Nat} {o : Order}

theorem unlinked (h : s.BookAgrees) (n : Nat) : (s.runSeq.filter (· != n)).Nodup := h.sequence.1.filter _

/-- R32, R36: a waiting order is taken out of the run sequence and put into a place of it, or left out. -/
theorem relink (h : s.BookAgrees) (found : s.findOrder n = some o) (waiting : o.onMachine = false) {f : Order → Order}
    (orders : t.orders = rewriteAt n f s.orders) (fields : (f o).fields = o.fields) (slot : (f o).slot = o.slot)
    (grades : t.grades = s.grades) (off : (f o).onMachine = false) (nodup : t.runSeq.Nodup)
    (others : ∀ k, k ≠ n → (k ∈ t.runSeq ↔ k ∈ s.runSeq.filter (· != n)))
    (self : n ∈ t.runSeq ↔ (f o).state = .queued) : t.BookAgrees :=
  h.restate_still found orders fields slot nodup (fun k e => (others k e).trans (mem_unlinked e)) self grades
    (off.trans waiting.symm)

theorem onMachine_iff {o : Order} : o.onMachine = true ↔ o.state = .running ∨ o.state = .suspended := by
  simp [Order.onMachine]

/-- R30, R49: an order that is not QUEUED is DONE. -/
theorem finishOrder (h : s.BookAgrees) (out : OrderOutcome) (notQueued : ∀ o, s.findOrder n = some o → o.state ≠ .queued) :
    (s.finishOrder n out).BookAgrees := by
  unfold State.finishOrder
  split
  · exact h
  · next o found =>
    have offLine : n ∉ s.runSeq := fun mem => notQueued o found ((h.mem_runSeq found).mp mem)
    dsimp only
    split
    · next on =>
      exact h.restate_ends found (f := fun r => { r with
        state := .done, outcome := some out, attention := true, stacked := false }) rfl rfl rfl h.sequence.1
        (fun _ _ => Iff.rfl) (iff_of_false offLine nofun) rfl (onMachine_iff.mpr on) rfl
    · next off =>
      exact h.restate_still found (f := fun r => { r with
        state := .done, outcome := some out, attention := true, stacked := false }) rfl rfl rfl h.sequence.1
        (fun _ _ => Iff.rfl) (iff_of_false offLine nofun) rfl
        (Eq.symm (Bool.eq_false_iff.mpr (mt onMachine_iff.mp off)))

/-- R64, R49: an order of the table is launched. -/
theorem bookLaunch (h : s.BookAgrees) (found : s.findOrder o.fields.number = some o) : (s.bookLaunch o).BookAgrees := by
  unfold State.bookLaunch
  dsimp only
  split
  · next on =>
    have offLine : o.fields.number ∉ s.runSeq := fun mem => by
      rcases on with e | e <;> exact absurd ((h.mem_runSeq found).mp mem) (by rw [e]; nofun)
    exact h.restate_still found (f := fun r => { r with
      state := .running, segments := min 3 (r.segments + 1), rush := false }) rfl rfl rfl h.sequence.1
      (fun _ _ => Iff.rfl) (iff_of_false offLine nofun) rfl (onMachine_iff.mpr on).symm
  · next off =>
    exact h.restate_starts found (f := fun r => { r with
      state := .running, segments := min 3 (r.segments + 1), rush := false }) rfl rfl rfl (h.unlinked _)
      (fun _ e => mem_unlinked e) (iff_of_false (not_mem_unlinked _ _) nofun) rfl
      (Bool.eq_false_iff.mpr (mt onMachine_iff.mp off)) rfl

/-- R46, R57: LINE RESET ends the orders on the machine and clears the active counts. -/
theorem resetBook (h : s.BookAgrees) : s.resetBook.BookAgrees := by
  have keeps (o : Order) : o.afterLineReset.fields = o.fields ∧ o.afterLineReset.slot = o.slot
      ∧ (o.afterLineReset.state = .queued ↔ o.state = .queued) ∧ o.afterLineReset.onMachine = false := by
    unfold Order.afterLineReset
    split
    · next on =>
      refine ⟨rfl, rfl, iff_of_false nofun fun e => ?_, rfl⟩
      rcases onMachine_iff.mp on with r | r <;> rw [r] at e <;> cases e
    · next off => exact ⟨rfl, rfl, Iff.rfl, Bool.eq_false_iff.mpr off⟩
  obtain ⟨keys1, keys2, keys3, keys4⟩ := h.keys
  obtain ⟨known, counts⟩ := countsAgree_iff.mp h.counts
  refine ⟨⟨?_, ?_, ?_, ?_⟩, ⟨h.sequence.1, fun k => (h.sequence.2 k).trans ?_⟩,
    countsAgree_iff.mpr ⟨fun x hx => ?_, fun x hx => ?_⟩⟩
  · simpa [State.resetBook, Function.comp_def, keeps] using keys1
  · simpa [State.resetBook, Function.comp_def, keeps] using keys2
  · simpa [State.resetBook, Function.comp_def] using keys3
  · simpa [State.resetBook, Function.comp_def] using keys4
  · simp [State.resetBook, keeps]
  · obtain ⟨o, ho, rfl⟩ := List.mem_map.mp hx
    obtain ⟨g, hg, e⟩ := known o ho
    exact ⟨_, List.mem_map_of_mem hg, e.trans (by rw [(keeps o).1])⟩
  · obtain ⟨g, hg, rfl⟩ := List.mem_map.mp hx
    refine ⟨(counts g hg).1.trans ?_, ?_⟩
    · simp [State.resetBook, List.countP_map, Function.comp_def, Order.refersTo, keeps]
    · refine (List.countP_eq_zero.mpr fun x hx => ?_).symm
      obtain ⟨o, -, rfl⟩ := List.mem_map.mp hx
      simp [Order.activates, keeps]

end State.BookAgrees

/-! ### Records entered and retired (R34, R41, R50 to R52) -/

/-- R34, R50: the slot of a new record is the lowest that no record holds. -/
theorem lowestFree_spec {used : List Nat} {n : Nat} (room : used.length < n) :
    lowestFree used n < n ∧ lowestFree used n ∉ used ∧ ∀ k < lowestFree used n, k ∈ used := by
  obtain ⟨free, hf⟩ : ∃ k, k ∈ List.range n ∧ k ∉ used := by
    by_contra none
    push Not at none
    have := (List.nodup_range (n := n)).subperm fun k hk => none k hk
    have := this.length_le
    simp at this
    omega
  unfold lowestFree
  cases e : (List.range n).find? fun k => !used.contains k with
  | none =>
    have := List.find?_eq_none.mp e free hf.1
    simp [hf.2] at this
  | some k =>
    obtain ⟨test, before_, after, split, least⟩ := List.find?_eq_some_iff_append.mp e
    have mem : k ∈ List.range n := List.mem_of_find?_eq_some e
    refine ⟨List.mem_range.mp mem, by simpa using test, fun j lt => ?_⟩
    have here : j ∈ before_ := by
      have j_mem : j ∈ before_ ++ k :: after := split ▸ List.mem_range.mpr (lt.trans (List.mem_range.mp mem))
      rcases List.mem_append.mp j_mem with b | a
      · exact b
      · have sorted : (before_ ++ k :: after).Pairwise (· < ·) := split ▸ List.pairwise_lt_range
        have := (List.pairwise_append.mp sorted).2.1
        rcases List.mem_cons.mp a with rfl | a
        · exact absurd lt (lt_irrefl _)
        · exact absurd lt (not_lt.mpr (le_of_lt ((List.pairwise_cons.mp this).1 j a)))
    simpa using least j here

namespace State.BookAgrees

variable {s t : State} {n : Nat} {o : Order}

/-- R34: a new record ENTERED, with a number and a slot that no record holds. -/
theorem enterOrder (h : s.BookAgrees) {d : OrderDef} {slot : Nat} (grade : (s.findGrade d.grade).isSome)
    (fresh : s.findOrder d.number = none) (free : slot ∉ s.orders.map (·.slot)) :
    (State.gradeRefUp { s with orders := s.orders ++ [Order.entered slot d] } d.grade).BookAgrees := by
  obtain ⟨keys1, keys2, keys3, keys4⟩ := h.keys
  obtain ⟨known, counts⟩ := countsAgree_iff.mp h.counts
  obtain ⟨g0, hg0⟩ := Option.isSome_iff_exists.mp grade
  have absent : d.number ∉ s.orders.map (·.fields.number) := by simpa [State.findOrder] using fresh
  have raised (g : Grade) := withRefs_keeps d.grade (· + 1) g
  refine ⟨⟨?_, ?_, ?_, ?_⟩, ⟨h.sequence.1, fun k => (h.sequence.2 k).trans ?_⟩,
    countsAgree_iff.mpr ⟨fun x hx => ?_, fun x hx => ?_⟩⟩
  · simpa [State.gradeRefUp, Order.entered, List.nodup_append] using ⟨keys1, by simpa using absent⟩
  · simpa [State.gradeRefUp, Order.entered, List.nodup_append] using ⟨keys2, by simpa using free⟩
  · simpa only [gradeRefUp_grades, List.map_map, Function.comp_def, raised] using keys3
  · simpa only [gradeRefUp_grades, List.map_map, Function.comp_def, raised] using keys4
  · simp [State.gradeRefUp, Order.entered]
  · have present : ∃ g ∈ s.grades, g.fields.number = x.fields.grade := by
      rcases List.mem_append.mp hx with hx | hx
      · exact known x hx
      · obtain rfl := List.mem_singleton.mp hx
        exact ⟨g0, findGrade_mem hg0⟩
    obtain ⟨g, hg, e⟩ := present
    exact ⟨_, List.mem_map_of_mem hg, (congrArg (·.number) (raised g).1).trans e⟩
  · rw [gradeRefUp_grades] at hx
    obtain ⟨g, hg, rfl⟩ := List.mem_map.mp hx
    obtain ⟨refs, active⟩ := counts g hg
    obtain ⟨sameFields, -, sameActive⟩ := raised g
    have off : (Order.entered slot d).activates g.fields.number = false := by
      simp [Order.entered, Order.activates, Order.onMachine]
    rw [sameFields, sameActive, withRefs_refs]
    simp only [State.gradeRefUp, State.updateGrade_orders, List.countP_append, List.countP_singleton, off, refs, active,
      Bool.false_eq_true, if_false, Nat.add_zero, and_true]
    by_cases e : g.fields.number = d.grade
    · simp [Order.entered, Order.refersTo, e]
    · simp [Order.entered, Order.refersTo, e, Ne.symm e]

/-- R41: the record of a DONE order leaves the table. -/
theorem retireOrder (h : s.BookAgrees) (found : s.findOrder n = some o) (isDone : o.state = .done) :
    (State.gradeRefDown { s with orders := s.orders.filter fun r => r.fields.number != n } o.fields.grade).BookAgrees := by
  obtain ⟨mem, rfl⟩ := findOrder_mem found
  obtain ⟨keys1, keys2, keys3, keys4⟩ := h.keys
  obtain ⟨known, counts⟩ := countsAgree_iff.mp h.counts
  have lowered (g : Grade) := withRefs_keeps o.fields.grade (· - 1) g
  refine ⟨⟨?_, ?_, ?_, ?_⟩, ⟨h.sequence.1, fun k => (h.sequence.2 k).trans ?_⟩,
    countsAgree_iff.mpr ⟨fun x hx => ?_, fun x hx => ?_⟩⟩
  · exact keys1.sublist (List.filter_sublist.map _)
  · exact keys2.sublist (List.filter_sublist.map _)
  · simpa only [gradeRefDown_grades, List.map_map, Function.comp_def, lowered] using keys3
  · simpa only [gradeRefDown_grades, List.map_map, Function.comp_def, lowered] using keys4
  · constructor
    · rintro ⟨r, hr, rfl, q⟩
      refine ⟨r, List.mem_filter.mpr ⟨hr, ?_⟩, rfl, q⟩
      simp only [bne_iff_ne, ne_eq]
      intro same
      rw [eq_of_number keys1 mem hr same, isDone] at q
      cases q
    · rintro ⟨r, hr, e, q⟩
      exact ⟨r, (List.mem_filter.mp hr).1, e, q⟩
  · obtain ⟨g, hg, e⟩ := known x (List.mem_filter.mp hx).1
    exact ⟨_, List.mem_map_of_mem hg, (congrArg (·.number) (lowered g).1).trans e⟩
  · rw [gradeRefDown_grades] at hx
    obtain ⟨g, hg, rfl⟩ := List.mem_map.mp hx
    obtain ⟨refs, active⟩ := counts g hg
    obtain ⟨sameFields, -, sameActive⟩ := lowered g
    have r := countP_filter_number keys1 mem (·.refersTo g.fields.number)
    have a := countP_filter_number keys1 mem (·.activates g.fields.number)
    have off : o.activates g.fields.number = false := by simp [Order.activates, Order.onMachine, isDone]
    rw [off, Bool.toNat_false] at a
    rw [sameFields, sameActive, withRefs_refs]
    refine ⟨?_, active.trans a.symm⟩
    show _ = (s.orders.filter fun r => r.fields.number != o.fields.number).countP _
    split
    · next e => simp only [Order.refersTo, e, BEq.rfl, Bool.toNat_true] at r refs ⊢; omega
    · next e => simp only [Order.refersTo, beq_false_of_ne (Ne.symm e), Bool.toNat_false] at r refs ⊢; omega

/-- R37: the record of a waiting order takes new fields of the same number, and its reference moves with its grade. -/
theorem amendWaiting (h : s.BookAgrees) {d : OrderDef} (found : s.findOrder d.number = some o)
    (waiting : o.onMachine = false) (grade : (s.findGrade d.grade).isSome) :
    (let t := s.updateOrder d.number fun r => { r with fields := d }
      if d.grade = o.fields.grade then t else (t.gradeRefDown o.fields.grade).gradeRefUp d.grade).BookAgrees := by
  have mem := (findOrder_mem found).1
  have number := (findOrder_mem found).2
  obtain ⟨g0, hg0⟩ := Option.isSome_iff_exists.mp grade
  have named : ∃ g ∈ s.grades, g.fields.number = d.grade := ⟨g0, findGrade_mem hg0⟩
  have self := h.mem_runSeq found
  have off : ∀ g : Grade, (o.activates g.fields.number) = false ∧
      ({ o with fields := d } : Order).activates g.fields.number = false := fun g => by
    have w : ({ o with fields := d } : Order).onMachine = false := waiting
    simp [Order.activates, waiting, w]
  dsimp only
  split
  · next same =>
    refine h.rewrite found (f := fun r => { r with fields := d }) (G := id) rfl (List.map_id _).symm number.symm rfl
      named (fun _ _ => ⟨rfl, rfl⟩) h.sequence.1 (fun _ _ => Iff.rfl) self (fun g _ => ?_) fun g _ => ?_
    · simp [Order.refersTo, same]
    · rw [(off g).1, (off g).2]; rfl
  · next other =>
    have moved (g : Grade) (hg : g ∈ s.grades) :
        (withRefs d.grade (· + 1) (withRefs o.fields.grade (· - 1) g)).refs + (o.refersTo g.fields.number).toNat
          = g.refs + (({ o with fields := d } : Order).refersTo g.fields.number).toNat := by
      have counted : g.fields.number = o.fields.grade → 0 < g.refs := fun e => by
        rw [((countsAgree_iff.mp h.counts).2 g hg).1]
        exact List.countP_pos_iff.mpr ⟨o, mem, by simp [Order.refersTo, e]⟩
      simp only [withRefs_refs, (withRefs_keeps o.fields.grade (· - 1) g).1, Order.refersTo]
      by_cases old : g.fields.number = o.fields.grade
      · have := counted old
        simp only [old, Ne.symm other, if_false, if_true, BEq.rfl, beq_false_of_ne other, Bool.toNat_true,
          Bool.toNat_false]
        omega
      · by_cases new : g.fields.number = d.grade
        · simp [new, other, beq_false_of_ne (Ne.symm other)]
        · simp [old, new, beq_false_of_ne (Ne.symm old), beq_false_of_ne (Ne.symm new)]
    have keeps (g : Grade) : (withRefs d.grade (· + 1) (withRefs o.fields.grade (· - 1) g)).fields = g.fields
        ∧ (withRefs d.grade (· + 1) (withRefs o.fields.grade (· - 1) g)).slot = g.slot
        ∧ (withRefs d.grade (· + 1) (withRefs o.fields.grade (· - 1) g)).active = g.active := by
      simp only [withRefs_keeps, and_self]
    refine h.rewrite found (f := fun r => { r with fields := d }) rfl List.map_map number.symm rfl
      named (fun g _ => ⟨congrArg _ (keeps g).1, (keeps g).2.1⟩) h.sequence.1 (fun _ _ => Iff.rfl) self moved
      fun g _ => ?_
    rw [(off g).1, (off g).2]
    exact congrArg (· + _) (keeps g).2.2

/-- R50: a new grade, with a number and a slot that no grade holds, which no order names yet. -/
theorem enterGrade (h : s.BookAgrees) {d : GradeDef} {slot : Nat} (fresh : s.findGrade d.number = none)
    (free : slot ∉ s.grades.map (·.slot)) :
    State.BookAgrees { s with grades := s.grades ++ [⟨slot, d, 0, 0⟩] } := by
  obtain ⟨keys1, keys2, keys3, keys4⟩ := h.keys
  obtain ⟨known, counts⟩ := countsAgree_iff.mp h.counts
  have absent : d.number ∉ s.grades.map (·.fields.number) := by simpa [State.findGrade] using fresh
  have unnamed : ∀ o ∈ s.orders, o.fields.grade ≠ d.number := fun o ho e => by
    obtain ⟨g, hg, eq⟩ := known o ho
    exact absent (List.mem_map.mpr ⟨g, hg, eq.trans e⟩)
  refine ⟨⟨keys1, keys2, ?_, ?_⟩, h.sequence, countsAgree_iff.mpr ⟨fun x hx => ?_, fun x hx => ?_⟩⟩
  · simpa [List.nodup_append] using ⟨keys3, by simpa using absent⟩
  · simpa [List.nodup_append] using ⟨keys4, by simpa using free⟩
  · obtain ⟨g, hg, e⟩ := known x hx
    exact ⟨g, List.mem_append_left _ hg, e⟩
  · rcases List.mem_append.mp hx with hx | hx
    · exact counts x hx
    · obtain rfl := List.mem_singleton.mp hx
      refine ⟨(List.countP_eq_zero.mpr fun o ho => ?_).symm, (List.countP_eq_zero.mpr fun o ho => ?_).symm⟩
      · simp [Order.refersTo, unnamed o ho]
      · simp [Order.activates, unnamed o ho]

/-- R51: a grade takes new values under its number. -/
theorem amendGrade (h : s.BookAgrees) (d : GradeDef) :
    (s.updateGrade d.number fun x => { x with fields := d }).BookAgrees := by
  obtain ⟨keys1, keys2, keys3, keys4⟩ := h.keys
  obtain ⟨known, counts⟩ := countsAgree_iff.mp h.counts
  have keeps (g : Grade) :
      (if g.fields.number == d.number then { g with fields := d } else g : Grade).fields.number = g.fields.number
      ∧ (if g.fields.number == d.number then { g with fields := d } else g : Grade).slot = g.slot
      ∧ (if g.fields.number == d.number then { g with fields := d } else g : Grade).refs = g.refs
      ∧ (if g.fields.number == d.number then { g with fields := d } else g : Grade).active = g.active := by
    split
    · next e => exact ⟨(beq_iff_eq.mp e).symm, rfl, rfl, rfl⟩
    · exact ⟨rfl, rfl, rfl, rfl⟩
  refine ⟨⟨keys1, keys2, ?_, ?_⟩, h.sequence, countsAgree_iff.mpr ⟨fun x hx => ?_, fun x hx => ?_⟩⟩
  · simpa only [State.updateGrade_grades, List.map_map, Function.comp_def, keeps] using keys3
  · simpa only [State.updateGrade_grades, List.map_map, Function.comp_def, keeps] using keys4
  · obtain ⟨g, hg, e⟩ := known x hx
    exact ⟨_, List.mem_map_of_mem hg, by rw [(keeps g).1, e]⟩
  · obtain ⟨g, hg, rfl⟩ := List.mem_map.mp hx
    obtain ⟨a, -, b, c⟩ := keeps g
    rw [a, b, c]
    exact counts g hg

/-- R52: a grade that no order names leaves the table. -/
theorem retireGrade (h : s.BookAgrees) {g : Grade} (found : s.findGrade n = some g) (unused : g.refs = 0) :
    State.BookAgrees { s with grades := s.grades.filter fun x => x.fields.number != n } := by
  obtain ⟨mem, rfl⟩ := findGrade_mem found
  obtain ⟨keys1, keys2, keys3, keys4⟩ := h.keys
  obtain ⟨known, counts⟩ := countsAgree_iff.mp h.counts
  refine ⟨⟨keys1, keys2, keys3.sublist (List.filter_sublist.map _), keys4.sublist (List.filter_sublist.map _)⟩,
    h.sequence, countsAgree_iff.mpr ⟨fun x hx => ?_, fun x hx => counts x (List.mem_filter.mp hx).1⟩⟩
  obtain ⟨k, hk, e⟩ := known x hx
  refine ⟨k, List.mem_filter.mpr ⟨hk, ?_⟩, e⟩
  have free := List.countP_eq_zero.mp ((counts g mem).1.symm.trans unused) x hx
  simp only [Order.refersTo, beq_iff_eq] at free
  simpa [e] using free

end State.BookAgrees

end Sys2Proof.Machine
end

section
/-! PROOF. Consistency of the tables (O60): the primitive updates and the shared operations keep it. Most touch nothing that
consistency reads; the others are marks placed and moved, orders in another state, reels in another role, and gaps. -/

namespace Sys2Proof.Machine

open Sys2Proof

theorem slot_of_reels {s t : State} (h : t.reels = s.reels) (k : Stand) (p : Pos) : t.slot k p = s.slot k p := by
  rw [State.slot, h]; rfl

theorem insertMark_perm (odo : Coord) (m : Mark) (l : List Mark) : (insertMark odo m l).Perm (m :: l) := by
  induction l with
  | nil => exact List.Perm.refl _
  | cons x xs ih =>
    simp only [insertMark]
    split
    · exact List.Perm.refl _
    · exact (ih.cons x).trans (List.Perm.swap m x xs)

/-- R83: a slot outside the running role. -/
theorem OneRole_iff {s : State} : s.OneRole ↔
    ∀ k p, (s.slot k p).reel.inRole = true → (s.slot k p.other).reel.inRole = false := by
  refine forall_congr' fun k => ⟨fun h p role => ?_, fun h both => ?_⟩
  · cases p
    · exact Bool.eq_false_iff.mpr fun other => h ⟨role, other⟩
    · exact Bool.eq_false_iff.mpr fun other => h ⟨other, role⟩
  · have := h .a both.1
    simp only [Pos.other] at this
    rw [both.2] at this
    cases this

/-- R161: what a glue channel has to keep for its gap to lie in 0..1,500. -/
def GlueChannel.Bounded (c : GlueChannel) : Prop := c.gap ≤ 1500 ∧ ∀ a, c.active = some a → a.values.base ≤ 1500

/-- R48: the base gaps of a grade lie in 0..1,500. -/
def Grade.Bounded (g : Grade) : Prop := ∀ u, (g.fields.glue.get u).base ≤ 1500

theorem gapsBounded_iff {s : State} : s.GapsBounded ↔ (∀ u, (s.glue.get u).Bounded) ∧ ∀ g ∈ s.grades, g.Bounded :=
  ⟨fun h => ⟨fun u => ⟨(h u).1, (h u).2.1⟩, fun g hg u => (h u).2.2 g hg⟩,
    fun h u => ⟨(h.1 u).1, (h.1 u).2, fun g hg => h.2 g hg u⟩⟩

/-- A consistent state, as a record of what its parts need: the marks, the order book, the roles, the gaps. -/
structure State.Coherent (s : State) : Prop where
  keyed : s.MarksKeyed
  book : s.BookAgrees
  oneRole : s.OneRole
  gaps : s.GapsBounded

theorem State.coherent_iff {s : State} : s.Coherent ↔ s.Consistent :=
  ⟨fun h => ⟨h.keyed, h.book.keys, h.book.sequence, h.book.counts, h.oneRole, h.gaps⟩,
    fun ⟨keyed, keys, sequence, counts, role, gaps⟩ => ⟨keyed, ⟨keys, sequence, counts⟩, role, gaps⟩⟩

namespace State.Coherent

variable {s t : State}

theorem bases (h : t.Coherent) : ∀ g ∈ t.grades, g.Bounded := (gapsBounded_iff.mp h.gaps).2

/-- The marks have new serial numbers at most, all of them given out. -/
theorem remark (h : s.Coherent) (book : t.orders = s.orders ∧ t.runSeq = s.runSeq ∧ t.grades = s.grades)
    (reels : t.reels = s.reels) (glue : t.glue = s.glue) (nodup : (t.marks.map Mark.uid).Nodup)
    (given : ∀ m ∈ t.marks, m.uid < t.serial) : t.Coherent := by
  obtain ⟨orders, runSeq, grades⟩ := book
  obtain ⟨-, ⟨keys, sequence, counts⟩, role, gaps⟩ := h
  refine ⟨⟨nodup, given⟩, ⟨?_, ?_, ?_⟩, ?_, ?_⟩
  · simpa only [State.KeysDistinct, orders, grades] using keys
  · simpa only [State.SequenceIsQueued, orders, runSeq] using sequence
  · simpa only [State.CountsAgree, orders, grades] using counts
  · simpa only [State.OneRole, slot_of_reels reels] using role
  · simpa only [State.GapsBounded, glue, grades] using gaps

/-- Nothing that consistency reads has changed, but that serial numbers have been given out. -/
theorem aside (h : s.Coherent) (marks : t.marks = s.marks) (serial : s.serial ≤ t.serial)
    (book : t.orders = s.orders ∧ t.runSeq = s.runSeq ∧ t.grades = s.grades) (reels : t.reels = s.reels)
    (glue : t.glue = s.glue) : t.Coherent :=
  h.remark book reels glue (marks ▸ h.keyed.1) fun m mem => (h.keyed.2 m (marks ▸ mem)).trans_le serial

theorem ofSplice (h : s.Coherent) (frame : SpliceFrame s t) (serial : s.serial ≤ t.serial) : t.Coherent :=
  h.aside frame.marks serial ⟨frame.orders, frame.runSeq, frame.grades⟩ frame.reels frame.glue

/-- The order book has changed, and agrees with itself still. -/
theorem rebook (h : s.Coherent) (book : t.BookAgrees) (marks : t.marks = s.marks) (serial : t.serial = s.serial)
    (reels : t.reels = s.reels) (glue : t.glue = s.glue) (bases : ∀ g ∈ t.grades, g.Bounded) : t.Coherent := by
  refine ⟨?_, book, ?_, gapsBounded_iff.mpr ⟨?_, bases⟩⟩
  · rw [State.MarksKeyed, marks, serial]; exact h.keyed
  · simpa only [State.OneRole, slot_of_reels reels] using h.oneRole
  · rw [glue]; exact (gapsBounded_iff.mp h.gaps).1

/-! ### Updates that consistency does not read -/

theorem quiet (h : s.Coherent) (marks : t.marks = s.marks) (serial : t.serial = s.serial)
    (book : t.orders = s.orders ∧ t.runSeq = s.runSeq ∧ t.grades = s.grades) (reels : t.reels = s.reels)
    (glue : t.glue = s.glue) : t.Coherent := h.aside marks serial.ge book reels glue

theorem setSeqs (h : t.Coherent) {q : PerStand Sequencer} : State.Coherent { t with seqs := q } :=
  h.quiet rfl rfl ⟨rfl, rfl, rfl⟩ rfl rfl
theorem setSeq (h : t.Coherent) {k : Stand} {q : Sequencer} : (t.setSeq k q).Coherent :=
  h.quiet rfl rfl ⟨rfl, rfl, rfl⟩ rfl rfl
theorem setPlan (h : t.Coherent) {k : Stand} {p : Option Plan} : (t.setPlan k p).Coherent :=
  h.quiet rfl rfl ⟨rfl, rfl, rfl⟩ rfl rfl
theorem setCapFlag (h : t.Coherent) {b : Bool} : State.Coherent { t with capFlag := b } :=
  h.quiet rfl rfl ⟨rfl, rfl, rfl⟩ rfl rfl
theorem setPlanner (h : t.Coherent) {p : Option Provisional} : State.Coherent { t with planner := p } :=
  h.quiet rfl rfl ⟨rfl, rfl, rfl⟩ rfl rfl
theorem setDecisions (h : t.Coherent) {l : List Decision} : State.Coherent { t with decisions := l } :=
  h.quiet rfl rfl ⟨rfl, rfl, rfl⟩ rfl rfl
theorem setSuspended (h : t.Coherent) {l : List Nat} : State.Coherent { t with suspended := l } :=
  h.quiet rfl rfl ⟨rfl, rfl, rfl⟩ rfl rfl
theorem setStation (h : t.Coherent) {st : Station} {x : SlitterStation} : (t.setStation st x).Coherent :=
  h.quiet rfl rfl ⟨rfl, rfl, rfl⟩ rfl rfl
theorem setPreheater (h : t.Coherent) {k : Stand} {x : Preheater} : (t.setPreheater k x).Coherent :=
  h.quiet rfl rfl ⟨rfl, rfl, rfl⟩ rfl rfl
theorem setKnife (h : t.Coherent) {f : Knife → Knife} : (t.setKnife f).Coherent :=
  h.quiet rfl rfl ⟨rfl, rfl, rfl⟩ rfl rfl
theorem setPostponed (h : t.Coherent) {p : Option Postponed} : (t.setPostponed p).Coherent :=
  h.quiet rfl rfl ⟨rfl, rfl, rfl⟩ rfl rfl
theorem setQueue (h : t.Coherent) {c : LinkClass} {q : List Command} : (t.setQueue c q).Coherent :=
  h.quiet rfl rfl ⟨rfl, rfl, rfl⟩ rfl rfl
theorem withdrawGo (h : t.Coherent) {k : Stand} : (t.withdrawGo k).Coherent :=
  h.quiet rfl rfl ⟨rfl, rfl, rfl⟩ rfl rfl
theorem withdrawSet (h : t.Coherent) {st : Station} : (t.withdrawSet st).Coherent :=
  h.quiet rfl rfl ⟨rfl, rfl, rfl⟩ rfl rfl
theorem freePlace (h : t.Coherent) : t.freePlace.Coherent := h.quiet rfl rfl ⟨rfl, rfl, rfl⟩ rfl rfl
theorem raise (h : t.Coherent) {k : ErrorKind} {o : ErrorObject} : (t.raise k o).Coherent :=
  h.quiet rfl rfl ⟨rfl, rfl, rfl⟩ rfl rfl
theorem setErrors (h : t.Coherent) {e : Errors} : State.Coherent { t with errors := e } :=
  h.quiet rfl rfl ⟨rfl, rfl, rfl⟩ rfl rfl
theorem drawn (h : t.Coherent) : t.drawn.Coherent := h.quiet rfl rfl ⟨rfl, rfl, rfl⟩ rfl rfl
theorem respond (h : t.Coherent) {k : Byte} {st : Status} {b : List Byte} : (t.respond k st b).Coherent :=
  h.quiet rfl rfl ⟨rfl, rfl, rfl⟩ rfl rfl

theorem bumpSerial (h : t.Coherent) : t.bumpSerial.Coherent :=
  h.aside rfl (Nat.le_succ _) ⟨rfl, rfl, rfl⟩ rfl rfl

theorem enqueue (h : t.Coherent) {c : Command} : (t.enqueue c).Coherent :=
  h.ofSplice (SpliceFrame.refl t).enqueue (by rw [enqueue_frame])

theorem takeEvents {ε : Type} {act : ε → State → State} (h : t.Coherent) {es : List ε}
    (a : ∀ e u, u.Coherent → (act e u).Coherent) : (takeEvents act es t).Coherent :=
  takeEvents_induct (fun _ u => u.Coherent) (fun _ _ h => h.drawn) (fun _ _ _ _ h => a _ _ h) h

/-! ### The splice controller -/

theorem atStand (h : s.Coherent) {k : Stand} (g : SpliceAt k s t) : t.Coherent := h.ofSplice g.frame g.serial
theorem ofWaiters (h : s.Coherent) (g : WaitersOnly s t) : t.Coherent := h.ofSplice g.frame g.serial

theorem recheck (h : t.Coherent) {k : Stand} : (t.recheck k).Coherent := h.ofWaiters (WaitersOnly.recheck k t)
theorem recheckAll (h : t.Coherent) : t.recheckAll.Coherent := h.ofWaiters (WaitersOnly.recheckAll t)
theorem goTest (h : t.Coherent) {k : Stand} : (t.goTest k).Coherent := h.ofWaiters (WaitersOnly.goTest k t)
theorem goTestAll (h : t.Coherent) : t.goTestAll.Coherent := h.ofWaiters (WaitersOnly.goTestAll t)
theorem checkReel (h : t.Coherent) {k : Stand} : (t.checkReel k).Coherent := h.atStand (SpliceAt.refl k t).checkReel
theorem armNow (h : t.Coherent) {k : Stand} {x : SpliceKind} : (t.armNow k x).Coherent :=
  h.atStand (SpliceAt.refl k t).armNow
theorem lowReel (h : t.Coherent) {k : Stand} : (t.lowReel k).Coherent := h.atStand (SpliceAt.refl k t).lowReel
theorem lowReelIfLow (h : t.Coherent) {k : Stand} : (t.lowReelIfLow k).Coherent :=
  h.atStand (SpliceAt.refl k t).lowReelIfLow
theorem armGrade (h : t.Coherent) {k : Stand} {p : Plan} : (t.armGrade k p).Coherent := h.atStand (armGrade_at t k p)
theorem capRequest (h : t.Coherent) : t.capRequest.Coherent := h.atStand (SpliceAt.refl .l1 t).capRequest
theorem released (h : t.Coherent) {q : SeqState} : (t.released q).Coherent :=
  h.atStand (State.released_at (SpliceAt.refl .l1 t) q)

theorem dueCheck (h : t.Coherent) {k : Stand} : (t.dueCheck k).Coherent := by
  unfold State.dueCheck
  repeat' split
  all_goals first | exact h.checkReel | exact h

theorem settleIdle (h : t.Coherent) {k : Stand} : (t.settleIdle k).Coherent := h.setSeq.released.lowReelIfLow

theorem nextState (h : t.Coherent) {k : Stand} : (t.nextState k).Coherent := by
  unfold State.nextState
  dsimp only
  split
  · exact h.settleIdle
  · split
    · exact h.setSeq.released.lowReel
    · exact h.setSeq.released.dueCheck

theorem lowIfNew (h : t.Coherent) {k : Stand} {b : Bool} : (t.lowIfNew k b).Coherent := by
  unfold State.lowIfNew; split
  · exact h
  · exact h.lowReelIfLow

/-! ### Marks placed, moved and dropped -/

/-- The marks change but for their serial numbers. -/
theorem sameMarks (h : t.Coherent) {l : List Mark} (uids : (l.map Mark.uid).Perm (t.marks.map Mark.uid)) :
    State.Coherent { t with marks := l } := by
  refine h.remark ⟨rfl, rfl, rfl⟩ rfl rfl (uids.nodup_iff.mpr h.keyed.1) fun m mem => ?_
  obtain ⟨x, hx, e⟩ := List.mem_map.mp (uids.mem_iff.mp (List.mem_map_of_mem mem))
  exact e ▸ h.keyed.2 x hx

theorem fewerMarks (h : t.Coherent) {l : List Mark} (sub : l.Sublist t.marks) : State.Coherent { t with marks := l } :=
  h.remark ⟨rfl, rfl, rfl⟩ rfl rfl (h.keyed.1.sublist (sub.map _)) fun m mem => h.keyed.2 m (sub.subset mem)

theorem dropMark (h : t.Coherent) {n : Nat} : (t.dropMark n).Coherent := h.fewerMarks List.filter_sublist

theorem updateChange (h : t.Coherent) {n : Nat} {f : ChangeMark → ChangeMark} (uid : ∀ c, (f c).uid = c.uid) :
    (t.updateChange n f).Coherent := by
  refine h.sameMarks (List.Perm.of_eq ?_)
  rw [List.map_map]
  refine List.map_congr_left fun m _ => ?_
  cases m with
  | change c => simp only [Function.comp]; split <;> simp [Mark.uid, uid]
  | _ => rfl

theorem jointCrossDone (h : t.Coherent) {n : Nat} {c : Cross} : (t.jointCrossDone n c).Coherent := by
  refine h.sameMarks (List.Perm.of_eq ?_)
  rw [List.map_map]
  refine List.map_congr_left fun m _ => ?_
  cases m with
  | joint j => simp only [Function.comp]; split <;> rfl
  | _ => rfl

/-- R13: a CHANGE mark of the table takes a new place. -/
theorem replaceChange (h : t.Coherent) {c : ChangeMark} {n : Nat} (i : c.uid = n) (m : t.hasMark n) :
    (t.replaceChange c).Coherent := by
  subst i
  refine h.sameMarks ?_
  obtain ⟨x, hx, is⟩ := m
  obtain ⟨y, front, back, -, same, split, erased⟩ := List.exists_of_eraseP hx is
  have uid : y.uid = c.uid := by
    cases y with
    | change d => exact beq_iff_eq.mp same
    | _ => cases same
  refine ((insertMark_perm _ _ _).map _).trans ?_
  rw [erased, split]
  rw [List.map_cons, List.map_append, List.map_append, List.map_cons, uid]
  exact List.perm_middle.symm

/-- R12: a mark with the next serial number is placed. -/
theorem placeNew (h : t.Coherent) {m : Mark} (new : m.uid = t.serial) : (t.bumpSerial.placeMark m).Coherent := by
  have perm := insertMark_perm t.odometer m t.marks
  refine h.remark ⟨rfl, rfl, rfl⟩ rfl rfl ((perm.map Mark.uid).nodup_iff.mpr ?_) fun x mem => ?_
  · refine List.nodup_cons.mpr ⟨fun mem => ?_, h.keyed.1⟩
    obtain ⟨x, hx, e⟩ := List.mem_map.mp mem
    have := h.keyed.2 x hx
    omega
  · rcases List.mem_cons.mp (perm.mem_iff.mp mem) with rfl | mem
    · rw [new]; exact Nat.lt_succ_self _
    · exact (h.keyed.2 x mem).trans (Nat.lt_succ_self _)

/-! ### The span planner -/

theorem moveEnd (h : t.Coherent) {m : ChangeMark} {p : Coord} (a : t.hasMark m.uid) : (t.moveEnd m p).Coherent := by
  unfold State.moveEnd
  refine recheckAll ?_
  split
  · exact h
  · exact h.replaceChange (by rfl) a

theorem recomputeEnd (h : t.Coherent) : t.recomputeEnd.Coherent := by
  unfold State.recomputeEnd
  split
  · next e =>
    split
    · exact h.moveEnd (provisional_hasMark e)
    · exact h
  · exact h

theorem cullGranted (h : t.Coherent) {a b : Coord} : (t.cullGranted a b).Coherent := by
  unfold State.cullGranted
  repeat' split
  all_goals first | exact h.recomputeEnd | exact h

theorem placeNewCull (h : t.Coherent) {m : Mark} (new : m.uid = t.serial) :
    (t.bumpSerial.placeCullMark m).Coherent := by
  unfold State.placeCullMark; split
  · exact (h.placeNew new).cullGranted
  · exact h.bumpSerial

theorem countRebase (h : t.Coherent) {a b : Coord} : (t.countRebase a b).Coherent := by
  rw [countRebase_frame]; exact h.setPlanner

theorem curtailAndPin (h : t.Coherent) : t.curtailAndPin.Coherent := by
  unfold State.curtailAndPin
  split
  · next e =>
    split
    · dsimp only
      refine recheckAll ?_
      split
      · exact h.replaceChange (by rfl) (provisional_hasMark e)
      · exact h.updateChange fun _ => rfl
    · exact h
  · exact h

theorem amendEnd (h : t.Coherent) {n : Nat} : (t.amendEnd n).Coherent := by
  unfold State.amendEnd
  split
  · next e _ =>
    split
    · split
      · exact h.setPlanner.moveEnd (provisional_hasMark (s := t) e)
      · exact h
    · exact h
  · exact h

theorem placeGap (h : t.Coherent) {k : Stand} {a b : Coord} : (t.placeGap k a b).Coherent := by
  unfold State.placeGap
  split
  · exact h
  · dsimp only
    split
    · exact (h.placeNewCull rfl).raise
    · exact h.raise.raise

theorem satisfiedGap (h : t.Coherent) {k : Stand} {p : Plan} : (t.satisfiedGap k p).Coherent := by
  unfold State.satisfiedGap
  split
  · split
    · exact h.placeGap
    · exact h
  · exact h

theorem abandonedGap (h : t.Coherent) {k : Stand} {p q : Plan} : (t.abandonedGap k p q).Coherent := h.placeGap

theorem clearSatisfied (h : t.Coherent) {k : Stand} {p : Plan} : (t.clearSatisfied k p).Coherent := by
  unfold State.clearSatisfied
  dsimp only
  split
  · exact h.setPlan.satisfiedGap.settleIdle
  · exact h.setPlan.satisfiedGap

theorem takePlan (h : t.Coherent) {k : Stand} {p : Plan} : (t.takePlan k p).Coherent := by
  unfold State.takePlan
  cases (t.seq k).plan with
  | none =>
    have g := h.setPlan (k := k) (p := some p)
    dsimp only
    repeat' split
    all_goals first | exact g.clearSatisfied | exact g.armGrade | exact g
  | some old =>
    have g := (h.abandonedGap (k := k) (p := old) (q := p)).setPlan (k := k) (p := some p)
    dsimp only
    repeat' split
    all_goals first | exact g.clearSatisfied | exact g.armGrade | exact g

theorem planArrives (h : t.Coherent) {k : Stand} {p : Plan} : (t.planArrives k p).Coherent := by
  unfold State.planArrives
  split
  · refine setSeq ?_
    split
    · exact h.abandonedGap
    · exact h
  · exact h.takePlan

theorem handDeferred (h : t.Coherent) {k : Stand} : (t.handDeferred k).Coherent := by
  unfold State.handDeferred; split
  · exact h.setSeq.planArrives
  · exact h

theorem enterFault (h : t.Coherent) {k : Stand} : (t.enterFault k).Coherent := h.setSeq.handDeferred.released

/-! ### Reels and their roles (R83) -/

/-- R83: a slot takes another reel, into the running role only where the other slot is out of it. -/
theorem setSlot (h : t.Coherent) {k : Stand} {p : Pos} {x : ReelSlot}
    (role : x.reel.inRole = true → (t.slot k p.other).reel.inRole = false) : (t.setSlot k p x).Coherent := by
  refine ⟨h.keyed, ⟨h.book.keys, h.book.sequence, h.book.counts⟩, OneRole_iff.mpr fun j q inRole => ?_, h.gaps⟩
  have one := OneRole_iff.mp h.oneRole
  rw [State.slot_setSlot] at inRole ⊢
  by_cases here : j = k
  · subst here
    by_cases same : q = p
    · subst same
      have other : q.other ≠ q := by cases q <;> decide
      simp only [and_self, if_true] at inRole
      simpa [other] using role inRole
    · have other : q.other = p := by cases q <;> cases p <;> first | rfl | exact absurd rfl same
      have back : p.other = q := by cases q <;> cases p <;> first | rfl | exact absurd rfl same
      simp only [same, and_false, if_false] at inRole
      simp only [other, and_self, if_true]
      exact Bool.eq_false_iff.mpr fun inx => by rw [back] at role; rw [role inx] at inRole; cases inRole
  · simp only [here, false_and, if_false] at inRole ⊢
    exact one j q inRole

/-- R83: a slot takes a reel of the role it had. -/
theorem setSlotSame (h : t.Coherent) {k : Stand} {p : Pos} {x : ReelSlot}
    (same : x.reel.inRole = (t.slot k p).reel.inRole) : (t.setSlot k p x).Coherent :=
  h.setSlot fun role => OneRole_iff.mp h.oneRole k p (same ▸ role)

/-- R83: a slot takes a reel outside the running role. -/
theorem setSlotOut (h : t.Coherent) {k : Stand} {p : Pos} {x : ReelSlot} (out : x.reel.inRole = false) :
    (t.setSlot k p x).Coherent := h.setSlot fun role => by rw [out] at role; cases role

theorem runOutIfEmpty (h : t.Coherent) {k : Stand} : (t.runOutIfEmpty k).Coherent := by
  unfold State.runOutIfEmpty
  split
  · exact h
  · split
    · next run =>
      split
      · exact ((h.setSlotSame (by rw [run]; rfl)).raise).enterFault
      · exact h
    · exact h

/-! ### The slitter exchange -/

theorem queueSet (h : t.Coherent) {st : Station} {p : Pattern} : (t.queueSet st p).Coherent :=
  h.setStation.bumpSerial.enqueue

theorem assignSet (h : t.Coherent) {m n : Nat} {p : Pattern} {st : Station} : (t.assignSet m n p st).Coherent :=
  h.setStation.queueSet

theorem walk (h : t.Coherent) : t.walk.Coherent := by
  unfold State.walk
  dsimp only
  split
  · exact h.setDecisions.assignSet
  · exact h.setDecisions

theorem addDecision (h : t.Coherent) {m : Nat} : (t.addDecision m).Coherent := h.setDecisions.walk

theorem removeDecision (h : t.Coherent) {m : Nat} : (t.removeDecision m).Coherent := h.setDecisions.walk

theorem faultStation (h : t.Coherent) {st : Station} : (t.faultStation st).Coherent := h.setStation.setDecisions.walk

theorem skipDecision (h : t.Coherent) {m : ChangeMark} : (t.skipDecision m).Coherent := by
  unfold State.skipDecision
  dsimp only
  split
  · exact h.setStation.removeDecision
  · exact h.removeDecision

theorem queueExchange (h : t.Coherent) {st : Station} {l : Option Station} {x : Option Coord} :
    (t.queueExchange st l x).Coherent := h.setStation.bumpSerial.enqueue

theorem exchange (h : t.Coherent) {m : ChangeMark} {st : Station} : (t.exchange m st).Coherent := by
  unfold State.exchange
  dsimp only
  refine removeDecision (setStation ?_)
  split
  · exact h.queueExchange.setStation
  · exact h.queueExchange

theorem moveStart (h : t.Coherent) {m : ChangeMark} {o : Outgoing} : (t.moveStart m o).Coherent := by
  have moved : (t.updateChange m.uid fun x =>
      { x with outgoing := some { o with start := plusMm o.start o.cutLength } }).Coherent := h.updateChange fun _ => rfl
  unfold State.moveStart
  dsimp only
  repeat' split
  all_goals first | exact moved.setPlanner.recomputeEnd | exact moved

theorem makeVoid (h : t.Coherent) {m : ChangeMark} : (t.makeVoid m).Coherent := by
  unfold State.makeVoid
  dsimp only
  have free : ∀ {v : State} (st : Station), v.Coherent → State.Coherent (if (v.station st).served = some m.uid ∧
      ((v.station st).state = .setting ∨ (v.station st).state = .ready) then
      (v.setStation st { v.station st with
        state := .idle, order := none, served := none, retry := 0, timer := none, setTag := none }).withdrawSet st
    else v) := by
    intro v st a
    split
    · exact a.setStation.withdrawSet
    · exact a
  exact (free .b (free .a (h.updateChange (by intro _; rfl)))).removeDecision

theorem lateChange (h : t.Coherent) {m : ChangeMark} {g : Nat} : (t.lateChange m g).Coherent := by
  unfold State.lateChange
  split
  · exact h
  · next later _ =>
    split
    · exact h
    · have void : ∀ {v : State}, v.Coherent → State.Coherent (match v.findChange later.uid with
        | some l =>
          match l.outgoing with
          | some lo => if lo.start = l.p then v.makeVoid m else v
          | none => v
        | none => v) := by
        intro v a
        repeat' split
        all_goals first | exact a.makeVoid | exact a
      have late : ∀ {v : State} {c : Prop} [Decidable c] {k : ErrorKind} {o : ErrorObject}, v.Coherent →
          State.Coherent (if c then v.raise k o else v) := by
        intro v c _ k o a
        split
        · exact a.raise
        · exact a
      have abandoned : ∀ {v : State} {c : Prop} [Decidable c] {o : ErrorObject}, v.Coherent →
          State.Coherent (if c then
            match v.provisional with
            | some (pr, pm) =>
              if pr.mark = later.uid && !pm.pinned then (v.raise .changeAbandoned o).curtailAndPin
              else v.raise .changeAbandoned o
            | none => v.raise .changeAbandoned o
          else v) := by
        intro v c _ o a
        repeat' split
        all_goals first | exact a.raise.curtailAndPin | exact a.raise | exact a
      exact void (recheckAll (abandoned (late (h.updateChange (by intro _; rfl)).moveStart)))

theorem decision (h : t.Coherent) {m : ChangeMark} : (t.decision m).Coherent := by
  unfold State.decision
  repeat' split
  all_goals first | exact h | exact h.skipDecision | exact h.lateChange | exact h.exchange

end State.Coherent

end Sys2Proof.Machine
end

section
/-! PROOF. Consistency of the tables (O60), continued: the order book and the launch, the knife counter, the bond controller,
the reels and joints, the counts and closes, LINE RESET. -/

namespace Sys2Proof.Machine

open Sys2Proof

theorem withActive_bounded {n : Nat} {f : Nat → Nat} {g : Grade} (h : g.Bounded) : (State.BookAgrees.withActive n f g).Bounded := by
  unfold State.BookAgrees.withActive; split <;> exact h

/-- R62: the order popped stays in the table. -/
theorem pop_findOrder {s : State} {n : Nat} : (s.pop.findOrder n).map (·.state) = (s.findOrder n).map (·.state) := by
  unfold State.pop
  split
  · next m rest _ =>
    simp only [State.findOrder, State.updateOrder_orders, List.find?_map, Option.map_map]
    have test : (fun o : Order => o.fields.number == n) ∘ (fun o =>
        if o.fields.number == m then { o with stacked := false } else o) = fun o => o.fields.number == n := by
      funext o; simp only [Function.comp]; split <;> rfl
    rw [test]
    refine congrFun (congrArg Option.map (funext fun o => ?_)) _
    simp only [Function.comp]; split <;> rfl
  · rfl

/-- R62: the choice, one entry of the stack at a time. -/
theorem chooseFrom_succ (n : Nat) (s : State) : State.chooseFrom (n + 1) s =
    if s.headRush then (s.runSeq.head?, s)
    else
      match s.suspended with
      | [] => (s.runSeq.head?, s)
      | m :: _ =>
        match s.findOrder m with
        | none => (s.runSeq.head?, s)
        | some o =>
          if 3 ≤ o.segments then (s.runSeq.head?, s)
          else if s.pop.need o none = 0 then State.chooseFrom n (s.pop.dropContinuation o)
          else (some m, s.pop) := rfl

/-- R66: the freeze itself: the crossing done, the mark frozen, no provisional mark any more. -/
def State.frozenAt (s : State) (m : ChangeMark) : State :=
  { s.updateChange m.uid fun x => { (x.setCross .freeze .done) with state := .frozen } with planner := none }

/-- R66: what follows the freeze. -/
theorem freeze_eq (s : State) (m : ChangeMark) : s.freeze m =
    match m.outgoing with
    | none => s
    | some o =>
      if (s.frozenAt m).errors.hold then (s.frozenAt m).becomeRunOut m o false
      else if (s.frozenAt m).freeMarks = 0 then (s.frozenAt m).becomeRunOut m o true
      else
        match (s.frozenAt m).candidate with
        | (none, u) => u.becomeRunOut m o true
        | (some n, u) =>
          match u.findOrder n with
          | none => u.becomeRunOut m o true
          | some i =>
            let g := ceilDiv (gMin u.config) i.fields.cutLength * i.fields.cutLength
            ((u.updateChange m.uid fun x => { x with incoming := some n, length := some g }).launch i
              (plusMm m.p g)).handOff m.uid m.p m.p m.p n i.fields.cutLength (u.gradeDiff o.order n) := rfl

theorem found_self {s : State} {n : Nat} {o : Order} (found : s.findOrder n = some o) :
    s.findOrder o.fields.number = some o := by rw [findOrder_number found]; exact found

namespace State.Coherent

variable {s t : State}

/-! ### The order book and the launch -/

/-- The grades of the table are bounded whatever their counts. -/
theorem bases_map (h : t.Coherent) {f : Grade → Grade} (keep : ∀ g, g.Bounded → (f g).Bounded) :
    ∀ g ∈ t.grades.map f, g.Bounded := by
  intro g mem
  obtain ⟨x, hx, rfl⟩ := List.mem_map.mp mem
  exact keep x (h.bases x hx)

theorem updateOrder (h : t.Coherent) {n : Nat} {f : Order → Order}
    (keeps : ∀ o, (f o).fields = o.fields ∧ (f o).slot = o.slot ∧ (f o).state = o.state) : (t.updateOrder n f).Coherent :=
  h.rebook (h.book.updateOrder (fun o => by rw [(keeps o).1]) (fun o => (keeps o).2.1) (fun o => by rw [(keeps o).1])
    fun o => (keeps o).2.2) rfl rfl rfl rfl h.bases

theorem withKnife (h : t.Coherent) {k : Knife} : State.Coherent { t with knife := k } :=
  h.quiet rfl rfl ⟨rfl, rfl, rfl⟩ rfl rfl

theorem push (h : t.Coherent) {n : Nat} : (t.push n).Coherent := by
  unfold State.push; split
  · exact h.setSuspended.updateOrder fun _ => ⟨rfl, rfl, rfl⟩
  · exact h

theorem unstack (h : t.Coherent) {n : Nat} : (t.unstack n).Coherent :=
  h.setSuspended.updateOrder fun _ => ⟨rfl, rfl, rfl⟩

theorem pop (h : t.Coherent) : t.pop.Coherent := by
  unfold State.pop; split
  · exact h.setSuspended.updateOrder fun _ => ⟨rfl, rfl, rfl⟩
  · exact h

theorem finishOrder (h : t.Coherent) {n : Nat} {out : OrderOutcome}
    (notQueued : ∀ o, t.findOrder n = some o → o.state ≠ .queued) : (t.finishOrder n out).Coherent := by
  have book := h.book.finishOrder out notQueued
  unfold State.finishOrder at book ⊢
  cases found : t.findOrder n with
  | none => exact h
  | some o =>
    rw [found] at book
    by_cases on : o.state = .running ∨ o.state = .suspended
    · simp only [if_pos on] at book ⊢
      refine h.rebook book rfl rfl rfl rfl (h.bases_map fun g b => ?_)
      split <;> exact b
    · simp only [if_neg on] at book ⊢
      exact h.rebook book rfl rfl rfl rfl h.bases

theorem bookLaunch (h : t.Coherent) {o : Order} (found : t.findOrder o.fields.number = some o) :
    (t.bookLaunch o).Coherent := by
  have book := h.book.bookLaunch found
  unfold State.bookLaunch at book ⊢
  dsimp only at book ⊢
  split at book
  · next on => rw [if_pos on]; exact h.rebook book rfl rfl rfl rfl h.bases
  · next off => rw [if_neg off]; exact h.rebook book rfl rfl rfl rfl (h.bases_map fun _ => withActive_bounded)

theorem dropContinuation (h : t.Coherent) {o : Order}
    (found : (t.findOrder o.fields.number).map (·.state) = some o.state) : (t.dropContinuation o).Coherent := by
  unfold State.dropContinuation; split
  · next suspended =>
    refine h.finishOrder fun r hr => ?_
    rw [hr, suspended] at found
    have : r.state = .suspended := Option.some.inj found
    rw [this]
    nofun
  · exact h.updateOrder fun _ => ⟨rfl, rfl, rfl⟩

/-- R62: the choice of a candidate. -/
theorem chooseFrom : ∀ (n : Nat) {t : State}, t.Coherent → (State.chooseFrom n t).2.Coherent
  | 0, _, h => h
  | n + 1, t, h => by
    rw [chooseFrom_succ]
    repeat' split
    all_goals
      first
      | exact h
      | exact h.pop
      | skip
    next o found _ _ =>
      refine chooseFrom n (h.pop.dropContinuation ?_)
      rw [pop_findOrder, findOrder_number found, found]
      rfl

theorem candidate (h : t.Coherent) : t.candidate.2.Coherent := chooseFrom _ h

theorem launch (h : t.Coherent) {o : Order} {c : Coord} (found : t.findOrder o.fields.number = some o) :
    (t.launch o c).Coherent :=
  ((h.placeNew (by rfl)).setPlanner.bookLaunch (by exact found)).recheckAll

theorem handPlans (h : t.Coherent) {m : Nat} {p g : Coord} {d : List (Stand × Nat)} : (t.handPlans m p g d).Coherent := by
  unfold State.handPlans
  induction d generalizing t with
  | nil => exact h
  | cons x xs ih => exact ih h.planArrives

theorem handOff (h : t.Coherent) {m : Nat} {p g c : Coord} {n l : Nat} {d : List (Stand × Nat)} :
    (t.handOff m p g c n l d).Coherent := h.enqueue.handPlans.addDecision

theorem becomeRunOut (h : t.Coherent) {m : ChangeMark} {o : Outgoing} {d : Bool} : (t.becomeRunOut m o d).Coherent := by
  have runOut : (t.updateChange m.uid fun x => { x with state := .runOut }).Coherent := h.updateChange fun _ => rfl
  unfold State.becomeRunOut
  dsimp only
  split
  · exact runOut.recheckAll.raise.enqueue
  · exact runOut.recheckAll.enqueue

theorem freeze (h : t.Coherent) {m : ChangeMark} : (t.freeze m).Coherent := by
  rw [freeze_eq]
  split
  · exact h
  · have g : (t.frozenAt m).Coherent := by
      have crossed : (t.updateChange m.uid fun x => { (x.setCross .freeze .done) with state := .frozen }).Coherent :=
        h.updateChange fun _ => rfl
      exact crossed.setPlanner
    have c := g.candidate
    split
    · exact g.becomeRunOut
    · split
      · exact g.becomeRunOut
      · split
        · next e => rw [e] at c; exact c.becomeRunOut
        · next e =>
          rw [e] at c
          split
          · exact c.becomeRunOut
          · next found =>
            refine handOff (launch (c.updateChange (by intro _; rfl)) ?_)
            exact found_self found

theorem lineStart (h : t.Coherent) {o : Order} (found : t.findOrder o.fields.number = some o) :
    (t.lineStart o).Coherent :=
  ((h.placeNew (by rfl)).launch (by exact found)).handOff

theorem closeRunOut (h : t.Coherent) {m : ChangeMark} {o : Order} (found : t.findOrder o.fields.number = some o) :
    (t.closeRunOut m o).Coherent := by
  unfold State.closeRunOut
  split
  · exact h
  · dsimp only
    refine addDecision (handPlans (withKnife (enqueue (launch (recheckAll (h.updateChange (by intro _; rfl))) ?_))))
    rw [State.findOrder, (State.recheckAll_frame _).orders]
    exact found

theorem attemptLaunch (h : t.Coherent) : t.attemptLaunch.2.Coherent := by
  have c := h.candidate
  unfold State.attemptLaunch
  repeat' split
  all_goals first | exact h | skip
  all_goals rw [‹t.candidate = _›] at c
  all_goals
    first
    | exact c
    | exact c.closeRunOut (found_self (by assumption))
    | exact c.lineStart (found_self (by assumption))

theorem curtailForRush (h : t.Coherent) : t.curtailForRush.Coherent := by
  unfold State.curtailForRush
  split
  · next m o e =>
    have has : t.hasMark m.uid := by
      unfold State.curtailTarget at e
      repeat' split at e
      all_goals first | cases e
      exact provisional_hasMark (by assumption)
    have pushed : (t.push o.order).marks = t.marks := by unfold State.push; split <;> rfl
    dsimp only
    refine recheckAll (replaceChange ?_ rfl ?_)
    · split
      · exact h
      · exact h.push
    · split
      · exact has
      · rw [State.hasMark, pushed]; exact has
  · exact h

/-! ### The knife counter -/

theorem queueChange (h : t.Coherent) {n k c : Nat} {f : Bool} : (t.queueChange n k c f).Coherent := h.enqueue.setKnife

theorem countStack (h : t.Coherent) {n : Nat} : (t.countStack n).Coherent := h.updateOrder fun _ => ⟨rfl, rfl, rfl⟩

theorem clearFill (h : t.Coherent) {n : Nat} : (t.clearFill n).Coherent := h.updateOrder fun _ => ⟨rfl, rfl, rfl⟩

theorem issueChange (h : t.Coherent) {n k c : Nat} {f : Bool} : (t.issueChange n k c f).Coherent :=
  h.queueChange.countStack

theorem countPostponed (h : t.Coherent) {p : Postponed} : (t.countPostponed p).Coherent := by
  unfold State.countPostponed
  repeat' split
  all_goals first | exact h.countStack.drawn | exact h.countStack | exact h.drawn | exact h

theorem stackTest (h : t.Coherent) {n : Nat} : (t.stackTest n).Coherent := by
  unfold State.stackTest
  dsimp only
  repeat' split
  all_goals first | exact h | exact h.issueChange.clearFill | exact h.setPostponed.raise

theorem closeStack (h : t.Coherent) {n : Nat} : (t.closeStack n).Coherent := by
  unfold State.closeStack
  repeat' split
  all_goals
    first
    | exact h
    | exact h.issueChange.clearFill
    | exact h.setPostponed.clearFill.raise
    | exact h.setPostponed.clearFill
    | exact h.raise

theorem issuePostponed (h : t.Coherent) : t.issuePostponed.Coherent := by
  unfold State.issuePostponed
  dsimp only
  repeat' split
  all_goals
    first
    | exact h
    | exact h.setPostponed.queueChange.countPostponed
    | exact h.setPostponed.queueChange.countPostponed.clearFill
    | exact h.setPostponed.queueChange

/-- R29: a RUNNING order that is stacked is SUSPENDED. -/
theorem suspend (h : t.Coherent) {n : Nat} {o : Order} (found : t.findOrder n = some o) (running : o.state = .running) :
    (t.updateOrder n fun r => { r with state := .suspended, attention := true }).Coherent := by
  have offLine : n ∉ t.runSeq := fun mem => by
    have := (h.book.mem_runSeq found).mp mem
    rw [running] at this
    cases this
  refine h.rebook (h.book.restate_still found (f := fun r => { r with state := .suspended, attention := true }) rfl rfl rfl
    h.book.sequence.1 (fun _ _ => Iff.rfl) (iff_of_false offLine nofun) rfl ?_) rfl rfl rfl rfl h.bases
  simp [Order.onMachine, running]

theorem bookSegmentEnd (h : t.Coherent) {n : Nat} : (t.bookSegmentEnd n).Coherent := by
  unfold State.bookSegmentEnd
  split
  · exact h
  · next o found =>
    split
    · next running =>
      have lost : (t.updateOrder n fun r => { r with segments := o.segments - 1 }).Coherent :=
        h.updateOrder fun _ => ⟨rfl, rfl, rfl⟩
      have here : (t.updateOrder n fun r => { r with segments := o.segments - 1 }).findOrder n
          = some { o with segments := o.segments - 1 } := by
        rw [findOrder_updateOrder (fun _ => by rfl), found]; rfl
      dsimp only
      split
      · exact lost
      · split
        · exact lost.suspend here running
        · refine lost.finishOrder fun r hr => ?_
          rw [here] at hr
          cases hr
          rw [running]
          nofun
    · exact h

theorem endSegment (h : t.Coherent) {m : ChangeMark} : (t.endSegment m).Coherent := by
  unfold State.endSegment; split
  · exact h.closeStack.bookSegmentEnd
  · exact h

theorem gridStep1 (h : t.Coherent) {g : Grid} : (t.gridStep1 g).1.Coherent := by
  unfold State.gridStep1
  repeat' split
  all_goals first | exact h.endSegment | exact h

theorem gridStep2 (h : t.Coherent) {n : Coord} {p : GridPos} : (t.gridStep2 n p).1.Coherent := by
  unfold State.gridStep2
  dsimp only
  repeat' split
  all_goals first | exact h.endSegment | exact h

theorem advanceGrid (h : t.Coherent) {g : Grid} : (t.advanceGrid g).Coherent := by
  unfold State.advanceGrid
  exact h.gridStep1.gridStep2.setKnife.setKnife

theorem chargeSheet (h : t.Coherent) {g : Grid} {j : Judgment} : (t.chargeSheet g j).Coherent := by
  unfold State.chargeSheet
  repeat' split
  all_goals
    first
    | exact h
    | exact h.updateChange (by intro _; rfl)
    | exact h.updateOrder (by intro _; exact ⟨rfl, rfl, rfl⟩)
    | exact (h.updateOrder (by intro _; exact ⟨rfl, rfl, rfl⟩)).stackTest

theorem judge (h : t.Coherent) {g : Grid} {j : Judgment} {e : Bool} : (t.judge g j e).Coherent := by
  unfold State.judge
  dsimp only
  split
  · exact h.chargeSheet.raise.advanceGrid
  · exact h.chargeSheet.advanceGrid

theorem missOverdue : ∀ (n : Nat) (c : Coord) {t : State}, t.Coherent → (State.missOverdue n c t).Coherent
  | 0, _, _, h => h
  | n + 1, c, t, h => by
    unfold State.missOverdue
    repeat' split
    all_goals first | exact h | exact missOverdue n c h.judge

theorem overdueTest (h : t.Coherent) : t.overdueTest.Coherent := by
  unfold State.overdueTest; split
  · exact h
  · exact missOverdue _ _ h

theorem matchCut (h : t.Coherent) {c : Coord} : (t.matchCut c).Coherent := by
  unfold State.matchCut
  repeat' split
  all_goals first | exact h | exact h.withKnife.raise | exact h.judge

theorem cutPulse (h : t.Coherent) : t.cutPulse.Coherent := by
  unfold State.cutPulse; split
  · exact h.raise
  · exact (missOverdue _ _ h).matchCut

theorem passOwner (h : t.Coherent) : t.passOwner.Coherent := by
  unfold State.passOwner
  repeat' split
  all_goals first | exact h | exact h.setKnife

theorem knifeCrossing (h : t.Coherent) {m : ChangeMark} : (t.knifeCrossing m).Coherent := by
  unfold State.knifeCrossing
  repeat' split
  all_goals first | exact h | exact h.setKnife

theorem stackTaken (h : t.Coherent) : t.stackTaken.Coherent := by
  unfold State.stackTaken; split
  · exact h.raise
  · exact h.setKnife.issuePostponed

/-! ### The bond controller -/

theorem setGlue (h : t.Coherent) {u : GlueUnit} {c : GlueChannel} (bounded : c.Bounded) : (t.setGlue u c).Coherent := by
  obtain ⟨keyed, ⟨keys, sequence, counts⟩, role, gaps⟩ := h
  refine ⟨keyed, ⟨keys, sequence, counts⟩, role, gapsBounded_iff.mpr ⟨fun v => ?_, (gapsBounded_iff.mp gaps).2⟩⟩
  by_cases e : v = u
  · subst e; simpa using bounded
  · simpa [PerGlue.get_set_other _ _ e] using (gapsBounded_iff.mp gaps).1 v

theorem channel (h : t.Coherent) (u : GlueUnit) : (t.glue.get u).Bounded := (gapsBounded_iff.mp h.gaps).1 u

theorem regap (h : t.Coherent) {u : GlueUnit} : (t.regap u).Coherent := by
  unfold State.regap
  dsimp only
  split
  · exact h
  · obtain ⟨gap, base⟩ := h.channel u
    refine (h.setGlue (c := { t.glue.get u with gap := (t.glue.get u).gapNow }) ⟨?_, base⟩).enqueue
    unfold GlueChannel.gapNow
    split
    · exact gap
    · next a active =>
      split
      · exact min_le_left _ _
      · exact base a active

theorem jointAt (h : t.Coherent) {u : GlueUnit} : (t.jointAt u).Coherent := (h.setGlue (by exact h.channel u)).regap

theorem endBump (h : t.Coherent) {u : GlueUnit} : (t.endBump u).Coherent := by
  unfold State.endBump; split
  · exact (h.setGlue (by exact h.channel u)).regap
  · exact h

theorem firstValue (h : t.Coherent) {x : BondUnit} {l : Option Nat} {v : Nat} : (t.firstValue x l v).Coherent := by
  unfold State.firstValue; split
  · exact h.enqueue
  · exact h

theorem switchPreheater (h : t.Coherent) {k : Stand} {g : Grade} : (t.switchPreheater k g).Coherent :=
  h.setPreheater.firstValue

theorem switchGlue (h : t.Coherent) {u : GlueUnit} {g : Grade} (bounded : g.Bounded) : (t.switchGlue u g).Coherent := by
  have active : (t.setGlue u { t.glue.get u with active := some ⟨g.fields.number, g.fields.glue.get u⟩ }).Coherent :=
    h.setGlue ⟨(h.channel u).1, by rintro a ⟨⟩; exact bounded u⟩
  exact active.regap.firstValue

theorem incomingGrade (h : t.Coherent) {m : ChangeMark} {g : Grade} (found : t.incomingGrade m = some g) : g.Bounded := by
  unfold State.incomingGrade at found
  split at found
  · obtain ⟨o, -, hg⟩ := Option.bind_eq_some_iff.mp found
    exact h.bases g (findGrade_mem hg).1
  · cases found

theorem slewStep (h : t.Coherent) {k : Stand} : (t.slewStep k).Coherent := by
  unfold State.slewStep
  dsimp only
  repeat' split
  all_goals first | exact h | exact h.setPreheater | exact h.setPreheater.enqueue

theorem refreshUnit (h : t.Coherent) {x : BondUnit} : (t.refreshUnit x).Coherent := by
  unfold State.refreshUnit; split
  · exact h.enqueue
  · exact h

theorem refreshAll (h : t.Coherent) : t.refreshAll.Coherent := h.takeEvents fun _ _ a => a.refreshUnit

/-! ### Reels and joints -/

theorem readyChanged (h : t.Coherent) {k : Stand} {p : Pos} : (t.readyChanged k p).Coherent := by
  unfold State.readyChanged; split
  · exact h.recheck
  · exact h

theorem identityCheck (h : t.Coherent) {k : Stand} {p : Pos} {i d : Nat} {a : Announcement} :
    (t.identityCheck k p i d a).Coherent := by
  unfold State.identityCheck; split
  · exact h.setSlotOut rfl
  · exact (h.setSlotOut rfl).raise

theorem verifyAgain (h : t.Coherent) {k : Stand} {p : Pos} {r : Paper} {a : Announcement} :
    (t.verifyAgain k p r a).Coherent := by
  unfold State.verifyAgain
  dsimp only
  repeat' split
  all_goals first | exact (h.identityCheck.setSlotOut rfl).drawn | exact h.identityCheck

theorem reelLoaded (h : t.Coherent) {k : Stand} {p : Pos} {i : Nat} : (t.reelLoaded k p i).Coherent := by
  unfold State.reelLoaded
  split
  all_goals first | exact (h.setSlotOut rfl).readyChanged | exact h.identityCheck.readyChanged | exact h.raise

theorem reelRemoved (h : t.Coherent) {k : Stand} {p : Pos} : (t.reelRemoved k p).Coherent := by
  unfold State.reelRemoved
  dsimp only
  split
  all_goals first | exact (h.setSlotOut rfl).readyChanged | exact h.raise

theorem afterRecompute (h : t.Coherent) {k : Stand} {b : Bool} : (t.afterRecompute k b).Coherent :=
  h.lowIfNew.runOutIfEmpty

/-- R86: an accepted diameter. -/
theorem setDiameter (h : t.Coherent) {k : Stand} {p : Pos} {d : Nat} {a : Bool} :
    (t.setSlot k p ⟨(t.slot k p).reel.withDiameter d, a⟩).Coherent := by
  refine h.setSlotSame ?_
  cases (t.slot k p).reel <;> rfl

theorem diameterReport (h : t.Coherent) {k : Stand} {p : Pos} {d : Nat} : (t.diameterReport k p d).Coherent := by
  unfold State.diameterReport
  dsimp only
  repeat' split
  all_goals first | exact h.raise | exact h.setDiameter.afterRecompute | exact h.setDiameter

theorem announce (h : t.Coherent) {k : Stand} {p : Pos} {a : Announcement} : (t.announce k p a).Coherent := by
  unfold State.announce
  refine readyChanged ?_
  split
  all_goals first | exact h.setSlotOut rfl | exact h.identityCheck | exact h.verifyAgain | exact h

theorem afterThread (h : t.Coherent) {k : Stand} : (t.afterThread k).Coherent := by
  unfold State.afterThread
  dsimp only
  refine runOutIfEmpty (lowReelIfLow (recheck ?_))
  repeat' split
  all_goals first | exact h.setSeq.clearSatisfied | exact h.setSeq

theorem staleTest (h : t.Coherent) {k : Stand} : (t.staleTest k).Coherent := by
  unfold State.staleTest
  split
  · exact h
  · split
    · next run =>
      split
      · exact (h.setSlotSame (by rw [run]; rfl)).raise
      · exact h
    · exact h

theorem staleAdvance (h : t.Coherent) {k : Stand} : (t.staleAdvance k).Coherent := by
  unfold State.staleAdvance
  split
  · exact h
  · split
    · next run => exact h.setSlotSame (by rw [run]; rfl)
    · exact h

theorem jointMark (h : t.Coherent) {k : Stand} {j : Coord} : (t.jointMark k j).Coherent := by
  unfold State.jointMark
  dsimp only
  split
  · exact h.placeNewCull rfl
  · exact h.raise

/-- R83: no slot of a stand is in the running role. -/
theorem runningPos_none (none : t.runningPos k = none) (p : Pos) : (t.slot k p).reel.inRole = false := by
  unfold State.runningPos at none
  repeat' split at none
  all_goals first | cases none
  cases p <;> exact Bool.eq_false_iff.mpr (by assumption)

/-- R113: the slot that enters the role is the one beside which none is in it. -/
theorem splicedIn (h : t.Coherent) {k : Stand} {p : Pos} (out : (t.slot k p.other).reel.inRole = false) :
    (t.splicedIn k p).Coherent := h.setSlot fun _ => out

theorem roleSwap (h : t.Coherent) {k : Stand} : (t.roleSwap k).Coherent := by
  unfold State.roleSwap
  split
  · next p _ =>
    refine (h.setSlotOut rfl).splicedIn ?_
    have : p.other.other = p := by cases p <;> rfl
    rw [this, State.slot_setSlot_same]
    rfl
  · next none =>
    split
    · exact h.splicedIn (runningPos_none none _)
    · exact h.splicedIn (runningPos_none none _)
    · exact h

theorem jointGap (h : t.Coherent) {k : Stand} {j : Coord} {p : Plan} : (t.jointGap k j p).Coherent := by
  unfold State.jointGap
  dsimp only
  repeat' split
  all_goals first | exact h | exact h.placeGap

theorem gradeCheck (h : t.Coherent) {k : Stand} {j : Coord} : (t.gradeCheck k j).Coherent := by
  unfold State.gradeCheck
  repeat' split
  all_goals first | exact h | exact h.setPlan.jointGap

theorem afterJoint (h : t.Coherent) {k : Stand} {e : AfterJoint} : (t.afterJoint k e).Coherent := by
  cases e
  · exact h.runOutIfEmpty
  · exact h.handDeferred

theorem jointPulse (h : t.Coherent) {k : Stand} : (t.jointPulse k).Coherent := by
  unfold State.jointPulse
  dsimp only
  refine takeEvents ?_ fun _ _ a => a.afterJoint
  split
  · refine gradeCheck (roleSwap ?_)
    split
    · exact h.jointMark.setSeq.setSeq.withdrawGo
    · exact h.jointMark.setSeq
  · refine nextState (gradeCheck (roleSwap ?_))
    split
    · exact h.jointMark.setSeq.setSeq.withdrawGo
    · exact h.jointMark.setSeq

theorem spliceTimeout (h : t.Coherent) {k : Stand} : (t.spliceTimeout k).Coherent := by
  unfold State.spliceTimeout; split
  · exact h.raise.enterFault
  · exact h

/-! ### Stations and the link -/

theorem setPositions (h : t.Coherent) {st : Station} {l : List Nat} : (t.setPositions st l).Coherent := by
  unfold State.setPositions State.verifyFail
  dsimp only
  repeat' split
  all_goals first | exact h.setStation | exact h.setStation.queueSet | exact h.faultStation.raise | exact h.raise

theorem setTimeout (h : t.Coherent) {st : Station} : (t.setTimeout st).Coherent := by
  unfold State.setTimeout; split
  · exact h.faultStation.raise
  · exact h

theorem clearStation (h : t.Coherent) {st : Station} : (t.clearStation st).Coherent := h.setStation.walk

theorem setLink (h : t.Coherent) {l : Link} : State.Coherent { t with link := l } :=
  h.quiet rfl rfl ⟨rfl, rfl, rfl⟩ rfl rfl

theorem arbiterTake (h : t.Coherent) : t.arbiterTake.Coherent := h.setLink

theorem goSent (h : t.Coherent) {k : Stand} {n : Nat} : (t.goSent k n).Coherent := by
  unfold State.goSent
  dsimp only
  split
  · exact h.setSeq
  · exact h

theorem setSent (h : t.Coherent) {st : Station} {n : Nat} : (t.setSent st n).Coherent := by
  unfold State.setSent
  dsimp only
  split
  · exact h.setStation
  · exact h

theorem lateExchange (h : t.Coherent) {x : Option Coord} : (t.lateExchange x).Coherent := by
  unfold State.lateExchange
  repeat' split
  all_goals first | exact h | exact h.setKnife

theorem exchangeSent (h : t.Coherent) {st : Station} {x : Option Coord} {n : Nat} : (t.exchangeSent st x n).Coherent := by
  unfold State.exchangeSent
  dsimp only
  split
  · exact h.setStation.lateExchange
  · exact h.lateExchange

theorem setpointSent (h : t.Coherent) {x : BondUnit} {v : Nat} : (t.setpointSent x v).Coherent := by
  unfold State.setpointSent; split
  · exact h.setPreheater
  · exact h.setGlue (by exact h.channel _)

/-! ### Counts and closes -/

theorem fireChange (h : t.Coherent) {m : ChangeMark} {c : Cross} : (t.fireChange m c).Coherent := by
  have marked {st : CrossStatus} : (t.updateChange m.uid fun x => x.setCross c st).Coherent :=
    h.updateChange fun _ => rfl
  unfold State.fireChange
  dsimp only
  split
  · exact h.freeze
  · split <;> first | exact marked | exact marked.switchPreheater
  · split
    · exact marked
    · next found => exact marked.switchGlue (h.incomingGrade found)
    · exact marked
  · split
    · exact marked
    · exact marked.decision
  · exact marked.knifeCrossing

theorem fire (h : t.Coherent) {m : Mark} {c : Cross} : (t.fire m c).Coherent := by
  unfold State.fire; split
  · exact h.fireChange
  · exact h.jointCrossDone.jointAt
  · exact h

theorem retire (h : t.Coherent) {m : Mark} : (t.retire m).Coherent := by
  unfold State.retire; split
  · exact h.countRebase.dropMark
  · exact h.dropMark

theorem rebase (h : t.Coherent) {m : ChangeMark} (a : t.hasMark m.uid) : (t.rebase m).Coherent := by
  unfold State.rebase
  dsimp only
  split
  · exact h.replaceChange (by rfl) a
  · exact h

theorem countEvent (h : t.Coherent) {e : CountEvent} : (t.countEvent e).Coherent := by
  cases e <;> simp only [State.countEvent]
  case low => exact h.lowReelIfLow
  case runOut => exact h.runOutIfEmpty
  case bumpEnd => exact h.endBump
  case due => exact h.dueCheck
  case check => exact h.recheck
  case owner => exact h.passOwner
  case overdue => exact h.overdueTest
  all_goals repeat' split
  all_goals
    first
    | exact h
    | exact h.fire
    | exact h.retire
    | exact h.rebase (findChange_hasMark (by assumption))

theorem countDown (h : t.Coherent) {k : Stand} : (t.countDown k).Coherent := by
  rw [countDown_eq]
  split
  · exact h.setSlotSame (ReelSlot.paidOut_inRole _ _)
  · exact h

theorem countDownAll (h : t.Coherent) : t.countDownAll.Coherent := h.countDown.countDown.countDown.countDown.countDown

theorem forwardCount (h : t.Coherent) : t.forwardCount.Coherent := by
  have advanced : t.advance.Coherent := h.quiet rfl rfl ⟨rfl, rfl, rfl⟩ rfl rfl
  exact advanced.countDownAll.takeEvents fun _ _ a => a.countEvent

theorem closeEvent (h : t.Coherent) {e : CloseEvent} : (t.closeEvent e).Coherent := by
  cases e with
  | go k => exact h.goTest
  | cap => simp only [State.closeEvent, State.capAtClose]; split <;> [exact h.capRequest; exact h]
  | stale k => exact h.staleTest

theorem staleAdvanceAll (h : t.Coherent) : t.staleAdvanceAll.Coherent := by
  unfold State.staleAdvanceAll; split
  · exact h
  · exact h.staleAdvance.staleAdvance.staleAdvance.staleAdvance.staleAdvance

theorem windowClose (h : t.Coherent) : t.windowClose.Coherent := by
  have closed : t.closeWindow.Coherent := h.quiet rfl rfl ⟨rfl, rfl, rfl⟩ rfl rfl
  exact (closed.staleAdvanceAll.takeEvents fun _ _ a => a.closeEvent).takeEvents fun _ _ a => a.slewStep

/-! ### LINE RESET -/

theorem resetBook (h : t.Coherent) : t.resetBook.Coherent :=
  h.rebook h.book.resetBook rfl rfl rfl rfl (h.bases_map fun _ b => b)

theorem dropBump (h : t.Coherent) {u : GlueUnit} : (t.dropBump u).Coherent := by
  unfold State.dropBump; split
  · exact (h.setGlue (by exact h.channel u)).regap
  · exact h

theorem immediateExchange (h : t.Coherent) : t.immediateExchange.Coherent := by
  unfold State.immediateExchange
  repeat' split
  all_goals first | exact h | exact h.queueExchange

theorem resetSlitter (h : t.Coherent) : t.resetSlitter.Coherent :=
  immediateExchange (h.quiet rfl rfl ⟨rfl, rfl, rfl⟩ rfl rfl)

theorem resetBlock (h : t.Coherent) {b : ResetBlock} : (t.resetBlock b).Coherent := by
  cases b
  case tracker => exact h.fewerMarks (List.nil_sublist _)
  case book => exact h.resetBook
  case planner => exact h.setPlanner
  case splice => exact h.ofSplice (resetSplice_only t).frame (resetSplice_only t).serial
  case slitter => exact h.resetSlitter
  case knife => exact h.withKnife
  case bond => exact h.takeEvents fun _ _ a => a.dropBump

theorem lineReset (h : t.Coherent) : t.lineReset.Coherent :=
  takeEvents (t := t.flushLink) h.setLink fun _ _ a => a.resetBlock

end State.Coherent

end Sys2Proof.Machine
end

section
/-! PROOF. Consistency of the tables (O60), concluded: every request and every other command keeps it. -/

namespace Sys2Proof.Machine

open Sys2Proof

namespace State.BookAgrees

/-- R38: the record of an order takes new fields of the same number and grade. -/
theorem amendRunning {s : State} {d : OrderDef} {o : Order} (h : s.BookAgrees) (found : s.findOrder d.number = some o)
    (grade : d.grade = o.fields.grade) : (s.updateOrder d.number fun r => { r with fields := d }).BookAgrees := by
  obtain ⟨mem, number⟩ := findOrder_mem found
  have self := h.mem_runSeq found
  refine h.rewrite found (f := fun r => { r with fields := d }) (G := id) rfl (List.map_id _).symm number.symm rfl
    (by rw [grade]; exact h.counts.1 o mem) (fun _ _ => ⟨rfl, rfl⟩) h.sequence.1 (fun _ _ => Iff.rfl) self
    (fun g _ => ?_) fun g _ => ?_
  · simp [Order.refersTo, grade]
  · simp [Order.activates, Order.onMachine, grade]

end State.BookAgrees

theorem sameOthers_grade {d e : OrderDef} (same : d.sameOthers e = true) : d.grade = e.grade := by
  unfold OrderDef.sameOthers at same
  have same := of_decide_eq_true same
  rw [← same]

theorem Order.waiting_offMachine {o : Order} (waiting : o.waiting = true) : o.onMachine = false := by
  simp only [Order.waiting, Bool.or_eq_true, beq_iff_eq] at waiting
  rcases waiting with e | e <;> simp [Order.onMachine, e]

/-- R30: an order off the machine ends with its record alone. -/
theorem finishOrder_offMachine {s : State} {n : Nat} {o : Order} {out : OrderOutcome} (found : s.findOrder n = some o)
    (off : o.onMachine = false) : s.finishOrder n out = s.updateOrder n fun r => { r with
      state := .done, outcome := some out, attention := true, stacked := false } := by
  have : ¬(o.state = .running ∨ o.state = .suspended) := fun e => by
    rw [State.BookAgrees.onMachine_iff.mpr e] at off; cases off
  simp only [State.finishOrder, found, if_neg this]

theorem valuesOk_bounded {d : GradeDef} (ok : d.valuesOk = true) (u : GlueUnit) : (d.glue.get u).base ≤ 1500 := by
  simp only [GradeDef.valuesOk, Bool.and_eq_true, List.all_eq_true, inRange, decide_eq_true_eq] at ok
  exact (ok.2 u (by cases u <;> decide)).1.2

theorem withdrawn_outOfRole {r x : Reel} (w : r.withdrawn = some x) : x.inRole = false := by
  cases r <;> simp only [Reel.withdrawn] at w <;> cases w <;> rfl

namespace State.Coherent

variable {s t : State} {b : List Byte}

theorem setInputs (h : t.Coherent) {i : InputLevels} : State.Coherent { t with inputs := i } :=
  h.quiet rfl rfl ⟨rfl, rfl, rfl⟩ rfl rfl
theorem setReceiver (h : t.Coherent) {r : Option Reception} : State.Coherent { t with receiver := r } :=
  h.quiet rfl rfl ⟨rfl, rfl, rfl⟩ rfl rfl
theorem setPending (h : t.Coherent) {l : List Instr} : State.Coherent { t with pending := l } :=
  h.quiet rfl rfl ⟨rfl, rfl, rfl⟩ rfl rfl
theorem setConfig (h : t.Coherent) {c : List Int} : State.Coherent { t with config := c } :=
  h.quiet rfl rfl ⟨rfl, rfl, rfl⟩ rfl rfl
theorem setDraws (h : t.Coherent) {d : Nat} : State.Coherent { t with draws := d } :=
  h.quiet rfl rfl ⟨rfl, rfl, rfl⟩ rfl rfl

/-! ### The requests of the order book -/

/-- R32, R35, R36: a waiting order has a new record and a new place in the run sequence, or none. -/
theorem relinked {n : Nat} {o : Order} (h : s.Coherent) (found : s.findOrder n = some o) (waiting : o.onMachine = false)
    {os : List Order} {seq : List Nat} {f : Order → Order} (orders : os = rewriteAt n f s.orders)
    (fields : (f o).fields = o.fields) (slot : (f o).slot = o.slot) (off : (f o).onMachine = false) (nodup : seq.Nodup)
    (others : ∀ k, k ≠ n → (k ∈ seq ↔ k ∈ s.runSeq.filter (· != n))) (self : n ∈ seq ↔ (f o).state = .queued) :
    State.Coherent { s with orders := os, runSeq := seq } :=
  h.rebook (h.book.relink found waiting orders fields slot rfl off nodup others self) rfl rfl rfl rfl h.bases

/-- R35: a waiting order linked at a place of the run sequence without it. -/
theorem scheduled {n : Nat} {o : Order} (h : s.Coherent) (found : s.findOrder n = some o) (waiting : o.onMachine = false)
    {seq : List Nat} (nodup : seq.Nodup) (mem : ∀ k, k ∈ seq ↔ k = n ∨ k ∈ s.runSeq.filter (· != n)) :
    (({ (s.unlink n).updateOrder n fun o => { o with rush := false } with runSeq := seq } : State).updateOrder n
      fun o => { o with state := .queued }).Coherent :=
  h.relinked found waiting (f := fun r => { r with rush := false, state := .queued })
    (rewriteAt_rewriteAt (by intro _; rfl) _) rfl rfl rfl nodup (fun k e => by rw [mem k]; simp [e])
    (iff_of_true ((mem n).mpr (.inl rfl)) rfl)

theorem linkedHead {n : Nat} {o : Order} (h : s.Coherent) (found : s.findOrder n = some o) (waiting : o.onMachine = false) :
    ((s.unlink n).linkHead n).Coherent :=
  h.relinked found waiting (f := fun r => { r with state := .queued }) rfl rfl rfl rfl
    (List.nodup_cons.mpr ⟨not_mem_unlinked _ _, h.book.unlinked n⟩) (fun k e => by simp [State.unlink, e])
    (iff_of_true (List.mem_cons_self ..) rfl)

theorem answerEnterOrder (h : s.Coherent) : (answerEnterOrder b s).Leaves State.Coherent := by
  simp only [Machine.answerEnterOrder, Answer.leaves_refuseIf, Answer.leaves_done]
  intro _ _ _ grade fresh room
  have free : (s.orders.map (·.slot)).length < Config.orderSlots := by
    simp [State.freeOrders] at room ⊢; omega
  refine h.rebook (h.book.enterOrder (by simpa [Option.isSome_iff_ne_none] using grade) (by simpa using fresh)
    (lowestFree_spec free).2.1) rfl rfl rfl rfl (h.bases_map fun g bound => ?_)
  split <;> exact bound

theorem answerAmendWaiting (h : s.Coherent) {d : OrderDef} {o : Order} (found : s.findOrder d.number = some o)
    (waiting : o.onMachine = false) : (answerAmendWaiting d o s).Leaves State.Coherent := by
  simp only [Machine.answerAmendWaiting, Answer.leaves_refuseIf, Answer.leaves_done]
  intro _ _ grade
  have book := h.book.amendWaiting found waiting (by simpa [Option.isSome_iff_ne_none] using grade)
  refine recheckAll ?_
  dsimp only at book
  by_cases same : d.grade = o.fields.grade
  · simp only [if_pos same] at book ⊢
    exact h.rebook book rfl rfl rfl rfl h.bases
  · simp only [if_neg same] at book ⊢
    refine h.rebook book rfl rfl rfl rfl fun g mem => ?_
    rw [State.BookAgrees.gradeRefUp_grades, State.BookAgrees.gradeRefDown_grades, List.map_map] at mem
    refine h.bases_map (fun g bound => ?_) g mem
    rw [Function.comp, Grade.Bounded, (State.BookAgrees.withRefs_keeps _ _ _).1,
      (State.BookAgrees.withRefs_keeps _ _ _).1]
    exact bound

theorem answerAmendRunning (h : s.Coherent) {d : OrderDef} {o : Order} (found : s.findOrder d.number = some o) :
    (answerAmendRunning d o s).Leaves State.Coherent := by
  simp only [Machine.answerAmendRunning, Answer.leaves_refuseIf, Answer.leaves_done]
  intro same _ _
  have amended : (s.updateOrder d.number fun r => { r with fields := d }).Coherent :=
    h.rebook (h.book.amendRunning found (sameOthers_grade (by simpa using same))) rfl rfl rfl rfl h.bases
  refine recheckAll ?_
  split
  · exact amended.amendEnd
  · exact amended

theorem answerAmendOrder (h : s.Coherent) : (answerAmendOrder b s).Leaves State.Coherent := by
  simp only [Machine.answerAmendOrder, Answer.leaves_refuseIf]
  intro _
  split
  · trivial
  · next found =>
    split
    · trivial
    · next e => exact h.answerAmendWaiting found (by simp [Order.onMachine, e])
    · next e => exact h.answerAmendWaiting found (by simp [Order.onMachine, e])
    · exact h.answerAmendRunning found
    · exact h.answerAmendRunning found

theorem scheduleAt (h : s.Coherent) {n place a : Nat} {o : Order} (found : s.findOrder n = some o)
    (waiting : o.onMachine = false) (behind : 2 ≤ place → a ≠ n ∧ a ∈ s.runSeq) :
    (scheduleAt n place a s).Leaves State.Coherent := by
  have fresh := not_mem_unlinked n s.runSeq
  have nodup := h.book.unlinked n
  simp only [Machine.scheduleAt, Answer.leaves_done]
  refine attemptLaunch ?_
  split
  · exact h.scheduled found waiting (List.nodup_cons.mpr ⟨fresh, nodup⟩) fun _ => List.mem_cons
  · refine h.scheduled found waiting (List.Nodup.append nodup (List.nodup_singleton n) ?_) fun k => ?_
    · simp
    · rw [List.mem_append, List.mem_singleton, or_comm]; rfl
  · next head tail =>
    obtain ⟨other, mem⟩ := behind (by
      match place, head, tail with
      | 0, head, _ => exact absurd rfl head
      | 1, _, tail => exact absurd rfl tail
      | n + 2, _, _ => omega)
    have there : a ∈ s.runSeq.filter (· != n) := (mem_unlinked other).mpr mem
    exact h.scheduled found waiting (nodup_insertAfter there fresh nodup) (mem_insertAfter there)

theorem answerScheduleOrder (h : s.Coherent) : (answerScheduleOrder b s).Leaves State.Coherent := by
  simp only [Machine.answerScheduleOrder, Answer.leaves_refuseIf]
  intro _ range
  split
  · trivial
  · next o found =>
    rw [Answer.leaves_refuseIf]
    intro waits
    have waiting : o.onMachine = false := Order.waiting_offMachine (by simpa using waits)
    split
    · rw [Answer.leaves_refuseIf]
      intro other
      split
      · trivial
      · next p there =>
        rw [Answer.leaves_refuseIf]
        intro queued
        exact h.scheduleAt found waiting fun _ =>
          ⟨by simp at other; exact other.2, (h.book.mem_runSeq there).mpr (by simpa using queued)⟩
    · next e => exact h.scheduleAt found waiting fun two => absurd (by simp at range; omega) e

theorem answerUnscheduleOrder (h : s.Coherent) : (answerUnscheduleOrder b s).Leaves State.Coherent := by
  simp only [Machine.answerUnscheduleOrder, Answer.leaves_refuseIf]
  intro _
  split
  · trivial
  · next o found =>
    rw [Answer.leaves_refuseIf]
    intro queued
    have queued : o.state = .queued := by simpa using queued
    exact h.relinked found (by simp [Order.onMachine, queued]) (f := fun r => { r with state := .entered, rush := false })
      rfl rfl rfl rfl (h.book.unlinked _) (fun _ _ => Iff.rfl) (iff_of_false (not_mem_unlinked _ _) nofun)

theorem answerRushOrder (h : s.Coherent) : (answerRushOrder b s).Leaves State.Coherent := by
  simp only [Machine.answerRushOrder, Answer.leaves_refuseIf]
  intro _
  split
  · trivial
  · next o found =>
    simp only [Answer.leaves_refuseIf, Answer.leaves_done]
    intro waits _
    have linked := h.linkedHead found (Order.waiting_offMachine (by simpa using waits))
    have head : (s.rushToHead _).Coherent := linked.updateOrder (by intro _; exact ⟨rfl, rfl, rfl⟩)
    exact head.curtailForRush.attemptLaunch

theorem answerCancelRunning (h : s.Coherent) {n : Nat} {o : Order} : (answerCancelRunning n o s).Leaves State.Coherent := by
  simp only [Machine.answerCancelRunning, Answer.leaves_refuseIf, Answer.leaves_done]
  intro _ _
  have unstacked : (if o.stacked then s.unstack n else s).Coherent := by
    split
    · exact h.unstack
    · exact h
  refine updateOrder ?_ (by intro _; exact ⟨rfl, rfl, rfl⟩)
  split
  · exact unstacked.curtailAndPin
  · exact unstacked

/-- R39: a QUEUED order leaves the run sequence and is DONE. -/
theorem cancelQueued (h : s.Coherent) {n : Nat} {o : Order} (found : s.findOrder n = some o) (queued : o.state = .queued) :
    (((s.unlink n).updateOrder n fun r => { r with rush := false }).finishOrder n .cancelled).Coherent := by
  have off : o.onMachine = false := by simp [Order.onMachine, queued]
  have there : ((s.unlink n).updateOrder n fun r => { r with rush := false }).findOrder n
      = some { o with rush := false } := by
    rw [findOrder_updateOrder (fun _ => by rfl), show (s.unlink n).findOrder n = some o from found]; rfl
  rw [finishOrder_offMachine there off]
  exact h.relinked found off
    (f := fun r => { r with rush := false, state := .done, outcome := some .cancelled, attention := true, stacked := false })
    (rewriteAt_rewriteAt (by intro _; rfl) _) rfl rfl rfl (h.book.unlinked n) (fun _ _ => Iff.rfl)
    (iff_of_false (not_mem_unlinked _ _) nofun)

theorem answerCancelOrder (h : s.Coherent) : (answerCancelOrder b s).Leaves State.Coherent := by
  simp only [Machine.answerCancelOrder, Answer.leaves_refuseIf]
  intro _
  split
  · trivial
  · next o found =>
    split
    · next e => exact h.finishOrder fun r hr => by rw [found] at hr; cases hr; rw [e]; nofun
    · next e => exact h.cancelQueued found e
    · next e =>
      refine h.unstack.finishOrder fun r hr => ?_
      have kept : (s.unstack _).findOrder _ = some { o with stacked := false } :=
        (findOrder_updateOrder (fun _ => by rfl)).trans (by rw [show State.findOrder { s with
          suspended := s.suspended.filter fun m => m != field b 0 2 } _ = some o from found]; rfl)
      rw [kept] at hr
      cases hr
      rw [e]
      nofun
    · trivial
    · exact h.answerCancelRunning

theorem answerRetireOrder (h : s.Coherent) : (answerRetireOrder b s).Leaves State.Coherent := by
  simp only [Machine.answerRetireOrder, Answer.leaves_refuseIf]
  intro _
  split
  · trivial
  · next o found =>
    simp only [Answer.leaves_refuseIf, Answer.leaves_done]
    intro isDone
    have freed : (State.gradeRefDown
        { s with orders := s.orders.filter fun r => r.fields.number != field b 0 2 } o.fields.grade).Coherent := by
      refine h.rebook (h.book.retireOrder found (by simpa using isDone)) rfl rfl rfl rfl (h.bases_map fun g bound => ?_)
      split <;> exact bound
    exact freed.setPostponed.recheckAll

/-! ### The requests of the grade table -/

theorem answerEnterGrade (h : s.Coherent) : (answerEnterGrade b s).Leaves State.Coherent := by
  simp only [Machine.answerEnterGrade, Answer.leaves_refuseIf, Answer.leaves_done]
  intro _ range fresh room
  have free : (s.grades.map (·.slot)).length < Config.gradeSlots := by
    simp [State.freeGrades] at room ⊢; omega
  refine h.rebook (h.book.enterGrade (by simpa using fresh) (lowestFree_spec free).2.1) rfl rfl rfl rfl fun g mem => ?_
  rcases List.mem_append.mp mem with mem | new
  · exact h.bases g mem
  · obtain rfl := List.mem_singleton.mp new
    exact valuesOk_bounded (by simp only [Bool.not_eq_false', Bool.and_eq_true] at range; exact range.2)

theorem answerAmendGrade (h : s.Coherent) : (answerAmendGrade b s).Leaves State.Coherent := by
  simp only [Machine.answerAmendGrade, Answer.leaves_refuseIf]
  intro _ _
  split
  · trivial
  · simp only [Answer.leaves_refuseIf, Answer.leaves_done]
    intro values _
    refine (h.rebook (h.book.amendGrade _) rfl rfl rfl rfl (h.bases_map fun g bound => ?_)).recheckAll
    split
    · exact valuesOk_bounded (by simpa using values)
    · exact bound

theorem answerRetireGrade (h : s.Coherent) : (answerRetireGrade b s).Leaves State.Coherent := by
  simp only [Machine.answerRetireGrade, Answer.leaves_refuseIf]
  intro _ _
  split
  · trivial
  · next found =>
    simp only [Answer.leaves_refuseIf, Answer.leaves_done]
    intro unused
    exact (h.rebook (h.book.retireGrade found (by simpa using unused)) rfl rfl rfl rfl fun g mem =>
      h.bases g (List.mem_filter.mp mem).1).recheckAll

/-! ### The other requests -/

theorem answerConfigure (h : s.Coherent) : (answerConfigure b s).Leaves State.Coherent := by
  simp only [Machine.answerConfigure, Answer.leaves_refuseIf, Answer.leaves_ok]
  intro _ _ _ _
  exact h.setConfig.setDraws.takeEvents fun _ _ a => a.lowReelIfLow

theorem answerSetErrorPolicy (h : s.Coherent) : (answerSetErrorPolicy b s).Leaves State.Coherent :=
  Answer.leaves_refuseIf.mpr fun _ => h.setErrors

theorem answerClearErrors (h : s.Coherent) : (answerClearErrors b s).Leaves State.Coherent :=
  Answer.leaves_refuseIf.mpr fun _ => h.setErrors

theorem answerReleaseHold (h : s.Coherent) : (answerReleaseHold b s).Leaves State.Coherent := by
  simp only [Machine.answerReleaseHold, Answer.leaves_refuseIf, Answer.leaves_done]
  intro _ _
  refine attemptLaunch ?_
  unfold State.leaveHold
  split
  · exact h.setErrors.goTestAll
  · exact h

theorem clearWaiting (h : s.Coherent) (w : Waiting) : (s.clearWaiting w).Coherent := by
  cases w with
  | error => exact h.setErrors
  | order o => exact h.updateOrder (by intro _; exact ⟨rfl, rfl, rfl⟩)
  | reel k p => exact h.setSlotSame rfl
  | nothing => exact h

theorem answerCollect (h : s.Coherent) : (answerCollect b s).Leaves State.Coherent := by
  simp only [Machine.answerCollect, Answer.leaves_refuseIf, Answer.leaves_done]
  exact fun _ => h.clearWaiting _

theorem answerRefreshBond (h : s.Coherent) : (answerRefreshBond b s).Leaves State.Coherent :=
  Answer.leaves_refuseIf.mpr fun _ => h.refreshAll

theorem answerLineReset (h : s.Coherent) : (answerLineReset b s).Leaves State.Coherent := by
  simp only [Machine.answerLineReset, Answer.leaves_refuseIf, Answer.leaves_done]
  exact fun _ _ _ => h.lineReset

theorem answerPlaceCull (h : s.Coherent) : (answerPlaceCull b s).Leaves State.Coherent := by
  simp only [Machine.answerPlaceCull, Answer.leaves_refuseIf, Answer.leaves_done]
  exact fun _ _ _ _ _ _ => h.placeNewCull rfl

theorem answerAnnounceReel (h : s.Coherent) : (answerAnnounceReel b s).Leaves State.Coherent := by
  simp only [Machine.answerAnnounceReel, Answer.leaves_refuseIf]
  intro _
  split
  · simp only [Answer.leaves_refuseIf, Answer.leaves_done]
    exact fun _ _ => h.announce
  · trivial

theorem answerWithdrawReel (h : s.Coherent) : (answerWithdrawReel b s).Leaves State.Coherent := by
  simp only [Machine.answerWithdrawReel, Answer.leaves_refuseIf]
  intro _
  split
  · trivial
  · rw [Answer.leaves_refuseIf]
    intro _
    split
    · trivial
    · next withdrawn => exact (h.setSlotOut (withdrawn_outOfRole withdrawn)).readyChanged

theorem answerThreadReel (h : s.Coherent) : (answerThreadReel b s).Leaves State.Coherent := by
  simp only [Machine.answerThreadReel, Answer.leaves_refuseIf]
  intro _
  split
  · trivial
  · rw [Answer.leaves_refuseIf]
    intro none
    split
    · trivial
    · exact (h.setSlot fun _ => runningPos_none (by simpa using none) _).afterThread

theorem answerUnthreadReel (h : s.Coherent) : (answerUnthreadReel b s).Leaves State.Coherent := by
  simp only [Machine.answerUnthreadReel, Answer.leaves_refuseIf]
  intro _
  split
  · trivial
  · split
    · trivial
    · simp only [Answer.leaves_refuseIf, Answer.leaves_done]
      exact fun _ _ => (h.setSlotOut rfl).setSeq

theorem answerRequestSplice (h : s.Coherent) : (answerRequestSplice b s).Leaves State.Coherent := by
  simp only [Machine.answerRequestSplice, Answer.leaves_refuseIf]
  intro _
  split
  · trivial
  · simp only [Answer.leaves_refuseIf, Answer.leaves_done]
    exact fun _ _ => h.armNow

theorem answerClearStand (h : s.Coherent) : (answerClearStand b s).Leaves State.Coherent := by
  simp only [Machine.answerClearStand, Answer.leaves_refuseIf]
  intro _
  split
  · trivial
  · simp only [Answer.leaves_refuseIf, Answer.leaves_done]
    exact fun _ _ => h.setSeq.nextState

theorem answerClearStation (h : s.Coherent) : (answerClearStation b s).Leaves State.Coherent := by
  simp only [Machine.answerClearStation, Answer.leaves_refuseIf]
  intro _
  split
  · trivial
  · exact Answer.leaves_refuseIf.mpr fun _ => h.clearStation

theorem answered (h : s.Coherent) {a : Answer} {k : Nat} (g : a.Leaves State.Coherent) : (answered k s a).Coherent := by
  cases a with
  | error st => exact h.respond
  | ok r => exact respond (t := r.state) g

theorem answeredRead (h : s.Coherent) {a : Answer} {k : Nat} (g : a.Leaves (· = s)) : (Machine.answered k s a).Coherent :=
  h.answered (g.imp fun _ e => e ▸ h)

/-- A request leaves a consistent state consistent. -/
theorem takeRequest (h : s.Coherent) (i : Instr) : (takeRequest i s).Coherent := by
  cases i
  case null => exact h.answeredRead answerNull_leaves
  case readLine => exact h.answeredRead answerReadLine_leaves
  case configure => exact h.answered h.answerConfigure
  case readConfig => exact h.answeredRead answerReadConfig_leaves
  case lineReset => exact h.answered h.answerLineReset
  case readErrors => exact h.answeredRead answerReadErrors_leaves
  case setErrorPolicy => exact h.answered h.answerSetErrorPolicy
  case clearErrors => exact h.answered h.answerClearErrors
  case releaseHold => exact h.answered h.answerReleaseHold
  case collect => exact h.answered h.answerCollect
  case enterOrder => exact h.answered h.answerEnterOrder
  case amendOrder => exact h.answered h.answerAmendOrder
  case scheduleOrder => exact h.answered h.answerScheduleOrder
  case unscheduleOrder => exact h.answered h.answerUnscheduleOrder
  case rushOrder => exact h.answered h.answerRushOrder
  case cancelOrder => exact h.answered h.answerCancelOrder
  case retireOrder => exact h.answered h.answerRetireOrder
  case readOrder => exact h.answeredRead answerReadOrder_leaves
  case readSequence => exact h.answeredRead answerReadSequence_leaves
  case enterGrade => exact h.answered h.answerEnterGrade
  case amendGrade => exact h.answered h.answerAmendGrade
  case retireGrade => exact h.answered h.answerRetireGrade
  case readGrade => exact h.answeredRead answerReadGrade_leaves
  case placeCull => exact h.answered h.answerPlaceCull
  case readMarks => exact h.answeredRead answerReadMarks_leaves
  case announceReel => exact h.answered h.answerAnnounceReel
  case withdrawReel => exact h.answered h.answerWithdrawReel
  case threadReel => exact h.answered h.answerThreadReel
  case unthreadReel => exact h.answered h.answerUnthreadReel
  case readReel => exact h.answeredRead answerReadReel_leaves
  case requestSplice => exact h.answered h.answerRequestSplice
  case clearStand => exact h.answered h.answerClearStand
  case readStand => exact h.answeredRead answerReadStand_leaves
  case clearStation => exact h.answered h.answerClearStation
  case readSlitter => exact h.answeredRead answerReadSlitter_leaves
  case readKnife => exact h.answeredRead answerReadKnife_leaves
  case refreshBond => exact h.answered h.answerRefreshBond
  case readBond => exact h.answeredRead answerReadBond_leaves
  case readStationQueues => exact h.answeredRead answerReadStationQueues_leaves
  all_goals exact h

/-! ### Reports, exchanges and the millisecond -/

theorem routeReport (h : s.Coherent) {src : Source} {k : ReportKind} {body : List Byte} :
    (s.routeReport src k body).Coherent := by
  unfold State.routeReport
  repeat' split
  all_goals
    first
    | exact h
    | exact h.reelLoaded
    | exact h.reelRemoved
    | exact h.diameterReport
    | exact h.setPositions
    | exact h.stackTaken

theorem reportFrame (h : s.Coherent) (bs : List Byte) : (s.reportFrame bs).Coherent := by
  unfold State.reportFrame
  split
  · exact h.raise
  · exact h.routeReport

theorem endReception (h : s.Coherent) : s.endReception.Coherent := by
  unfold State.endReception
  split
  · exact h.setReceiver.raise
  · exact h

theorem receiveOne (h : s.Coherent) (x : Option Byte) : (s.receiveOne x).Coherent := by
  cases x with
  | some b =>
    simp only [State.receiveOne, State.receiveByte]
    split
    · split <;> exact h.setReceiver
    · split
      · exact h.setReceiver.reportFrame _
      · exact h.setReceiver
  | none =>
    simp only [State.receiveOne, State.receiveRest]
    split
    · exact h
    · split
      · exact h.setReceiver
      · exact h.endReception

theorem receive (h : s.Coherent) (heard : List (Option Byte)) : (s.receive heard).Coherent := by
  unfold State.receive
  induction heard generalizing s with
  | nil => exact h
  | cons x xs ih => exact ih (h.receiveOne x)

theorem exchangeEnds (h : s.Coherent) (frame : List Byte) : (s.exchangeEnds frame).Coherent := by
  unfold State.exchangeEnds
  split
  · exact h
  · split
    · exact h.takeRequest _
    · exact h.respond

theorem tick (h : s.Coherent) : s.tick.Coherent := by
  have start : s.millisecond.Coherent := h.quiet rfl rfl ⟨rfl, rfl, rfl⟩ rfl rfl
  have queued : ∀ (n : Nat) (es : List Instr) (u : State), u.Coherent → (runEvents State.queueEvent n es u).Coherent := by
    intro n
    induction n with
    | zero => exact fun _ _ h => h
    | succ n ih =>
      intro es u h
      match es with
      | [] => exact h
      | [_] => exact h.setPending
      | _ :: _ :: _ => exact ih _ _ (h.drawn.setPending)
  exact queued _ _ _ start

/-- Every command leads from a consistent state to a consistent state. -/
theorem exec (h : s.Coherent) (i : Instr) : ∃ t, exec i s = .next t ∧ t.Coherent := by
  by_cases r : (requestParts i).isSome = true
  · exact ⟨_, exec_request r s, h.takeRequest i⟩
  · cases i <;> first | exact absurd rfl r | refine ⟨_, rfl, ?_⟩
    case forwardCount =>
      unfold State.encoderPeriod
      dsimp only
      split
      · exact h.setInputs
      · exact h.setInputs.forwardCount
    case reverseCount =>
      unfold State.encoderPeriod State.reverseCount
      dsimp only
      split
      · exact h.setInputs
      · split
        · exact h.setInputs
        · exact raise (t := { s with inputs := _, reverseRun := true }) (h.quiet rfl rfl ⟨rfl, rfl, rfl⟩ rfl rfl)
    case speedWindowClose => exact h.windowClose
    case lineStopped => split <;> [exact h.quiet rfl rfl ⟨rfl, rfl, rfl⟩ rfl rfl; exact h]
    case cutPulse =>
      unfold State.cutPeriod
      split
      · exact h.setInputs.cutPulse
      · exact h.setInputs
    case jointPulse =>
      unfold State.jointPeriod
      split
      · exact h.setInputs.jointPulse
      · exact h.setInputs
    case deviceReset => exact State.coherent_iff.mpr reset_consistent
    case reelLoaded => split <;> [exact h.raise; exact h.reelLoaded]
    case reelRemoved => exact h.reelRemoved
    case diameter => split <;> [exact h.raise; exact h.diameterReport]
    case setPositions => split <;> [exact h.setPositions; exact h.raise]
    case stackTaken => exact h.stackTaken
    case malformedReport => exact h.receive _
    case reportFrameTimeout => exact h.endReception
    case spliceTimeout => exact h.spliceTimeout
    case setTimeout => exact h.setTimeout
    case diameterStale => exact h.staleTest
    case runOut => exact h.runOutIfEmpty
    case bumpEnd => exact h.endBump
    case arbiterTake => exact h.arbiterTake
    case spliceGo => split <;> [exact h.goSent.freePlace; exact h]
    case speedCap => split <;> [exact h.freePlace; exact h]
    case knifeSchedule => split <;> [exact h.freePlace; exact h]
    case slitterSet => split <;> [exact h.setSent.freePlace; exact h]
    case slitterExchange => split <;> [exact h.exchangeSent.freePlace; exact h]
    case stackChange => split <;> [exact h.freePlace; exact h]
    case bondSetpoint => split <;> [exact h.setpointSent.freePlace; exact h]
    case requestFrameRefused => exact h.exchangeEnds _

end State.Coherent

/-- Settles O60: a step is the front command or a millisecond, and each keeps a consistent state consistent. -/
theorem consistencyIsKept : Obligations.ConsistencyIsKept := by
  intro s t consistent e
  have h := State.coherent_iff.mpr consistent
  refine State.coherent_iff.mp ?_
  unfold step at e
  split at e
  · cases e
    exact h.tick
  · next i rest _ =>
    obtain ⟨u, run, coherent⟩ := (h.setPending (l := rest)).exec i
    cases run.symm.trans e
    exact coherent

end Sys2Proof.Machine
end

section
/-! PROOF. The requests that enter, move and retire orders (O15, O17, O21). -/

namespace Sys2Proof.Machine

open Sys2Proof

variable {b : List Byte} {s : State} {o : Order}

theorem answered_error (k : Nat) (s : State) (st : Status) :
    answered k s (.error st) = s.respond (BitVec.ofNat 8 k) st [] := rfl

/-! ### ENTER ORDER (R34) -/

theorem exec_enterOrder (b : List Byte) (s : State) (a : Answer) (answer : answerEnterOrder b s = a) :
    exec (.enterOrder b) s = .next (answered 0x10 s a) := answer ▸ rfl

/-- R34: with a free slot and every test passed the record is added and its grade referenced. -/
theorem answerEnterOrder_room (len : orderBodyLengthOk b = true) (valid : (readOrderBody b).valid = true)
    (span : (readOrderBody b).spanOk = true) (grade : (s.findGrade (readOrderBody b).grade).isSome)
    (fresh : s.findOrder (readOrderBody b).number = none) (room : s.orders.length < 64) :
    answerEnterOrder b s = done (State.gradeRefUp { s with
        orders := s.orders ++ [Order.entered (lowestFree (s.orders.map (·.slot)) 64) (readOrderBody b)] }
        (readOrderBody b).grade)
      (byteOf (lowestFree (s.orders.map (·.slot)) 64) ++ byteOf (63 - s.orders.length)) := by
  have known : (s.findGrade (readOrderBody b).grade).isNone = false := by
    rw [Option.isNone_eq_false_iff]; exact grade
  have free : (s.freeOrders == 0) = false := by
    simp only [State.freeOrders, Config.orderSlots, beq_eq_false_iff_ne]; omega
  have left : State.freeOrders (State.gradeRefUp { s with
      orders := s.orders ++ [Order.entered (lowestFree (s.orders.map (·.slot)) 64) (readOrderBody b)] }
      (readOrderBody b).grade) = 63 - s.orders.length := by
    simp only [State.freeOrders, State.gradeRefUp, State.updateGrade_orders, List.length_append, Config.orderSlots,
      List.length_singleton]
    omega
  simp only [answerEnterOrder, len, valid, span, known, fresh, free, Option.isSome_none, Bool.not_true, refuseIf_false]
  exact congrArg (fun n => done _ (_ ++ byteOf n)) left

/-- Settles O15, one test of the request after the other. -/
theorem enterOrderTestsAndAdds : Obligations.EnterOrderTestsAndAdds := by
  refine fun b s => ⟨fun len => ?_, fun len bad => ?_, fun len valid span => ⟨fun absent => ?_, fun grade =>
    ⟨fun taken => ?_, fun fresh full => ?_, fun fresh room => ?_⟩⟩⟩
  · exact exec_enterOrder b s (.error .format) (by simp [answerEnterOrder, len])
  · refine exec_enterOrder b s (.error .range) ?_
    rcases bad with bad | bad
    · simp [answerEnterOrder, len, bad]
    · cases valid : (readOrderBody b).valid <;> simp [answerEnterOrder, len, bad, valid]
  · exact exec_enterOrder b s (.error .noSuch) (by simp [answerEnterOrder, len, valid, span, absent])
  · have known : (s.findGrade (readOrderBody b).grade).isNone = false := by
      rw [Option.isNone_eq_false_iff]; exact grade
    exact exec_enterOrder b s (.error .exists) (by simp only [answerEnterOrder, len, valid, span, known, taken, Bool.not_true, refuseIf_false,
      refuseIf_true])
  · have known : (s.findGrade (readOrderBody b).grade).isNone = false := by
      rw [Option.isNone_eq_false_iff]; exact grade
    have none : (s.freeOrders == 0) = true := by
      simp only [State.freeOrders, Config.orderSlots, beq_iff_eq]; omega
    exact exec_enterOrder b s (.error .full) (by simp only [answerEnterOrder, len, valid, span, known, fresh, none, Option.isSome_none,
      Bool.not_true, refuseIf_false, refuseIf_true])
  · obtain ⟨below, unused, lowest⟩ := lowestFree_spec (used := s.orders.map (·.slot)) (n := 64) (by simpa using room)
    exact ⟨_, below, unused, lowest, exec_enterOrder b s _ (answerEnterOrder_room len valid span grade fresh room)⟩

/-! ### SCHEDULE ORDER and UNSCHEDULE ORDER (R35, R36) -/

theorem exec_scheduleOrder (b : List Byte) (s : State) (a : Answer) (answer : answerScheduleOrder b s = a) :
    exec (.scheduleOrder b) s = .next (answered 0x12 s a) := answer ▸ rfl

theorem exec_unscheduleOrder (b : List Byte) (s : State) (a : Answer) (answer : answerUnscheduleOrder b s = a) :
    exec (.unscheduleOrder b) s = .next (answered 0x13 s a) := answer ▸ rfl

/-- R61: in HOLD nothing is launched. -/
theorem attemptLaunch_hold (hold : s.errors.hold = true) : s.attemptLaunch = (none, s) := if_pos hold

/-- R32, R35: the run sequence with order n at its place. -/
def sequenceWith (n place a : Nat) (l : List Nat) : List Nat :=
  match place with
  | 0 => n :: l.filter (· != n)
  | 1 => l.filter (· != n) ++ [n]
  | _ => insertAfter a n (l.filter (· != n))

/-- R35: what the placing of an order writes. -/
theorem placedAt_eq (n place a : Nat) (s : State) : placedAt n place a s = { s with
    runSeq := sequenceWith n place a s.runSeq
    orders := s.orders.map fun x =>
      if x.fields.number == n then { x with rush := false, state := .queued } else x } := by
  have once := rewriteAt_rewriteAt (n := n) (f := fun o => { o with rush := false })
    (g := fun o => { o with state := .queued }) (fun _ => rfl) s.orders
  simp only [rewriteAt, Function.comp_def] at once
  rw [← once]
  match place with
  | 0 => rfl
  | 1 => rfl
  | _ + 2 => rfl

theorem placedAt_found {n place a : Nat} (found : s.findOrder n = some o) :
    (placedAt n place a s).findOrder n = some { o with rush := false, state := .queued } := by
  rw [placedAt_eq]
  have := findOrder_updateOrder (s := s) (n := n) (f := fun o => { o with rush := false, state := .queued }) fun _ => rfl
  rw [found] at this
  exact this

/-- R35: an accepted SCHEDULE ORDER in HOLD. -/
theorem scheduleAt_hold {n place a : Nat} (found : s.findOrder n = some o) (hold : s.errors.hold = true) :
    scheduleAt n place a s
      = done (placedAt n place a s) (byteOf 1 ++ byteOf (sequenceWith n place a s.runSeq).length) := by
  have still : (placedAt n place a s).attemptLaunch.2 = placedAt n place a s := by
    rw [attemptLaunch_hold (by rw [placedAt_eq]; exact hold)]
  rw [scheduleAt_eq, still]
  have code : (placedAt n place a s).orderStateByte n = byteOf 1 := by
    rw [State.orderStateByte, placedAt_found found]; rfl
  rw [code]
  congr
  rw [placedAt_eq]

/-- Settles O17. -/
theorem scheduleAndUnscheduleMoveInTheSequence : Obligations.ScheduleAndUnscheduleMoveInTheSequence := by
  refine ⟨fun b s o len hold found waits place => ?_, fun b s len => ⟨fun absent => ?_, fun o found =>
    ⟨fun queued => ?_, fun other => ?_⟩⟩⟩
  · have answer : answerScheduleOrder b s = scheduleAt (field b 0 2) (field b 2 1) (field b 3 2) s := by
      rcases place with low | ⟨two, some, other, p, there, queued⟩
      · have range : ¬ 2 < field b 2 1 := by omega
        have behind : field b 2 1 ≠ 2 := by omega
        simp only [answerScheduleOrder, len, bne_self_eq_false, range, decide_false, refuseIf_false, found,
          waiting_of waits, Bool.not_true, behind, if_false]
      · simp only [answerScheduleOrder, len, bne_self_eq_false, two, lt_irrefl, decide_false, refuseIf_false, found,
          waiting_of waits, Bool.not_true, if_true, beq_eq_false_iff_ne.mpr some, beq_eq_false_iff_ne.mpr other,
          Bool.or_self, there, queued]
    refine ⟨sequenceWith (field b 0 2) (field b 2 1) (field b 3 2) s.runSeq, _, ?_, rfl, fun e => ?_, fun e => ?_,
      fun e => ?_⟩
    · rw [exec_scheduleOrder b s _ (answer.trans (scheduleAt_hold found hold)), placedAt_eq]
      rfl
    all_goals rw [e]; rfl
  · exact exec_unscheduleOrder b s (.error .noSuch) (by simp [answerUnscheduleOrder, len, absent])
  · exact exec_unscheduleOrder b s (done ((s.unlink (field b 0 2)).updateOrder (field b 0 2) fun r =>
      { r with state := .entered, rush := false }) []) (by simp [answerUnscheduleOrder, len, found, queued])
  · exact exec_unscheduleOrder b s (.error .state) (by
      simp [answerUnscheduleOrder, len, found, bne_iff_ne.mpr other])

/-! ### RETIRE ORDER (R41) -/

theorem exec_retireOrder (b : List Byte) (s : State) (a : Answer) (answer : answerRetireOrder b s = a) :
    exec (.retireOrder b) s = .next (answered 0x16 s a) := answer ▸ rfl

/-- Settles O21: the freed slot and the grade's reference; then the waiting stands repeat their checks. -/
theorem retireOrderFreesItsSlot : Obligations.RetireOrderFreesItsSlot := by
  refine fun b s len => ⟨fun absent => ?_, fun o found => ⟨fun other => ?_, fun isDone => ?_⟩⟩
  · exact exec_retireOrder b s (.error .noSuch) (by simp [answerRetireOrder, len, absent])
  · exact exec_retireOrder b s (.error .state) (by
      simp [answerRetireOrder, len, found, bne_iff_ne.mpr other])
  · have answer : answerRetireOrder b s = done ((State.gradeRefDown
        { s with orders := s.orders.filter fun r => r.fields.number != field b 0 2 } o.fields.grade).retirePostponed
          (field b 0 2)).recheckAll (byteOf (64 - (s.orders.filter fun r => r.fields.number != field b 0 2).length)) := by
      simp only [answerRetireOrder, len, bne_self_eq_false, refuseIf_false, found, isDone]
      rfl
    exact ⟨_, exec_retireOrder b s _ answer, (WaitersOnly.recheckAll _).frame⟩

end Sys2Proof.Machine
end

section
/-! PROOF. AMEND ORDER and CANCEL ORDER (O16, O20). -/

namespace Sys2Proof.Machine

open Sys2Proof

/-! ### The record of one order rewritten -/

section Rewritten

variable {s t : State} {n : Nat} {o : Order} {f : Order → Order} (orders : t.orders = rewriteAt n f s.orders)
include orders

theorem findOrder_rewritten (keep : ∀ r : Order, r.fields.number = n → (f r).fields.number = n) :
    t.findOrder n = (s.findOrder n).map f := by
  have same : ((fun r : Order => r.fields.number == n) ∘ fun r => if r.fields.number == n then f r else r)
      = fun r => r.fields.number == n := by
    funext r
    by_cases e : r.fields.number = n <;> simp [e, keep]
  rw [State.findOrder, orders, rewriteAt, List.find?_map, same]
  refine Option.map_congr fun r found => ?_
  exact if_pos (List.find?_some found)

theorem rewritten_length : t.orders.length = s.orders.length := by rw [orders, rewriteAt, List.length_map]

theorem mem_rewritten {r : Order} (mem : r ∈ s.orders) (other : r.fields.number ≠ n) : r ∈ t.orders := by
  rw [orders]
  exact List.mem_map.mpr ⟨r, mem, by simp [other]⟩

end Rewritten

/-! ### The end of an amended order (R75) -/

/-- R75: the base B of an amended order whose segment ends at mark m. -/
def amendBase (s : State) (m : ChangeMark) (x : Outgoing) : Coord :=
  match s.knife.grid with
  | some g => if g.pos = .segment m.uid then g.n - BitVec.ofNat 32 g.sheet else x.start
  | none => x.start

theorem shiftBy_neg (c : Coord) (n : Nat) : shiftBy c (-(n : Int)) = c - BitVec.ofNat 32 n := by
  rw [shiftBy, BitVec.ofInt_neg, BitVec.ofInt_natCast, BitVec.sub_eq_add_neg]

section AmendEnd

variable {s : State} {n : Nat}

/-- R75: the order's latest segment ends at the provisional mark, which is not pinned. -/
theorem amendEnd_moves {o : Order} {pr : Provisional} {m : ChangeMark} {x : Outgoing} (found : s.findOrder n = some o)
    (provisional : s.provisional = some (pr, m)) (outgoing : m.outgoing = some x) (own : x.order = n)
    (free : m.pinned = false) : s.amendEnd n =
      State.moveEnd
        { s with planner := some ⟨m.uid, amendBase s m x, max 1 (s.need o (some m.uid) + o.fields.allowance)⟩ } m
        (laterOf (cleanEnd s.cullZones x.cutLength (max 1 (s.need o (some m.uid) + o.fields.allowance))
          (amendBase s m x)) (s.floorEnd x)) := by
  simp only [State.amendEnd, provisional, found, outgoing, own, free, BEq.rfl, Bool.not_false, Bool.and_self, if_true,
    shiftBy_neg]
  rfl

/-- R59, R108: what a moved end leaves, after the repeated reel checks. -/
theorem moved_rechecked {m : ChangeMark} {p : Coord} (here : s.findChange m.uid = some m) :
    ∃ t, (s.moveEnd m p).recheckAll = t ∧ SpliceFrame { s with marks := t.marks } t
      ∧ t.marks.length = s.marks.length
      ∧ Mark.change { m with p := p, xEx := if p = m.p then m.xEx else p } ∈ t.marks := by
  refine ⟨_, rfl, ?_⟩
  rw [(State.recheckAll_frame _).marks]
  refine ⟨(moveEnd_frame s m p).trans (State.recheckAll_frame _), moveEnd_length (findChange_hasMark here) p, ?_⟩
  have moved := mem_moveEnd_self (p := p) here
  split at moved
  · next same => subst same; simpa using moved
  · next other => rw [if_neg other]; exact moved

/-- R75: any other amend leaves the end where it is. -/
theorem amendEnd_stays (pinned : ∀ pr m x, s.provisional = some (pr, m) → m.outgoing = some x → x.order = n →
    m.pinned = true) : s.amendEnd n = s := by
  unfold State.amendEnd
  split
  · next pr m o provisional found =>
    split
    · next x outgoing =>
      refine if_neg fun test => ?_
      simp only [Bool.and_eq_true, beq_iff_eq, Bool.not_eq_true'] at test
      rw [pinned pr m x provisional outgoing test.1] at test
      cases test.2
    · rfl
  · rfl

end AmendEnd

/-! ### AMEND ORDER (R37, R38) -/

theorem exec_amendOrder (b : List Byte) (s : State) (a : Answer) (answer : answerAmendOrder b s = a) :
    exec (.amendOrder b) s = .next (answered 0x11 s a) := answer ▸ rfl

/-- R37: a reference moved from one grade to another, one grade at a time. -/
theorem gradeRef_moved {s : State} {old new : Nat} (other : new ≠ old) :
    ((s.gradeRefDown old).gradeRefUp new).grades = s.grades.map fun g =>
      if g.fields.number == new then { g with refs := g.refs + 1 }
      else if g.fields.number == old then { g with refs := g.refs - 1 } else g := by
  simp only [State.gradeRefDown, State.gradeRefUp, State.updateGrade_grades, List.map_map]
  refine List.map_congr_left fun g _ => ?_
  by_cases down : g.fields.number = old
  · have apart : old ≠ new := Ne.symm other
    simp [down, apart]
  · simp [down]

section Amend

variable {d : OrderDef} {o : Order} {s : State}

/-- R38: the tests of an amend of an order on the machine, passed. -/
theorem answerAmendRunning_accepted (others : d.sameOthers o.fields = true) (quantity : quantityOk d.quantity = true)
    (stackSize : stackSizeOk d.stackSize = true) (span : d.spanOk = true) : answerAmendRunning d o s =
      (let t := s.updateOrder d.number fun r => { r with fields := d }
      done (if o.state = .running ∧ d.quantity ≠ o.fields.quantity then t.amendEnd d.number else t).recheckAll []) := by
  simp only [answerAmendRunning, others, quantity, stackSize, span, Bool.not_true, Bool.and_self, refuseIf_false]

/-- R37: an accepted amend of a waiting order. -/
theorem answerAmendWaiting_accepted (valid : d.valid = true) (span : d.spanOk = true)
    (grade : (s.findGrade d.grade).isSome) : ∃ t, answerAmendWaiting d o s = done t []
      ∧ SpliceFrame { s with
        orders := s.orders.map fun r => if r.fields.number == d.number then { r with fields := d } else r
        grades := if d.grade = o.fields.grade then s.grades
          else s.grades.map fun g =>
            if g.fields.number == d.grade then { g with refs := g.refs + 1 }
            else if g.fields.number == o.fields.grade then { g with refs := g.refs - 1 } else g } t := by
  have known : (s.findGrade d.grade).isNone = false := by rw [Option.isNone_eq_false_iff]; exact grade
  refine ⟨_, by simp only [answerAmendWaiting, valid, span, known, Bool.not_true, refuseIf_false]; rfl, ?_⟩
  by_cases same : d.grade = o.fields.grade
  · simp only [if_pos same]
    exact State.recheckAll_frame _
  · simp only [if_neg same]
    rw [← gradeRef_moved same]
    exact State.recheckAll_frame _

end Amend

/-- Settles O16. -/
theorem amendOrderActsByState : Obligations.AmendOrderActsByState := by
  intro b s o len found
  have isDone : o.state = .done → answerAmendOrder b s = .error .state := fun e => by
    simp only [answerAmendOrder, len, Bool.not_true, refuseIf_false, found, e]
  have waits : o.state = .entered ∨ o.state = .queued → answerAmendOrder b s = answerAmendWaiting (readOrderBody b) o s :=
    fun e => by rcases e with e | e <;> simp only [answerAmendOrder, len, Bool.not_true, refuseIf_false, found, e]
  have onLine : o.state = .running ∨ o.state = .suspended → answerAmendOrder b s = answerAmendRunning (readOrderBody b) o s :=
    fun e => by rcases e with e | e <;> simp only [answerAmendOrder, len, Bool.not_true, refuseIf_false, found, e]
  generalize readOrderBody b = d at found isDone waits onLine ⊢
  have written : (s.updateOrder d.number fun r => { r with fields := d }).findOrder d.number
      = some { o with fields := d } :=
    (findOrder_rewritten (s := s) (f := fun r => { r with fields := d }) rfl fun _ _ => rfl).trans (by rw [found]; rfl)
  have passes {u : State} (on : o.state = .running ∨ o.state = .suspended)
      (others : { d with quantity := o.fields.quantity, stackSize := o.fields.stackSize } = o.fields)
      (ok : 1 ≤ d.quantity ∧ d.quantity ≤ 999999 ∧ 5 ≤ d.stackSize ∧ d.stackSize ≤ 2000 ∧ d.spanOk = true)
      (is : (if o.state = .running ∧ d.quantity ≠ o.fields.quantity then
          (s.updateOrder d.number fun r => { r with fields := d }).amendEnd d.number
        else s.updateOrder d.number fun r => { r with fields := d }) = u) :
      exec (.amendOrder b) s = .next (u.recheckAll.respond 0x11#8 .ok []) := by
    obtain ⟨q1, q2, z1, z2, span⟩ := ok
    refine exec_amendOrder b s (done u.recheckAll []) ((onLine on).trans ?_)
    rw [answerAmendRunning_accepted (decide_eq_true others) (by simp [quantityOk, inRange, q1, q2])
      (by simp [stackSizeOk, inRange, z1, z2]) span]
    dsimp only
    rw [is]
  refine ⟨fun e => exec_amendOrder b s (.error .state) (isDone e), fun e valid span grade => ?_,
    fun on other => exec_amendOrder b s (.error .state) ((onLine on).trans ?_), fun suspended ⟨others, ok⟩ => ?_, fun running ⟨others, ok⟩ =>
    ⟨fun stays => ?_, fun changed pr m x provisional outgoing own free => ?_⟩⟩
  · obtain ⟨t, accepted, frame⟩ := answerAmendWaiting_accepted (o := o) valid span grade
    exact ⟨t, exec_amendOrder b s (done t []) ((waits e).trans accepted), frame⟩
  · have differs : d.sameOthers o.fields = false := decide_eq_false other
    simp only [answerAmendRunning, differs, Bool.not_false, refuseIf_true]
  · exact ⟨_, passes (.inr suspended) others ok (if_neg (by rw [suspended]; exact fun h => nomatch h.1)),
      State.recheckAll_frame _⟩
  · refine ⟨_, passes (u := s.updateOrder d.number fun r => { r with fields := d }) (.inl running) others ok ?_,
      State.recheckAll_frame _⟩
    rcases stays with same | pinned
    · exact if_neg fun h => h.2 same
    · rw [amendEnd_stays (s := s.updateOrder _ _) pinned, ite_self]
  · have moves := amendEnd_moves (s := s.updateOrder d.number fun r => { r with fields := d }) written provisional
      outgoing own free
    have here : s.findChange m.uid = some m := provisional_findChange provisional
    obtain ⟨t, is, frame, length, mem⟩ := moved_rechecked
      (s := { s.updateOrder d.number fun r => { r with fields := d } with
        planner := some ⟨m.uid, amendBase s m x, max 1 ((s.updateOrder d.number fun r => { r with fields := d }).need
          { o with fields := d } (some m.uid) + d.allowance)⟩ })
      (p := laterOf (cleanEnd s.cullZones x.cutLength (max 1 ((s.updateOrder d.number fun r => { r with fields := d }).need
          { o with fields := d } (some m.uid) + d.allowance)) (amendBase s m x)) (s.floorEnd x)) here
    have run := passes (.inl running) others ok ((if_pos ⟨running, changed⟩).trans moves)
    refine ⟨t, run.trans ?_, frame, length, _, mem, rfl⟩
    rw [← is]
    rfl

/-! ### CANCEL ORDER (R39, R40) -/

theorem exec_cancelOrder (b : List Byte) (s : State) (a : Answer) (answer : answerCancelOrder b s = a) :
    exec (.cancelOrder b) s = .next (answered 0x15 s a) := answer ▸ rfl

/-- R30: the record of an order that ends. -/
def endedRecord (out : OrderOutcome) (r : Order) : Order :=
  { r with state := .done, outcome := some out, attention := true, stacked := false }

/-- R30, R49: an order on the machine ends, and its grade's active count falls. -/
theorem finishOrder_onMachine {s : State} {n : Nat} {o : Order} {out : OrderOutcome} (found : s.findOrder n = some o)
    (on : o.onMachine = true) :
    s.finishOrder n out = (s.updateOrder n (endedRecord out)).gradeActiveDown o.fields.grade := by
  simp only [State.finishOrder, found, if_pos (State.BookAgrees.onMachine_iff.mp on)]
  rfl

/-- R78, R80: the mark of a curtail without a push. -/
def curtailedMark (s : State) (m : ChangeMark) (x : Outgoing) : ChangeMark :=
  if before (s.floorEnd x) m.p then { m with p := s.floorEnd x, xEx := s.floorEnd x, pinned := true }
  else { m with pinned := true }

section Curtail

variable {s : State} {pr : Provisional} {m : ChangeMark} {x : Outgoing} (provisional : s.provisional = some (pr, m))
  (outgoing : m.outgoing = some x)
include provisional outgoing

theorem curtailAndPin_marks : s.curtailAndPin.marks =
    (if before (s.floorEnd x) m.p then s.replaceChange (curtailedMark s m x)
      else s.updateChange m.uid fun y => { y with pinned := true }).marks := by
  simp only [State.curtailAndPin, provisional, outgoing, (State.recheckAll_frame _).marks, curtailedMark]
  split <;> rfl

theorem curtailAndPin_frame : SpliceFrame { s with marks := s.curtailAndPin.marks } s.curtailAndPin := by
  have marks := curtailAndPin_marks provisional outgoing
  rw [marks]
  simp only [State.curtailAndPin, provisional, outgoing, curtailedMark]
  split
  · exact State.recheckAll_frame _
  · exact State.recheckAll_frame _

theorem curtailAndPin_length : s.curtailAndPin.marks.length = s.marks.length := by
  rw [curtailAndPin_marks provisional outgoing]
  split
  · next sooner =>
    have same : (curtailedMark s m x).uid = m.uid := by rw [curtailedMark, if_pos sooner]
    exact replaceChange_length (same ▸ provisional_hasMark provisional)
  · exact List.length_map _

/-- R80: the mark is pinned, at the floor where that comes before its P. -/
theorem mem_curtailAndPin : Mark.change (curtailedMark s m x) ∈ s.curtailAndPin.marks := by
  rw [curtailAndPin_marks provisional outgoing]
  split
  · exact mem_replaceChange_self s _
  · next later =>
    rw [curtailedMark, if_neg later]
    have here := (findChange_mem (provisional_findChange provisional)).1
    exact List.mem_map.mpr ⟨_, here, by simp⟩

end Curtail

/-- R40, measure (b). -/
theorem curtailable_iff {s : State} {n : Nat} : s.curtailable n = true ↔
    ∃ m pr x, s.provisional = some (pr, m) ∧ m.outgoing = some x ∧ x.order = n ∧ m.pinned = false := by
  unfold State.curtailable
  constructor
  · intro h
    split at h
    · next pr m provisional =>
      simp only [Bool.and_eq_true, Bool.not_eq_true'] at h
      obtain ⟨free, own⟩ := h
      split at own
      · next x outgoing => exact ⟨m, pr, x, provisional, outgoing, beq_iff_eq.mp own, free⟩
      · cases own
    · cases h
  · rintro ⟨m, pr, x, provisional, outgoing, own, free⟩
    simp [provisional, outgoing, own, free]

/-- R39: what the cancel of an order off the line leaves, where its record is rewritten by f. -/
theorem cancelled_record {s t : State} {n : Nat} {o : Order} {f : Order → Order} (found : s.findOrder n = some o)
    (orders : t.orders = rewriteAt n f s.orders) (ended : ∀ r, f r = endedRecord .cancelled { r with rush := (f r).rush }) :
    t.orders.length = s.orders.length
      ∧ (∃ x, t.findOrder n = some x ∧ x.state = .done ∧ x.outcome = some .cancelled ∧ x.attention = true
          ∧ x.stacked = false ∧ x.fields = o.fields ∧ x.goodCuts = o.goodCuts ∧ x.cullCuts = o.cullCuts)
      ∧ ∀ r ∈ s.orders, r.fields.number ≠ n → r ∈ t.orders := by
  refine ⟨rewritten_length orders, ⟨f o, ?_, ?_⟩, fun r => mem_rewritten orders⟩
  · rw [findOrder_rewritten orders fun r number => by rw [ended]; exact number, found]; rfl
  · rw [ended]; exact ⟨rfl, rfl, rfl, rfl, rfl, rfl, rfl⟩

section Cancel

variable {s : State} {n : Nat} {o : Order} (found : s.findOrder n = some o)
include found

theorem unstack_found : (s.unstack n).findOrder n = some { o with stacked := false } :=
  (findOrder_rewritten (s := s) (f := fun r => { r with stacked := false }) rfl fun _ number => number).trans
    (by rw [found]; rfl)

/-- R39: an ENTERED order ends where it is. -/
theorem cancelEntered_eq (off : o.onMachine = false) :
    s.finishOrder n .cancelled = { s with orders := rewriteAt n (endedRecord .cancelled) s.orders } :=
  finishOrder_offMachine found off

/-- R39: a QUEUED order leaves the run sequence and its rush flag. -/
theorem cancelQueued_eq (off : o.onMachine = false) :
    ((s.unlink n).updateOrder n fun r => { r with rush := false }).finishOrder n .cancelled
      = { s with runSeq := s.runSeq.filter (· != n)
                 orders := rewriteAt n (fun r => endedRecord .cancelled { r with rush := false }) s.orders } := by
  have there : ((s.unlink n).updateOrder n fun r => { r with rush := false }).findOrder n
      = some { o with rush := false } :=
    (findOrder_rewritten (s := s) (f := fun r => { r with rush := false }) rfl fun _ number => number).trans
      (by rw [found]; rfl)
  rw [finishOrder_offMachine there off]
  have once := rewriteAt_rewriteAt (n := n) (f := fun r => { r with rush := false })
    (g := endedRecord .cancelled) (fun _ => rfl) s.orders
  exact congrArg (fun os => ({ s with runSeq := s.runSeq.filter (· != n), orders := os } : State)) once

/-- R39, R49: a SUSPENDED order leaves the stack, and its grade's active count falls. -/
theorem cancelSuspended_eq (on : o.onMachine = true) : (s.unstack n).finishOrder n .cancelled
    = { s with suspended := s.suspended.filter (· != n)
               orders := rewriteAt n (endedRecord .cancelled) s.orders
               grades := s.grades.map fun g =>
                 if g.fields.number == o.fields.grade then { g with active := g.active - 1 } else g } := by
  rw [finishOrder_onMachine (unstack_found found) on]
  have once := rewriteAt_rewriteAt (n := n) (f := fun r => { r with stacked := false })
    (g := endedRecord .cancelled) (fun _ => rfl) s.orders
  exact congrArg (fun os => ({ s with
    suspended := s.suspended.filter (· != n)
    orders := os
    grades := s.grades.map fun g =>
      if g.fields.number == o.fields.grade then { g with active := g.active - 1 } else g } : State)) once

end Cancel

theorem SpliceFrame.setOrders {s t : State} (h : SpliceFrame s t) {os : List Order} :
    SpliceFrame { s with orders := os } { t with orders := os } := by
  unfold SpliceFrame at *
  rw [h]

/-- R40, measure (a): the order's entry taken off the stack. -/
def unstackedIf (n : Nat) (o : Order) (s : State) : State := if o.stacked then s.unstack n else s

/-- R40, measure (b): the order's unpinned provisional end curtailed. -/
def curtailedIf (n : Nat) (s : State) : State := if s.curtailable n then s.curtailAndPin else s

/-- R40: the order's latest segment ends at the provisional mark m, which is not pinned. -/
def EndsAt (s : State) (n : Nat) (m : ChangeMark) : Prop :=
  ∃ pr x, s.provisional = some (pr, m) ∧ m.outgoing = some x ∧ x.order = n ∧ m.pinned = false

theorem curtailable_false {s : State} {n : Nat} (none : ∀ m, ¬ EndsAt s n m) : s.curtailable n = false :=
  Bool.eq_false_iff.mpr fun h => let ⟨m, ends⟩ := curtailable_iff.mp h; none m ends

/-- R40: what measure (a) does. -/
theorem unstackedIf_spec {s : State} {n : Nat} {o : Order} (found : s.findOrder n = some o) :
    ∃ os, unstackedIf n o s = { s with
        suspended := if o.stacked then s.suspended.filter (· != n) else s.suspended
        orders := os }
      ∧ ({ s with orders := os } : State).findOrder n = some { o with stacked := false }
      ∧ ∀ r ∈ s.orders, r.fields.number ≠ n → r ∈ os := by
  unfold unstackedIf
  by_cases on : o.stacked = true
  · simp only [if_pos on]
    exact ⟨_, rfl, unstack_found found, fun r => mem_rewritten (s := s) (t := s.unstack n)
      (f := fun r => { r with stacked := false }) rfl⟩
  · simp only [if_neg on]
    refine ⟨s.orders, rfl, ?_, fun r mem _ => mem⟩
    rw [← Bool.eq_false_iff.mpr on]
    exact found

/-- R40: what measure (b) does. -/
theorem curtailedIf_spec (n : Nat) (s : State) :
    SpliceFrame { s with marks := (curtailedIf n s).marks } (curtailedIf n s)
      ∧ ((∀ m, ¬ EndsAt s n m) → (curtailedIf n s).marks = s.marks)
      ∧ (curtailedIf n s).marks.length = s.marks.length
      ∧ ∀ m x, EndsAt s n m → m.outgoing = some x → Mark.change (curtailedMark s m x) ∈ (curtailedIf n s).marks := by
  unfold curtailedIf
  by_cases acts : s.curtailable n = true
  · obtain ⟨m, pr, x, provisional, outgoing, own, free⟩ := curtailable_iff.mp acts
    simp only [if_pos acts]
    refine ⟨curtailAndPin_frame provisional outgoing, fun none => ?_, curtailAndPin_length provisional outgoing, ?_⟩
    · exact absurd ⟨pr, x, provisional, outgoing, own, free⟩ (none m)
    · rintro k y ⟨pk, -, here, -⟩ out
      rw [provisional] at here
      cases here
      exact mem_curtailAndPin provisional out
  · simp only [if_neg acts]
    exact ⟨SpliceFrame.refl s, fun _ => trivial, trivial, fun m x ends _ => absurd (curtailable_iff.mpr ⟨m, ends⟩) acts⟩

/-- R40: the cancel of a RUNNING order on which a measure acts. -/
theorem answerCancelRunning_acts {s : State} {n : Nat} {o : Order} (fresh : o.cancel = false)
    (acts : o.stacked = true ∨ ∃ m, EndsAt s n m) : answerCancelRunning n o s
      = done ((curtailedIf n (unstackedIf n o s)).updateOrder n fun r => { r with cancel := true }) [] := by
  have one : (o.stacked || s.curtailable n) = true := by
    rcases acts with on | ends
    · rw [on, Bool.true_or]
    · rw [curtailable_iff.mpr ends, Bool.or_true]
  have same : (unstackedIf n o s).curtailable n = s.curtailable n := by unfold unstackedIf; split <;> rfl
  simp only [answerCancelRunning, fresh, one, Bool.not_true, refuseIf_false, curtailedIf, same]
  rfl

/-- Settles O20. -/
theorem cancelOrderActsByState : Obligations.CancelOrderActsByState := by
  intro b s o len found
  have isDone : o.state = .done → answerCancelOrder b s = .error .state := fun e => by
    simp only [answerCancelOrder, len, bne_self_eq_false, refuseIf_false, found, e]
  have entered : o.state = .entered → answerCancelOrder b s = done (s.finishOrder (field b 0 2) .cancelled) [] := fun e => by
    simp only [answerCancelOrder, len, bne_self_eq_false, refuseIf_false, found, e]
  have queued : o.state = .queued → answerCancelOrder b s = done (((s.unlink (field b 0 2)).updateOrder (field b 0 2)
      fun r => { r with rush := false }).finishOrder (field b 0 2) .cancelled) [] := fun e => by
    simp only [answerCancelOrder, len, bne_self_eq_false, refuseIf_false, found, e]
  have suspended : o.state = .suspended →
      answerCancelOrder b s = done ((s.unstack (field b 0 2)).finishOrder (field b 0 2) .cancelled) [] := fun e => by
    simp only [answerCancelOrder, len, bne_self_eq_false, refuseIf_false, found, e]
  have onLine : o.state = .running → answerCancelOrder b s = answerCancelRunning (field b 0 2) o s := fun e => by
    simp only [answerCancelOrder, len, bne_self_eq_false, refuseIf_false, found, e]
  generalize field b 0 2 = n at *
  refine ⟨fun e => exec_cancelOrder b s (.error .state) (isDone e), fun off => ?_, fun running => ?_⟩
  · rcases off with e | e | e
    · have is := cancelEntered_eq found (by simp [Order.onMachine, e])
      exact ⟨_, exec_cancelOrder b s _ ((entered e).trans (congrArg (done · []) is)), by simp [e],
        cancelled_record found rfl fun _ => rfl⟩
    · have is := cancelQueued_eq found (by simp [Order.onMachine, e])
      exact ⟨_, exec_cancelOrder b s _ ((queued e).trans (congrArg (done · []) is)), by simp [e],
        cancelled_record found rfl fun _ => rfl⟩
    · have is := cancelSuspended_eq found (by simp [Order.onMachine, e])
      exact ⟨_, exec_cancelOrder b s _ ((suspended e).trans (congrArg (done · []) is)), by simp [e],
        cancelled_record found rfl fun _ => rfl⟩
  · have answer {a : Answer} (is : answerCancelRunning n o s = a) := exec_cancelOrder b s a ((onLine running).trans is)
    refine ⟨fun e => answer (a := .error .state) (by simp only [answerCancelRunning, e, refuseIf_true]),
      fun fresh off none => answer (a := .error .tooLate) (by
        simp only [answerCancelRunning, fresh, off, curtailable_false none, Bool.or_self, Bool.not_false, refuseIf_false,
          refuseIf_true]), fun fresh acts => ?_⟩
    obtain ⟨os, is, record, others⟩ := unstackedIf_spec found
    have run := answer (answerCancelRunning_acts fresh acts)
    rw [is] at run
    obtain ⟨frame, still, length, ends⟩ := curtailedIf_spec n { s with
      suspended := if o.stacked then s.suspended.filter (· != n) else s.suspended
      orders := os }
    generalize curtailedIf n _ = u at *
    have orders : u.orders = os := by rw [frame]
    have suspended : u.suspended = if o.stacked then s.suspended.filter (· != n) else s.suspended := by rw [frame]
    have rewritten : (u.updateOrder n fun r => { r with cancel := true }).orders
        = rewriteAt n (fun r => { r with cancel := true }) ({ s with orders := os } : State).orders :=
      congrArg (rewriteAt n fun r => { r with cancel := true }) orders
    refine ⟨_, run, ?_, suspended, ?_, fun r mem other => mem_rewritten rewritten (others r mem other) other, still, length,
      fun m x e out => ⟨_, ends m x e out, rfl⟩⟩
    · have := frame.setOrders (os := (u.updateOrder n fun r => { r with cancel := true }).orders)
      rw [← suspended] at this
      exact this
    · rw [findOrder_rewritten rewritten fun _ number => number, record]
      rfl

end Sys2Proof.Machine
end

section
/-! PROOF. Stack changes: STACK_TAKEN (O48), full stacks and segment ends (O46). -/

namespace Sys2Proof.Machine

open Sys2Proof

variable {s : State} {n : Nat} {p : Postponed} {o : Order}

/-! ### The operations on stacks (R153 to R156) -/

/-- R180: with room in the STACKER queue a STACK_CHANGE joins its tail. -/
theorem queueChange_room {k cuts : Nat} {final : Bool} (room : s.link.stacker.length < 8) :
    s.queueChange n k cuts final = { s with
      link := { s.link with stacker := s.link.stacker ++ [.stackChange n k cuts final] }
      knife := { s.knife with outstanding := s.knife.outstanding + 1 } } := by
  have single : (s.link.stacker.any (Command.stackChange n k cuts final).replaces) = false := by simp [Command.replaces]
  have queued : s.enqueue (.stackChange n k cuts final)
      = s.setQueue .stacker (s.link.stacker ++ [.stackChange n k cuts final]) := by
    unfold State.enqueue
    exact (if_neg (by rw [Bool.not_eq_true]; exact single)).trans (if_pos room)
  rw [State.queueChange, queued]
  rfl

/-- R154: the order's stacks closed a change more, and its fill 0. -/
theorem countStack_clearFill (s : State) (n : Nat) : (s.countStack n).clearFill n = { s with
    orders := s.orders.map fun r => if r.fields.number == n then
      { r with stacksClosed := min 65535 (r.stacksClosed + 1), stackFill := 0 } else r } :=
  congrArg (fun os => ({ s with orders := os } : State))
    (rewriteAt_rewriteAt (n := n) (f := fun r => { r with stacksClosed := min 65535 (r.stacksClosed + 1) })
      (g := fun r => { r with stackFill := 0 }) (fun _ => rfl) s.orders)

theorem postponedOrder_absent (absent : p.retired = true ∨ s.findOrder p.order = none) : s.postponedOrder p = none := by
  unfold State.postponedOrder
  split
  · rfl
  · next live => exact absent.resolve_left live

/-- R154: a retired or missing order counts no stack. -/
theorem countPostponed_absent (absent : p.retired = true ∨ s.findOrder p.order = none) : s.countPostponed p = s := by
  rw [State.countPostponed, postponedOrder_absent absent]

theorem postponedOrder_live (live : p.retired = false) : s.postponedOrder p = s.findOrder p.order := by
  rw [State.postponedOrder, live]; rfl

theorem countPostponed_running (live : p.retired = false) (found : s.findOrder p.order = some o) (on : o.state ≠ .done) :
    s.countPostponed p = s.countStack p.order := by
  simp only [State.countPostponed, postponedOrder_live live, found, if_neg on]

/-- R30, R154: of a DONE order a free value decides. -/
theorem countPostponed_done (live : p.retired = false) (found : s.findOrder p.order = some o) (off : o.state = .done) :
    s.countPostponed p = (if Config.freeBit s.draws then s.countStack p.order else s).drawn := by
  simp only [State.countPostponed, postponedOrder_live live, found, if_pos off]

section Issue

variable (postponed : s.knife.postponed = some p)
include postponed

theorem issuePostponed_closed {cuts : Nat} (closed : p.closed = some cuts) : s.issuePostponed
    = ((s.setPostponed none).queueChange p.order p.stack cuts true).countPostponed p := by
  simp only [State.issuePostponed, postponed, closed]

theorem issuePostponed_absent (fill : p.closed = none) (absent : p.retired = true ∨ s.findOrder p.order = none) :
    s.issuePostponed = (s.setPostponed none).queueChange p.order p.stack 0 false := by
  simp only [State.issuePostponed, postponed, fill, postponedOrder_absent absent]

theorem issuePostponed_open (fill : p.closed = none) (live : p.retired = false) (found : s.findOrder p.order = some o) :
    s.issuePostponed
      = (((s.setPostponed none).queueChange p.order p.stack o.stackFill false).countPostponed p).clearFill p.order := by
  simp only [State.issuePostponed, postponed, fill, postponedOrder_live live, found]

end Issue

/-! ### STACK_TAKEN (R156) -/

theorem stackTaken_issues (out : 0 < s.knife.outstanding) :
    s.stackTaken = (s.setKnife fun k => { k with outstanding := k.outstanding - 1 }).issuePostponed :=
  if_neg (Nat.pos_iff_ne_zero.mp out)

/-- R156: one change less outstanding, and the postponed one issued. -/
def takenIssued (p : Postponed) (cuts : Nat) (final : Bool) (s : State) : State :=
  { s with
    knife := { s.knife with postponed := none }
    link := { s.link with stacker := s.link.stacker ++ [.stackChange p.order p.stack cuts final] } }

section Taken

variable (out : 0 < s.knife.outstanding) (postponed : s.knife.postponed = some p) (room : s.link.stacker.length < 8)
include out room

theorem takenIssued_eq (cuts : Nat) (final : Bool) :
    ((s.setKnife fun k => { k with outstanding := k.outstanding - 1 }).setPostponed none).queueChange p.order p.stack cuts
      final = takenIssued p cuts final s := by
  have back : s.knife.outstanding - 1 + 1 = s.knife.outstanding := by omega
  rw [queueChange_room (s := (s.setKnife fun k => { k with outstanding := k.outstanding - 1 }).setPostponed none) room]
  simp only [State.setPostponed, State.setKnife, takenIssued, back]

include postponed

theorem stackTaken_closed {cuts : Nat} (closed : p.closed = some cuts) :
    s.stackTaken = (takenIssued p cuts true s).countPostponed p := by
  rw [← takenIssued_eq out room, stackTaken_issues out]
  exact issuePostponed_closed (s := s.setKnife fun k => { k with outstanding := k.outstanding - 1 }) postponed closed

theorem stackTaken_absent (fill : p.closed = none) (absent : p.retired = true ∨ s.findOrder p.order = none) :
    s.stackTaken = takenIssued p 0 false s := by
  rw [← takenIssued_eq out room, stackTaken_issues out]
  exact issuePostponed_absent (s := s.setKnife fun k => { k with outstanding := k.outstanding - 1 }) postponed fill
    absent

theorem stackTaken_open (fill : p.closed = none) (live : p.retired = false) (found : s.findOrder p.order = some o) :
    s.stackTaken = ((takenIssued p o.stackFill false s).countPostponed p).clearFill p.order := by
  rw [← takenIssued_eq out room, stackTaken_issues out]
  exact issuePostponed_open (s := s.setKnife fun k => { k with outstanding := k.outstanding - 1 }) postponed fill live
    found

end Taken

/-- Settles O48. -/
theorem stackTakenIssuesThePostponed : Obligations.StackTakenIssuesThePostponed := by
  intro s
  have run {t : State} (is : s.stackTaken = t) : exec .stackTaken s = .next t := is ▸ rfl
  refine ⟨fun none => run (if_pos none), fun out => ⟨fun none => run ?_, fun p postponed room =>
    ⟨fun cuts closed => ⟨fun absent => run ?_, fun o live found on => run ?_, fun o live found off =>
      ⟨Config.freeBit s.draws, run ?_⟩⟩, fun fill => ⟨fun absent => run ?_, fun o live found on => run ?_⟩⟩⟩⟩
  · simp only [State.stackTaken, Nat.pos_iff_ne_zero.mp out, if_false, State.issuePostponed, State.setKnife, none]
  · rw [stackTaken_closed out postponed room closed, countPostponed_absent (s := takenIssued p cuts true s) absent]
    rfl
  · rw [stackTaken_closed out postponed room closed,
      countPostponed_running (s := takenIssued p cuts true s) live found on]
    rfl
  · rw [stackTaken_closed out postponed room closed, countPostponed_done (s := takenIssued p cuts true s) live found off]
    show State.drawn (if Config.freeBit s.draws then _ else _) = _
    split <;> rfl
  · rw [stackTaken_absent out postponed room fill absent]
    rfl
  · rw [stackTaken_open out postponed room fill live found,
      countPostponed_running (s := takenIssued p o.stackFill false s) live found on, countStack_clearFill]
    rfl

end Sys2Proof.Machine
end

section
/-! PROOF. A good cut: its charge, the full stack, and the end of a segment (O46). -/

namespace Sys2Proof.Machine

open Sys2Proof

variable {s : State} {g : Grid} {mark n : Nat} {m : ChangeMark} {o : Outgoing} {r : Order}

/-! ### The matching cut (R145, R147, R148) -/

/-- R145: a cut within the tolerance of its nominal cut is judged by that sheet. -/
theorem exec_matchingCut (cut : MatchingCut s g) :
    exec .cutPulse s = .next (s.judge g (if g.spoiled then .deviating else .cut) false) := by
  obtain ⟨high, owned, grid, wide, low, far⟩ := cut
  have early : overdueAt g (knifeCoord s) = false := decide_eq_false (by omega)
  have long : shortOf g (knifeCoord s) = false := decide_eq_false (by omega)
  have near : within (knifeCoord s) g.n (cutTolerance s.config) = true := by simp [within, low, far]
  have none : State.missOverdue (s.overdueFuel (knifeCoord s)) (knifeCoord s) s = s := by
    simp only [State.overdueFuel, grid, State.missOverdue, early, Bool.false_eq_true, if_false]
  show Host.Outcome.next s.cutPeriod = _
  simp only [State.cutPeriod, high, if_true, State.cutPulse, owned, if_false, none, State.matchCut, grid, long, near,
    Bool.false_eq_true]

/-- R148: a sheet clear of culls that was cut in time has no reason to be culled. -/
theorem clearSheet_good (clear : ClearSheet s g) : s.cullReason (shiftBy g.n (-(g.sheet : Int))) g.n .cut = none := by
  obtain ⟨marks, lag⟩ := clear
  rw [shiftBy_neg]
  have free (f : Mark → Bool) : s.culledBy f (g.n - BitVec.ofNat 32 g.sheet) g.n = false := by
    refine List.any_eq_false.mpr fun x mem => ?_
    cases zone : x.cullZone with
    | none => simp
    | some z => simp [marks x mem z zone]
  have past : (s.knife.lag.any fun e => overlaps (g.n - BitVec.ofNat 32 g.sheet) g.n e.start e.stop) = false :=
    List.any_eq_false.mpr fun e mem => by simp [lag e mem]
  simp [State.cullReason, free, past]

/-- R28: a good cut in the record of its order. -/
def goodRecord (r : Order) : Order :=
  { r with goodCuts := min 16777215 (r.goodCuts + 1), stackFill := min 2000 (r.stackFill + 1) }

/-- R154: a closed stack in the record of its order. -/
def closedRecord (r : Order) : Order := { r with stacksClosed := min 65535 (r.stacksClosed + 1), stackFill := 0 }

/-- R148, R149: a good sheet is charged to its order; the stack test follows, then the advance of the grid. -/
theorem exec_goodCut (cut : MatchingCut s g) (pos : g.pos = .segment mark) (found : s.findChange mark = some m)
    (outgoing : m.outgoing = some o) (whole : g.spoiled = false) (clear : ClearSheet s g) :
    exec .cutPulse s = .next (((s.updateOrder o.order goodRecord).stackTest o.order).advanceGrid g) := by
  have charge : s.chargeSheet g .cut = (s.updateOrder o.order goodRecord).stackTest o.order := by
    simp only [State.chargeSheet, pos, found, Option.bind_some, outgoing, clearSheet_good clear]
    rfl
  rw [exec_matchingCut cut, whole]
  exact congrArg (fun t => Host.Outcome.next (t.advanceGrid g)) charge

/-! ### The stack test (R153, R155) -/

theorem issueClear_room {k cuts : Nat} {final : Bool} (room : s.link.stacker.length < 8) :
    (s.issueChange n k cuts final).clearFill n = { s with
      link := { s.link with stacker := s.link.stacker ++ [.stackChange n k cuts final] }
      knife := { s.knife with outstanding := s.knife.outstanding + 1 }
      orders := rewriteAt n closedRecord s.orders } := by
  rw [State.issueChange, countStack_clearFill, queueChange_room room]
  rfl

section StackTest

variable (found : s.findOrder n = some r)
include found

theorem stackTest_below (below : r.stackFill < r.fields.stackSize) : s.stackTest n = s := by
  simp only [State.stackTest, found, below, decide_true, Bool.true_or, if_true]

theorem stackTest_postponed (already : s.openPostponed n = true) : s.stackTest n = s := by
  simp only [State.stackTest, found, already, Bool.or_true, if_true]

variable (full : r.fields.stackSize ≤ r.stackFill) (shut : s.openPostponed n = false)
include full shut

theorem stackTest_issues (few : s.knife.outstanding < 2) (room : s.link.stacker.length < 8) :
    s.stackTest n = { s with
      link := { s.link with stacker := s.link.stacker ++ [.stackChange n (r.stacksClosed + 1) r.stackFill false] }
      knife := { s.knife with outstanding := s.knife.outstanding + 1 }
      orders := rewriteAt n closedRecord s.orders } := by
  simp only [State.stackTest, found, Nat.not_lt.mpr full, decide_false, shut, Bool.or_self, Bool.false_eq_true, if_false,
    Config.maxOutstanding, few, if_true]
  exact issueClear_room room

theorem stackTest_postpones (many : 2 ≤ s.knife.outstanding) (free : s.knife.postponed = none) :
    s.stackTest n
      = (s.setPostponed (some ⟨n, r.stacksClosed + 1, none, false⟩)).raise .stackerLate (.order n) := by
  simp only [State.stackTest, found, Nat.not_lt.mpr full, decide_false, shut, Bool.or_self, Bool.false_eq_true, if_false,
    Config.maxOutstanding, Nat.not_lt.mpr many, free]

end StackTest

/-! ### The advance of the grid (R143) -/

section Grid

variable (pos : g.pos = .segment mark) (found : s.findChange mark = some m) (outgoing : m.outgoing = some o)
include pos found outgoing

/-- R143: within a segment the grid goes on by the segment's cut. -/
theorem advanceGrid_within (inside : g.n ≠ m.p) :
    s.advanceGrid g = { s with knife := gridAt s g (.segment mark) o.cutLength } := by
  have one : s.gridStep1 g = (s, .segment mark) := by simp only [State.gridStep1, pos, found, inside, if_false]
  have cut : ∀ k : Knife, State.cutAt { s with knife := k } (.segment mark) = o.cutLength := fun k => by
    simp only [State.cutAt, show State.findChange { s with knife := k } mark = some m from found, ChangeMark.outCut,
      outgoing]
  simp only [State.advanceGrid, one, State.gridStep2, State.setKnife, cut]
  rfl

/-- R143, R151: at the end of a segment that ends at the knife, the grid passes into the zone of its mark. -/
theorem advanceGrid_end (ends : g.n = m.p) (zone : m.stop ≠ some g.n) (kept : (s.endSegment m).findChange mark = some m) :
    ∃ len, s.advanceGrid g
        = { s.endSegment m with knife := gridAt (s.endSegment m) g (.zone mark) len }
      ∧ (m.length = none → len = o.cutLength) := by
  have one : s.gridStep1 g = (s.endSegment m, .zone mark) := by
    simp only [State.gridStep1, pos, found, ends, if_true]
  have two : (s.endSegment m).gridStep2 g.n (.zone mark) = (s.endSegment m, .zone mark) := by
    simp only [State.gridStep2, kept, zone, if_false]
  refine ⟨((s.endSegment m).setKnife fun k => { k with split := k.split.filter fun e => e.start != g.n }).zoneCut mark, ?_,
    fun open_ => ?_⟩
  · simp only [State.advanceGrid, one, two]
    rfl
  · simp only [State.zoneCut, show State.findChange ((s.endSegment m).setKnife _) mark = some m from kept, open_,
      Option.isNone_none, Bool.true_or, if_true, ChangeMark.outCut, outgoing]

end Grid

/-! ### The end of a segment (R29, R151) -/

theorem bookSegmentEnd_frame (s : State) (n : Nat) : s.bookSegmentEnd n
    = { s with orders := (s.bookSegmentEnd n).orders, grades := (s.bookSegmentEnd n).grades } := by
  unfold State.bookSegmentEnd State.finishOrder
  dsimp only
  repeat' split
  all_goals rfl

/-- R29: what the end of a segment makes of a RUNNING order. -/
theorem bookSegmentEnd_spec (found : s.findOrder n = some r) (running : r.state = .running) :
    (∃ x, (s.bookSegmentEnd n).findOrder n = some x ∧ x.fields = r.fields ∧ x.goodCuts = r.goodCuts
        ∧ x.stackFill = r.stackFill ∧ x.stacksClosed = r.stacksClosed ∧ x.segments = r.segments - 1
        ∧ x.cullCuts = r.cullCuts
        ∧ (2 ≤ r.segments → x.state = .running ∧ x.attention = r.attention ∧ (s.bookSegmentEnd n).grades = s.grades)
        ∧ (r.segments ≤ 1 → r.stacked = true →
            x.state = .suspended ∧ x.attention = true ∧ (s.bookSegmentEnd n).grades = s.grades)
        ∧ (r.segments ≤ 1 → r.stacked = false → x.state = .done ∧ x.attention = true
            ∧ x.outcome = some (if r.cancel then .cancelled
                else if r.fields.quantity ≤ r.goodSheets then .complete else .short)
            ∧ (s.bookSegmentEnd n).grades = s.grades.map fun y =>
                if y.fields.number == r.fields.grade then { y with active := y.active - 1 } else y))
      ∧ ∀ x ∈ s.orders, x.fields.number ≠ n → x ∈ (s.bookSegmentEnd n).orders := by
  have less : (s.updateOrder n fun x => { x with segments := r.segments - 1 }).findOrder n
      = some { r with segments := r.segments - 1 } := by
    rw [findOrder_updateOrder (fun _ => by rfl), found]; rfl
  have others (f : Order → Order) {t : State} (x) (mem : x ∈ t.orders) (other : x.fields.number ≠ n) :
      x ∈ (t.updateOrder n f).orders := mem_rewritten (s := t) (f := f) rfl mem other
  by_cases last : r.segments - 1 = 0
  · by_cases on : r.stacked = true
    · have is : s.bookSegmentEnd n = (s.updateOrder n fun x => { x with segments := r.segments - 1 }).updateOrder n
          fun x => { x with state := .suspended, attention := true } := by
        simp only [State.bookSegmentEnd, found, running, last, ne_eq, not_true_eq_false, if_true, if_false, on]
      rw [is]
      refine ⟨⟨_, (findOrder_updateOrder (fun _ => by rfl)).trans (congrArg _ less), rfl, rfl, rfl, rfl, rfl, rfl,
        fun two => by omega, fun _ _ => ⟨rfl, rfl, rfl⟩, fun _ off => by rw [on] at off; cases off⟩, fun x mem other => ?_⟩
      exact others _ x (others _ x mem other) other
    · have is : s.bookSegmentEnd n = ((s.updateOrder n fun x => { x with segments := r.segments - 1 }).updateOrder n
          (endedRecord (if r.cancel then .cancelled
            else if r.fields.quantity ≤ r.goodSheets then .complete else .short))).gradeActiveDown r.fields.grade := by
        rw [← finishOrder_onMachine (o := { r with segments := r.segments - 1 }) less (by simp [Order.onMachine, running])]
        simp only [State.bookSegmentEnd, found, running, last, ne_eq, not_true_eq_false, if_true, if_false, on,
          Bool.false_eq_true]
      rw [is]
      refine ⟨⟨_, (findOrder_updateOrder (f := endedRecord _) (fun _ => by rfl)).trans (congrArg _ less), rfl, rfl, rfl,
        rfl, rfl, rfl, fun two => by omega, fun _ yes => absurd yes on, fun _ _ => ⟨rfl, rfl, rfl, rfl⟩⟩,
        fun x mem other => ?_⟩
      exact others _ x (others _ x mem other) other
  · have is : s.bookSegmentEnd n = s.updateOrder n fun x => { x with segments := r.segments - 1 } := by
      simp only [State.bookSegmentEnd, found, running, last, ne_eq, not_false_eq_true, if_true]
    rw [is]
    exact ⟨⟨_, less, rfl, rfl, rfl, rfl, rfl, rfl, fun _ => ⟨running, rfl, rfl⟩, fun one => by omega,
      fun one => by omega⟩, others _⟩

/-- R151, R155: with fewer than two changes outstanding a stack that is not empty is closed by a final change. -/
theorem closeStack_issues (found : s.findOrder n = some r) (some : r.stackFill ≠ 0) (few : s.knife.outstanding < 2)
    (room : s.link.stacker.length < 8) : s.closeStack n = { s with
      link := { s.link with stacker := s.link.stacker ++ [.stackChange n (r.stacksClosed + 1) r.stackFill true] }
      knife := { s.knife with outstanding := s.knife.outstanding + 1 }
      orders := rewriteAt n closedRecord s.orders } := by
  simp only [State.closeStack, found, some, if_false, Config.maxOutstanding, few, if_true]
  exact issueClear_room room

/-- Settles O46. -/
theorem stacksCloseWhenFullAndAtSegmentEnds : Obligations.StacksCloseWhenFullAndAtSegmentEnds := by
  intro s g mark m o r cut pos found outgoing order whole clear room
  have run := exec_goodCut cut pos found outgoing whole clear
  have charged : (s.updateOrder o.order goodRecord).findOrder o.order = some (goodRecord r) := by
    rw [findOrder_updateOrder (fun _ => by rfl), order]; rfl
  have good_members {x : Order} (mem : x ∈ s.orders) (other : x.fields.number ≠ o.order) :
      x ∈ (s.updateOrder o.order goodRecord).orders := mem_rewritten (s := s) (f := goodRecord) rfl mem other
  refine ⟨fun inside full => ⟨fun few closed => ?_, fun many free => ?_, fun p postponed own open_ => ?_⟩,
    fun ends zone below few running => ?_⟩
  · have shut : (s.updateOrder o.order goodRecord).openPostponed o.order = false := by
      show (match s.knife.postponed with
        | some p => p.order == o.order && p.closed.isNone
        | none => false) = false
      split
      · next p postponed =>
        rcases closed p postponed with other | fixed
        · rw [beq_false_of_ne other, Bool.false_and]
        · rw [Option.isNone_eq_false_iff.mpr (Option.isSome_iff_ne_none.mpr fixed), Bool.and_false]
      · rfl
    rw [stackTest_issues charged full shut few room, advanceGrid_within pos (by exact found) outgoing inside] at run
    refine ⟨_, run, rfl, ?_, fun x mem other => ?_⟩
    · exact (findOrder_rewritten (s := s.updateOrder o.order goodRecord) (f := closedRecord) rfl
        fun _ number => number).trans (by rw [charged]; rfl)
    · exact mem_rewritten (s := s.updateOrder o.order goodRecord) (f := closedRecord) rfl (good_members mem other) other
  · have shut : (s.updateOrder o.order goodRecord).openPostponed o.order = false := by
      simp only [State.openPostponed, State.updateOrder, free]
    rw [stackTest_postpones charged full shut many free, advanceGrid_within pos (by exact found) outgoing inside] at run
    exact run
  · have already : (s.updateOrder o.order goodRecord).openPostponed o.order = true := by
      simp only [State.openPostponed, State.updateOrder, postponed, own, open_, BEq.rfl, Option.isNone_none, Bool.and_self]
    rw [stackTest_postponed charged already, advanceGrid_within pos (by exact found) outgoing inside] at run
    exact run
  · rw [stackTest_below charged below] at run
    have closing := closeStack_issues charged (by simp [goodRecord]) few room
    have record : (State.closeStack (s.updateOrder o.order goodRecord) o.order).findOrder o.order
        = some (closedRecord (goodRecord r)) := by
      rw [closing]
      exact (findOrder_rewritten (s := s.updateOrder o.order goodRecord) (f := closedRecord) rfl
        fun _ number => number).trans (by rw [charged]; rfl)
    obtain ⟨written, others⟩ := bookSegmentEnd_spec record running
    have grades : (State.closeStack (s.updateOrder o.order goodRecord) o.order).grades = s.grades := by rw [closing]; rfl
    rw [grades] at written
    have frame := bookSegmentEnd_frame (State.closeStack (s.updateOrder o.order goodRecord) o.order) o.order
    have segment : (s.updateOrder o.order goodRecord).endSegment m
        = ((s.updateOrder o.order goodRecord).closeStack o.order).bookSegmentEnd o.order := by
      simp only [State.endSegment, outgoing]
    have kept : ((s.updateOrder o.order goodRecord).endSegment m).findChange mark = some m := by
      rw [segment, frame, closing]; exact found
    obtain ⟨len, advanced, open_⟩ := advanceGrid_end pos (by exact found) outgoing ends zone kept
    rw [advanced, segment] at run
    refine ⟨_, run, ⟨len, ?_, open_⟩, ?_, written, fun x mem other => others x ?_ other, ?_, ?_⟩
    · rw [frame, closing]; rfl
    · rw [frame, closing]; rfl
    · rw [closing]
      exact mem_rewritten (s := s.updateOrder o.order goodRecord) (f := closedRecord) rfl (good_members mem other) other
    · rw [frame, closing]; rfl
    · rw [frame, closing]; rfl

end Sys2Proof.Machine
end

section
/-! PROOF. The freeze of a crowded mark table (O27, refuted). GapHandled promises a plan's gap a slot where 6 slots were free
before the freeze: one for the launched mark and one for each of the five stands. But a stand whose running reel meets the new
plan while an old one is pending asks for two gaps, that of the abandoned plan (R104) and the early one of the satisfied plan
(R103). With 42 marks in the table and three such stands, the fourth stand finds no slot: its gap is refused with
MARK_OVERFLOW. -/

namespace Sys2Proof.Machine

open Sys2Proof

/-- A grade whose first four stands run one paper code, and L3 another. -/
def crowdedGrade (slot n code active : Nat) : Grade :=
  let curve : Curve := ⟨⟨0, 100⟩, ⟨100, 100⟩, ⟨200, 100⟩, ⟨300, 100⟩⟩
  { slot := slot
    fields := ⟨n, ⟨code, code, code, code, 2150⟩, ⟨curve, curve, curve, curve, curve⟩,
      ⟨⟨300, 100⟩, ⟨300, 100⟩, ⟨300, 100⟩⟩⟩
    refs := 1, active := active }

/-- An order of two sheets that lie side by side, each 1,000 mm long. -/
def crowdedOrder (slot n grade : Nat) : Order :=
  Order.entered slot ⟨n, grade, 1000, ⟨[0, 6000, 12000], []⟩, 2, 0, 50⟩

/-- The mark of order 620, frozen by the next count: P lies the freeze distance of 170,000 mm ahead of it. -/
def crowdedMark : ChangeMark :=
  { uid := 0, p := 900000#32, length := none, outgoing := some ⟨620, 0#32, 1000⟩, incoming := none, state := .provisional,
    pinned := false, xEx := 900000#32, extensions := 0, waste := 0, crossings := [⟨.freeze, .pending⟩] }

/-- A stand that runs paper 2200 already. -/
def crowdedReels : Pair ReelSlot :=
  ⟨⟨.running ⟨1, ⟨1, 2200, 230, 1520, false⟩, 14000, 6614082, 0, false⟩ false 0, false⟩, ⟨.empty none, false⟩⟩

/-- A stand armed for a plan whose change has left the table. -/
def crowdedSequencer : Sequencer :=
  { Sequencer.reset with
    state := .armed, splice := some ⟨.grade, 2000000#32⟩, plan := some ⟨2150, 2000000#32, 1, 870000#32⟩ }

/-- The line one count before the freeze, with the mark and 41 culls ahead of it in the table. Order 621 of grade 8 follows, in
the paper that L1, M1, L2 and M2 run already; the first three still hold a plan for the old paper. -/
def crowdedFreeze : State :=
  { State.reset with
    odometer := 729999#32
    orders := [{ crowdedOrder 0 620 7 with state := .running, segments := 1 },
      { crowdedOrder 1 621 8 with state := .queued }]
    runSeq := [621]
    grades := [crowdedGrade 0 7 2150 1, crowdedGrade 1 8 2200 0]
    marks := .change crowdedMark :: (List.range 41).map fun i => .host ⟨i + 2, 2000000#32, 100⟩
    serial := 43
    planner := some ⟨0, 0#32, 900⟩
    reels := { State.reset.reels with l1 := crowdedReels, m1 := crowdedReels, l2 := crowdedReels, m2 := crowdedReels }
    seqs := { State.reset.seqs with l1 := crowdedSequencer, m1 := crowdedSequencer, l2 := crowdedSequencer } }

/-- The freeze is the count's only event. -/
theorem crowdedFreeze_sole : SoleEvent crowdedFreeze (.fire crowdedMark.uid .freeze) := by
  have keyed : (crowdedFreeze.marks.map Mark.uid).Nodup ∧ ∀ m ∈ crowdedFreeze.marks, m.uid < crowdedFreeze.serial := by
    decide
  exact ⟨rfl, keyed, by decide⟩

/-- The stands whose gaps stand in the table. -/
def gapStands (s : State) : List Stand :=
  s.marks.filterMap fun x => match x with
    | .gap g => some g.stand
    | _ => none

theorem mem_gapStands {s : State} {x : GapMark} (mem : Mark.gap x ∈ s.marks) : x.stand ∈ gapStands s :=
  List.mem_filterMap.mpr ⟨_, mem, rfl⟩

/-- The five slots left behind the launch go to L1, M1 and L2; the table is full before the plan of M2 arrives. -/
theorem crowdedFreeze_gaps :
    gapStands ((advanced crowdedFreeze).countEvent (.fire crowdedMark.uid .freeze)) = [.l1, .l1, .m1, .m1, .l2] := by
  decide

/-- Refutes O27: in crowdedFreeze order 621 is launched behind the frozen mark; M2 is idle without a plan and runs the paper
of order 621 already, so PlansHanded promises it a gap from the knife up to P, with 6 slots free. The table has none left for
it. -/
theorem not_freezeLaunchesOrRunsOut : ¬ Obligations.FreezeLaunchesOrRunsOut := by
  intro holds
  obtain ⟨t, run, -, launches⟩ := holds crowdedFreeze crowdedMark ⟨620, 0#32, 1000⟩ crowdedFreeze_sole rfl rfl (by decide)
  obtain ⟨queued, -⟩ := launches rfl (by decide)
  obtain ⟨⟨-, -, -, plans, -⟩, -⟩ := queued 621 [] { crowdedOrder 1 621 8 with state := .queued } rfl rfl rfl
    (.inr (.inl rfl))
  obtain ⟨-, differs⟩ := plans { crowdedOrder 0 620 7 with state := .running, segments := 1 } (crowdedGrade 0 7 2150 1)
    (crowdedGrade 1 8 2200 0) rfl rfl rfl .m2
  obtain ⟨-, met⟩ := differs (by decide)
  obtain ⟨-, -, placed⟩ := met rfl (.inl rfl) rfl
  obtain ⟨-, room⟩ := placed (by decide)
  obtain ⟨x, mem, -, stand, -⟩ := room (by decide)
  have after : t = (advanced crowdedFreeze).countEvent (.fire crowdedMark.uid .freeze) :=
    Host.Outcome.next.inj (run.symm.trans (exec_forwardCount_sole crowdedFreeze_sole))
  have gap := mem_gapStands mem
  rw [after, crowdedFreeze_gaps, stand] at gap
  exact absurd gap (by decide)

end Sys2Proof.Machine
end

section
/-! PROOF. The requests that enter, amend and retire grades (O22). -/

namespace Sys2Proof.Machine

open Sys2Proof

variable {b : List Byte} {s : State} {g : Grade}

/-- R48: the number test in the bounds that R50 to R52 name. -/
theorem gradeNumberOk_of_bounds {n : Nat} (low : 1 ≤ n) (high : n ≤ 9999) : gradeNumberOk n = true := by
  simp [gradeNumberOk, inRange, low, high]

/-! ### ENTER GRADE (R50) -/

theorem exec_enterGrade (b : List Byte) (s : State) (a : Answer) (answer : answerEnterGrade b s = a) :
    exec (.enterGrade b) s = .next (answered 0x20 s a) := answer ▸ rfl

/-- R50: with a free slot and every test passed the entry is added, named by no order yet. -/
theorem answerEnterGrade_room (len : b.length = 104) (number : gradeNumberOk (field b 0 2) = true)
    (values : (readGradeBody b).valuesOk = true) (fresh : s.findGrade (field b 0 2) = none)
    (room : s.grades.length < 32) :
    answerEnterGrade b s = done
      { s with grades := s.grades ++ [⟨lowestFree (s.grades.map (·.slot)) 32, readGradeBody b, 0, 0⟩] }
      (byteOf (lowestFree (s.grades.map (·.slot)) 32) ++ byteOf (31 - s.grades.length)) := by
  have numberOk : gradeNumberOk (readGradeBody b).number = true := number
  have absent : s.findGrade (readGradeBody b).number = none := fresh
  have free : (s.freeGrades == 0) = false := by
    simp only [State.freeGrades, Config.gradeSlots, beq_eq_false_iff_ne]; omega
  have left : State.freeGrades { s with
      grades := s.grades ++ [⟨lowestFree (s.grades.map (·.slot)) 32, readGradeBody b, 0, 0⟩] }
      = 31 - s.grades.length := by
    simp only [State.freeGrades, Config.gradeSlots, List.length_append, List.length_singleton]; omega
  simp only [answerEnterGrade, len, bne_self_eq_false, numberOk, values, absent, free, Option.isSome_none,
    Bool.and_self, Bool.not_true, refuseIf_false]
  exact congrArg (fun n => done _ (_ ++ byteOf n)) left

/-! ### AMEND GRADE (R51) -/

theorem exec_amendGrade (b : List Byte) (s : State) (a : Answer) (answer : answerAmendGrade b s = a) :
    exec (.amendGrade b) s = .next (answered 0x21 s a) := answer ▸ rfl

/-- R51: with valid values the active count of the entry alone decides. -/
theorem answerAmendGrade_found (len : b.length = 104) (number : gradeNumberOk (field b 0 2) = true)
    (values : (readGradeBody b).valuesOk = true) (found : s.findGrade (field b 0 2) = some g) :
    answerAmendGrade b s = refuseIf (g.active != 0) .inUse
      (done (s.updateGrade (field b 0 2) fun x => { x with fields := readGradeBody b }).recheckAll []) := by
  have numberOk : gradeNumberOk (readGradeBody b).number = true := number
  have entry : s.findGrade (readGradeBody b).number = some g := found
  simp only [answerAmendGrade, len, bne_self_eq_false, numberOk, entry, values, Bool.not_true, refuseIf_false]
  rfl

/-! ### RETIRE GRADE (R52) -/

theorem exec_retireGrade (b : List Byte) (s : State) (a : Answer) (answer : answerRetireGrade b s = a) :
    exec (.retireGrade b) s = .next (answered 0x22 s a) := answer ▸ rfl

/-- R52: the reference count of the entry alone decides. -/
theorem answerRetireGrade_found (len : b.length = 2) (number : gradeNumberOk (field b 0 2) = true)
    (found : s.findGrade (field b 0 2) = some g) :
    answerRetireGrade b s = refuseIf (g.refs != 0) .inUse
      (done (State.recheckAll { s with grades := s.grades.filter fun x => x.fields.number != field b 0 2 })
        (byteOf (32 - (s.grades.filter fun x => x.fields.number != field b 0 2).length))) := by
  simp only [answerRetireGrade, len, bne_self_eq_false, number, found, Bool.not_true, refuseIf_false]
  rfl

/-! ### The counts decide -/

theorem refuseIf_of_pos {n : Nat} (used : 0 < n) (st : Status) (a : Answer) : refuseIf (n != 0) st a = .error st := by
  rw [bne_iff_ne.mpr used.ne', refuseIf_true]

theorem refuseIf_of_zero {n : Nat} (unused : n = 0) (st : Status) (a : Answer) : refuseIf (n != 0) st a = a := by
  rw [unused, bne_self_eq_false, refuseIf_false]

/-- Settles O22: once the other tests have passed, the free slots decide of an entry to add, the active count of one to
amend and the reference count of one to retire; the two that succeed end with the checks of the waiting stands. -/
theorem gradeTableByItsCounts : Obligations.GradeTableByItsCounts := by
  refine ⟨fun b s len low high values fresh room => ?_, fun s g => ⟨fun b len low high found values => ?_,
    fun b len low high found => ?_⟩⟩
  all_goals have number := gradeNumberOk_of_bounds low high
  · obtain ⟨below, notHeld, lowest⟩ := lowestFree_spec (used := s.grades.map (·.slot)) (n := 32) (by simpa using room)
    exact ⟨_, below, notHeld, lowest, exec_enterGrade b s _ (answerEnterGrade_room len number values fresh room)⟩
  · have decided := answerAmendGrade_found len number values found
    exact ⟨fun used => exec_amendGrade b s _ (decided.trans (refuseIf_of_pos used _ _)),
      fun unused => ⟨_, exec_amendGrade b s _ (decided.trans (refuseIf_of_zero unused _ _)), State.recheckAll_frame _⟩⟩
  · have decided := answerRetireGrade_found len number found
    exact ⟨fun used => exec_retireGrade b s _ (decided.trans (refuseIf_of_pos used _ _)),
      fun unused => ⟨_, _, exec_retireGrade b s _ (decided.trans (refuseIf_of_zero unused _ _)),
        State.recheckAll_frame _⟩⟩

end Sys2Proof.Machine
end

section
/-! PROOF. RUSH ORDER (O19): its tests, the order at the head of the run sequence, and the curtail of a provisional end
beyond the floor. -/

namespace Sys2Proof.Machine

open Sys2Proof

/-- In a keyed table a CHANGE mark shares its serial number with no other. -/
theorem State.MarksKeyed.alone {s : State} (keyed : s.MarksKeyed) {m : ChangeMark} (mem : Mark.change m ∈ s.marks) :
    Alone s m := by
  have nodup : (s.marks.filter (Mark.isChangeOf m.uid)).Nodup := (List.Nodup.of_map _ keyed.1).filter _
  refine List.perm_singleton.mp ((List.perm_ext_iff_of_nodup nodup (List.nodup_singleton _)).mpr fun x => ?_)
  rw [List.mem_filter, List.mem_singleton]
  constructor
  · rintro ⟨there, is⟩
    cases x with
    | change c => exact keyed.eq there mem (beq_iff_eq.mp is)
    | _ => cases is
  · rintro rfl
    exact ⟨mem, isChangeOf_self m⟩

/-! ### The order at the head (R77) -/

/-- R77: the record of an order that RUSH ORDER has placed. -/
def rushedRecord (r : Order) : Order := { r with state := .queued, rush := true }

/-- R77: the order stands at the head of the run sequence with its rush flag. -/
theorem rushToHead_eq (s : State) (n : Nat) : s.rushToHead n = { s with
    runSeq := n :: s.runSeq.filter (· != n), orders := rewriteAt n rushedRecord s.orders } :=
  congrArg (fun os => ({ s with runSeq := n :: s.runSeq.filter (· != n), orders := os } : State))
    (rewriteAt_rewriteAt (n := n) (f := fun r => { r with state := .queued }) (g := fun r => { r with rush := true })
      (fun _ => rfl) s.orders)

theorem rushToHead_findOrder {s : State} {n : Nat} {o : Order} (found : s.findOrder n = some o) :
    (s.rushToHead n).findOrder n = some (rushedRecord o) := by
  rw [rushToHead_eq, findOrder_rewritten (s := s) (f := rushedRecord) rfl fun _ number => number, found]
  rfl

theorem orderStateByte_queued {t : State} {n : Nat} {o : Order} (found : t.findOrder n = some o)
    (queued : o.state = .queued) : t.orderStateByte n = byteOf 1 := by
  simp only [State.orderStateByte, found, queued]
  rfl

/-! ### The curtail for a rush (R78) -/

/-- R78: the outgoing segment of mark m is o, and m is not pinned and ends beyond the floor of o. -/
def EndsBeyond (s : State) (m : ChangeMark) (o : Outgoing) : Prop :=
  m.outgoing = some o ∧ m.pinned = false ∧ before (s.floorEnd o) m.p = true

/-- R78: the mark curtailed for a rush. -/
def rushedMark (s : State) (m : ChangeMark) (o : Outgoing) : ChangeMark :=
  { m with p := s.floorEnd o, xEx := s.floorEnd o, pinned := true }

/-- R78: the outgoing order has its entry on the stack, pushed where it holds none. -/
def pushedUnlessStacked (n : Nat) (s : State) : State := if s.isStacked n then s else s.push n

section Target

variable {s : State} {pr : Provisional} {m : ChangeMark} (provisional : s.provisional = some (pr, m))
include provisional

theorem curtailTarget_beyond {o : Outgoing} (beyond : EndsBeyond s m o) : s.curtailTarget = some (m, o) := by
  obtain ⟨outgoing, free, late⟩ := beyond
  simp only [State.curtailTarget, provisional, outgoing, free, late, Bool.not_false, Bool.and_self, if_true]

theorem curtailTarget_within (within : ∀ o, ¬ EndsBeyond s m o) : s.curtailTarget = none := by
  simp only [State.curtailTarget, provisional]
  split
  · next o outgoing =>
    refine if_neg fun test => within o ⟨outgoing, ?_⟩
    simpa only [Bool.and_eq_true, Bool.not_eq_true'] using test
  · rfl

/-- R78: what the curtail does to a mark that ends beyond the floor. -/
theorem curtailForRush_beyond {o : Outgoing} (beyond : EndsBeyond s m o) : s.curtailForRush
    = ((pushedUnlessStacked o.order s).replaceChange (rushedMark s m o)).recheckAll := by
  simp only [State.curtailForRush, curtailTarget_beyond provisional beyond]
  rfl

end Target

theorem curtailForRush_none {s : State} (none : s.curtailTarget = none) : s.curtailForRush = s := by
  rw [State.curtailForRush, none]

theorem isStacked_iff {s : State} {n : Nat} : s.isStacked n = true ↔ n ∈ s.suspended := List.contains_iff_mem

/-- R33, R78: the push touches the stack and the record of its order alone. -/
theorem pushedUnlessStacked_eq {s : State} {n : Nat} (room : n ∈ s.suspended ∨ s.suspended.length < 3) :
    pushedUnlessStacked n s = { s with
      suspended := if n ∈ s.suspended then s.suspended else n :: s.suspended
      orders := if n ∈ s.suspended then s.orders else rewriteAt n (fun r => { r with stacked := true }) s.orders } := by
  unfold pushedUnlessStacked
  by_cases on : n ∈ s.suspended
  · simp only [if_pos on, if_pos (isStacked_iff.mpr on)]
  · simp only [if_neg on, if_neg (mt isStacked_iff.mp on)]
    exact if_pos (room.resolve_left on)

/-- A rewriting of records that keeps their numbers and states shows the same states. -/
theorem updateOrder_states {s : State} {k : Nat} {f : Order → Order}
    (keep : ∀ r, (f r).fields = r.fields ∧ (f r).state = r.state) (n : Nat) :
    ((s.updateOrder k f).findOrder n).map (·.state) = (s.findOrder n).map (·.state) := by
  have test : (fun o : Order => o.fields.number == n) ∘ (fun o => if o.fields.number == k then f o else o)
      = fun o => o.fields.number == n := by
    funext o; simp only [Function.comp]; split <;> simp only [keep]
  rw [State.findOrder, State.updateOrder_orders, List.find?_map, Option.map_map, test]
  refine congrFun (congrArg Option.map (funext fun o => ?_)) _
  simp only [Function.comp]; split <;> simp only [keep]

theorem pushedUnlessStacked_states {s : State} {k : Nat} (n : Nat) :
    ((pushedUnlessStacked k s).findOrder n).map (·.state) = (s.findOrder n).map (·.state) := by
  unfold pushedUnlessStacked State.push
  repeat' split
  · rfl
  · exact updateOrder_states (s := { s with suspended := k :: s.suspended }) (f := fun r => { r with stacked := true })
      (fun _ => ⟨rfl, rfl⟩) n
  · rfl

section Curtailed

variable {s : State} {pr : Provisional} {m : ChangeMark} {o : Outgoing} (provisional : s.provisional = some (pr, m))
  (beyond : EndsBeyond s m o)
include provisional beyond

/-- R78: beside the mark, the stack entry and its record, a curtail does what the repeated reel checks do. -/
theorem curtailForRush_frame (room : o.order ∈ s.suspended ∨ s.suspended.length < 3) : SpliceFrame { s with
    marks := s.curtailForRush.marks
    suspended := if o.order ∈ s.suspended then s.suspended else o.order :: s.suspended
    orders := if o.order ∈ s.suspended then s.orders
      else rewriteAt o.order (fun r => { r with stacked := true }) s.orders } s.curtailForRush := by
  rw [curtailForRush_beyond provisional beyond, (State.recheckAll_frame _).marks, pushedUnlessStacked_eq room]
  exact State.recheckAll_frame _

theorem curtailForRush_marks : s.curtailForRush.marks = (s.replaceChange (rushedMark s m o)).marks := by
  rw [curtailForRush_beyond provisional beyond, (State.recheckAll_frame _).marks]
  unfold pushedUnlessStacked State.push
  repeat' split
  all_goals rfl

theorem curtailForRush_states (n : Nat) :
    (s.curtailForRush.findOrder n).map (·.state) = (s.findOrder n).map (·.state) := by
  rw [curtailForRush_beyond provisional beyond, State.findOrder, (State.recheckAll_frame _).orders]
  exact pushedUnlessStacked_states n

/-- R78: the end in force behind a curtail is the floor. -/
theorem curtailForRush_provisional (keyed : s.MarksKeyed) :
    s.curtailForRush.provisional = some (pr, rushedMark s m o) := by
  obtain ⟨planner, uid⟩ := provisional_planner provisional
  have alone := keyed.alone (findChange_mem (provisional_findChange provisional)).1
  have found := ((alone.replaceChange (c := rushedMark s m o) rfl).of_marks
    (curtailForRush_marks provisional beyond)).findChange
  have same : s.curtailForRush.planner = some pr := by
    rw [curtailForRush_beyond provisional beyond, (State.recheckAll_frame _).planner, ← planner]
    unfold pushedUnlessStacked State.push
    repeat' split
    all_goals rfl
  rw [State.provisional, same]
  simp only [uid]
  rw [show s.curtailForRush.findChange m.uid = _ from found, Option.map_some]

end Curtailed

/-! ### The launch attempt (R61) -/

theorem openRunOut_none {s : State} : s.openRunOut = none ↔ ∀ c ∈ s.changes, c.state ≠ .runOut := by
  simp [State.openRunOut]

/-- R61: with a CHANGE mark in the table that is no open run-out, nothing is launched. -/
theorem attemptLaunch_stays {s : State} {m : ChangeMark} (mem : Mark.change m ∈ s.marks)
    (quiet : s.errors.hold = true ∨ s.openRunOut = none) : s.attemptLaunch.2 = s := by
  by_cases hold : s.errors.hold = true
  · rw [attemptLaunch_hold hold]
  · have busy : s.changes.isEmpty = false :=
      List.isEmpty_eq_false_iff.mpr (List.ne_nil_of_mem (mem_changes.mpr mem))
    simp only [State.attemptLaunch, hold, quiet.resolve_left hold, busy, Bool.false_eq_true, if_false]

/-- R61: a curtail opens no run-out. -/
theorem curtailForRush_quiet {s : State} {pr : Provisional} {m : ChangeMark} {o : Outgoing}
    (provisional : s.provisional = some (pr, m)) (beyond : EndsBeyond s m o)
    (quiet : s.errors.hold = true ∨ s.openRunOut = none) :
    s.curtailForRush.errors.hold = true ∨ s.curtailForRush.openRunOut = none := by
  refine quiet.imp (Evolves.refl s).curtailForRush.hold fun closed => openRunOut_none.mpr fun c mem => ?_
  have still := openRunOut_none.mp closed
  have there := mem_changes.mp mem
  rw [curtailForRush_marks provisional beyond] at there
  rcases mem_insertMark.mp there with is | before
  · rw [Mark.change.inj is]
    exact still m (mem_changes.mpr (findChange_mem (provisional_findChange provisional)).1)
  · exact still c (mem_changes.mpr (List.mem_of_mem_eraseP before))

/-! ### The answer (R77) -/

theorem exec_rushOrder (b : List Byte) (s : State) (a : Answer) (answer : answerRushOrder b s = a) :
    exec (.rushOrder b) s = .next (answered 0x14 s a) := answer ▸ rfl

/-- R77: RUSH ORDER of a waiting order whose curtail finds room; t is what the curtail leaves, where nothing is launched. -/
theorem exec_rush_stays {b : List Byte} {s t : State} {ord : Order} (len : b.length = 2)
    (found : s.findOrder (field b 0 2) = some ord) (waiting : ord.state = .entered ∨ ord.state = .queued)
    (push : s.pushPossible = true) (curtailed : (s.rushToHead (field b 0 2)).curtailForRush = t)
    (states : (t.findOrder (field b 0 2)).map (·.state) = some .queued) (launch : t.attemptLaunch.2 = t) :
    exec (.rushOrder b) s = .next (t.respond 0x14#8 .ok
      (byteOf 1 ++ boolByte s.curtailTarget.isSome ++ optCoord t.provisionalEnd)) := by
  obtain ⟨x, there, queued⟩ := Option.map_eq_some_iff.mp states
  have target : (s.rushToHead (field b 0 2)).curtailTarget = s.curtailTarget := by rw [rushToHead_eq]; rfl
  refine exec_rushOrder b s (done t _) ?_
  simp only [answerRushOrder, len, bne_self_eq_false, refuseIf_false, found, waiting_of waiting, Bool.not_true, push,
    curtailed, launch, target, orderStateByte_queued there queued]

/-- Settles O19. -/
theorem rushOrderPutsItsOrderFirst : Obligations.RushOrderPutsItsOrderFirst := by
  refine fun b s len => ⟨fun absent => ?_, fun ord found => ⟨fun e q => ?_, fun waiting => ?_⟩⟩
  · exact exec_rushOrder b s (.error .noSuch) (by
      simp only [answerRushOrder, len, bne_self_eq_false, refuseIf_false, absent])
  · have busy : ord.waiting = false := by simp [Order.waiting, e, q]
    exact exec_rushOrder b s (.error .state) (by
      simp only [answerRushOrder, len, bne_self_eq_false, refuseIf_false, found, busy, Bool.not_false, refuseIf_true])
  have head : (s.rushToHead (field b 0 2)).findOrder (field b 0 2) = some (rushedRecord ord) := rushToHead_findOrder found
  have first := rushToHead_eq s (field b 0 2)
  /- Where no curtail is made, the state is the one with the order at the head. -/
  have stays (none : s.curtailTarget = none)
      (launch : (s.rushToHead (field b 0 2)).attemptLaunch.2 = s.rushToHead (field b 0 2)) :=
    exec_rush_stays len found waiting (by rw [State.pushPossible, none]) (curtailForRush_none (by rw [first]; exact none))
      (by rw [head]; rfl) launch
  refine ⟨fun hold none => ?_, fun pr m provisional => ⟨fun o beyond unstacked full => ?_, fun quiet =>
    ⟨fun within => ?_, fun o beyond room keyed => ?_⟩⟩⟩
  · have noMark : s.provisional = Option.none := by rw [State.provisional, none]
    have run := stays (by rw [State.curtailTarget, noMark])
      (by rw [attemptLaunch_hold (by rw [first]; exact hold)])
    have noEnd : (s.rushToHead (field b 0 2)).provisionalEnd = Option.none := by
      rw [first]
      show s.provisional.map _ = _
      rw [noMark]; rfl
    rw [noEnd, first, State.curtailTarget, noMark] at run
    exact run
  · have noRoom : s.pushPossible = false := by
      have off := mt isStacked_iff.mp unstacked
      have atDepth : ¬ s.suspended.length < Config.stackDepth := not_lt.mpr full
      simp only [State.pushPossible, curtailTarget_beyond provisional beyond, off, atDepth, decide_false, Bool.or_self]
    exact exec_rushOrder b s (.error .full) (by
      simp only [answerRushOrder, len, bne_self_eq_false, refuseIf_false, found, waiting_of waiting, Bool.not_true, noRoom,
        Bool.not_false, refuseIf_true])
  · have none := curtailTarget_within provisional within
    have mem := (findChange_mem (provisional_findChange provisional)).1
    have run := stays none (attemptLaunch_stays (m := m) (by rw [first]; exact mem) (by rw [first]; exact quiet))
    have there : (s.rushToHead (field b 0 2)).provisionalEnd = some m.p := by
      rw [first]
      show s.provisional.map _ = _
      rw [provisional]; rfl
    rw [there, first, none] at run
    exact run
  · have push : s.pushPossible = true := by
      simp only [State.pushPossible, curtailTarget_beyond provisional beyond, Bool.or_eq_true, decide_eq_true_eq]
      exact room.imp isStacked_iff.mpr id
    have provisional' : (s.rushToHead (field b 0 2)).provisional = some (pr, m) := by rw [first]; exact provisional
    have beyond' : EndsBeyond (s.rushToHead (field b 0 2)) m o := by rw [first]; exact beyond
    have quiet' : (s.rushToHead (field b 0 2)).errors.hold = true ∨ (s.rushToHead (field b 0 2)).openRunOut = none := by
      rw [first]; exact quiet
    have marks := curtailForRush_marks provisional' beyond'
    have ends : (s.rushToHead (field b 0 2)).curtailForRush.provisionalEnd = some (s.floorEnd o) := by
      rw [State.provisionalEnd, curtailForRush_provisional provisional' beyond' (by rw [first]; exact keyed)]
      rw [first]; rfl
    have run := exec_rush_stays len found waiting push rfl
      ((curtailForRush_states provisional' beyond' _).trans (by rw [head]; rfl))
      (attemptLaunch_stays (m := rushedMark (s.rushToHead (field b 0 2)) m o) (by rw [marks]; exact mem_replaceChange_self _ _)
        (curtailForRush_quiet provisional' beyond' quiet'))
    rw [ends, curtailTarget_beyond provisional beyond] at run
    refine ⟨_, run, ?_, ?_, ?_, fun x mem other => ?_⟩
    · have frame := curtailForRush_frame provisional' beyond' (by rw [first]; exact room)
      generalize (s.rushToHead (field b 0 2)).curtailForRush = t at frame ⊢
      rw [first] at frame
      exact frame
    · rw [marks, first]; exact mem_replaceChange_self s (rushedMark s m o)
    · rw [marks, first]
      exact replaceChange_length (s := s) (c := rushedMark s m o)
        (show s.hasMark m.uid from provisional_hasMark provisional)
    · rw [marks, first]
      exact mem_replaceChange_of_ne (s := s) (m := m) (c := rushedMark s m o) (provisional_findChange provisional) mem other

end Sys2Proof.Machine
end

section
/-! PROOF. The decision crossing of a mark with an incoming order: its entry, the skip and the exchange (R133, R134). -/

namespace Sys2Proof.Machine

open Sys2Proof

/-! ### The crossing (R14) -/

/-- R14: the count whose decision crossing of mark m is done, before the slitter exchange takes it. -/
def decided (s : State) (m : ChangeMark) : State :=
  (advanced s).updateChange m.uid fun x => x.setCross .decision .done

theorem decided_marks (s : State) (m : ChangeMark) :
    (decided s m).marks = (s.updateChange m.uid fun x => x.setCross .decision .done).marks := by
  simp only [decided, State.updateChange, advanced_marks]

theorem decided_decisions (s : State) (m : ChangeMark) : (decided s m).decisions = s.decisions := by
  rw [decided, advanced_frame]; rfl

theorem decided_stations (s : State) (m : ChangeMark) : (decided s m).stations = s.stations := by
  rw [decided, advanced_frame]; rfl

theorem decided_link (s : State) (m : ChangeMark) : (decided s m).link = s.link := by
  rw [decided, advanced_frame]; rfl

theorem decided_serial (s : State) (m : ChangeMark) : (decided s m).serial = s.serial := by
  rw [decided, advanced_frame]; rfl

theorem decided_station (s : State) (m : ChangeMark) (st : Station) : (decided s m).station st = s.station st :=
  station_of_stations (decided_stations s m) st

section Crossing

variable {s : State} {m : ChangeMark} {n : Nat} (sole : SoleEvent s (.fire m.uid .decision))
  (found : s.findMark m.uid = some (.change m))
include sole found

theorem decision_fires : Cross.decision ∈ (advanced s).firing (.change m) := by
  obtain ⟨x, mem, uid, fires⟩ := mem_countEvents_fire.mp (soleEvent_mem sole)
  rw [advanced_marks] at mem
  obtain ⟨-, keyed, -⟩ := sole
  obtain rfl : x = .change m := keyed.eq mem (findMark_mem found).1 uid
  exact fires

/-- R14, R133: the count is the decision, where the mark has an incoming order. -/
theorem exec_decision (incoming : m.incoming = some n) :
    exec .forwardCount s = .next ((decided s m).decision m) := by
  have fires := decision_fires sole found
  rw [exec_forwardCount_sole sole, State.countEvent, advanced_findMark, found]
  simp only [List.contains_iff_mem.mpr fires, if_true, State.fire, State.fireChange, incoming, Option.isNone_some,
    Bool.false_eq_true, if_false]
  rfl

/-- The mark has a decision crossing. -/
theorem decision_crossing : ∃ e ∈ m.crossings, e.name = .decision := by
  obtain ⟨e, mem, name, -⟩ := mem_firing_change.mp (decision_fires sole found)
  exact ⟨e, mem, name⟩

end Crossing

/-- A mark that is not at the head of the decision list gives no decision. -/
theorem decision_elsewhere {s : State} {m : ChangeMark} (other : ∀ d rest, s.decisions = d :: rest → d.mark ≠ m.uid) :
    s.decision m = s := by
  unfold State.decision
  split
  · next d rest g list length => exact if_neg (other d rest list)
  · rfl

/-- R133: an entry served by a READY station is exchanged. -/
theorem decision_ready {s : State} {m : ChangeMark} {d : Decision} {rest : List Decision} {g : Nat} {st : Station}
    (list : s.decisions = d :: rest) (own : d.mark = m.uid) (length : m.length = some g) (served : d.status = .servedBy st)
    (ready : (s.station st).state = .ready) : s.decision m = s.exchange m st := by
  simp only [State.decision, list, length, own, served, ready, if_true]

/-- R134: an entry marked skip is skipped. -/
theorem decision_skip {s : State} {m : ChangeMark} {d : Decision} {rest : List Decision} {g : Nat}
    (list : s.decisions = d :: rest) (own : d.mark = m.uid) (length : m.length = some g) (skip : d.status = .skip) :
    s.decision m = s.skipDecision m := by
  simp only [State.decision, list, length, own, skip, if_true]

/-- R135: an entry that no READY station serves makes the change late. -/
theorem decision_late {s : State} {m : ChangeMark} {d : Decision} {rest : List Decision} {g : Nat}
    (list : s.decisions = d :: rest) (own : d.mark = m.uid) (length : m.length = some g)
    (late : d.status = .unassigned ∨ ∃ st, d.status = .servedBy st ∧ (s.station st).state ≠ .ready) :
    s.decision m = s.lateChange m g := by
  rcases late with late | ⟨st, served, busy⟩
  · simp only [State.decision, list, length, own, late, if_true]
  · simp only [State.decision, list, length, own, served, busy, if_true, if_false]

/-! ### The exchange (R133) -/

/-- R133: the READY station once it engages, with its exchange not yet sent. -/
def engagedStation (s : State) (st : Station) : SlitterStation :=
  { s.station st with
    state := .engaged, served := none, exchangeSent := some false, timer := none, setTag := none
    exchangeTag := some s.serial }

/-- R133: the ENGAGED station once it is lifted. -/
def liftedStation (x : SlitterStation) : SlitterStation :=
  { x with state := .idle, order := none, exchangeSent := none, exchangeTag := none }

/-- R133: the state with the ENGAGED station lifted. -/
def liftEngaged (s : State) : State :=
  match s.engaged with
  | some old => s.setStation old (liftedStation (s.station old))
  | none => s

/-- R133: the state of an exchange before standby assignment makes its walk. -/
def exchanged (s : State) (m : ChangeMark) (st : Station) : State :=
  { (liftEngaged s).setStation st (engagedStation s st) with
    decisions := s.decisions.filter (·.mark != m.uid)
    link := { s.link with slitter := s.link.slitter ++ [.slitterExchange st s.engaged (some m.xEx) s.serial] }
    serial := s.serial + 1 }

theorem exchanged_frame (s : State) (m : ChangeMark) (st : Station) : exchanged s m st = { s with
    stations := (exchanged s m st).stations
    decisions := s.decisions.filter (·.mark != m.uid)
    link := { s.link with slitter := s.link.slitter ++ [.slitterExchange st s.engaged (some m.xEx) s.serial] }
    serial := s.serial + 1 } := by
  unfold exchanged liftEngaged
  cases s.engaged <;> rfl

theorem queueExchange_room {s : State} (st : Station) (lift : Option Station) (x : Option Coord)
    (room : s.link.slitter.length < 8) : s.queueExchange st lift x =
      { s.setStation st { s.station st with exchangeSent := some false, exchangeTag := some s.serial } with
        serial := s.serial + 1
        link := { s.link with slitter := s.link.slitter ++ [.slitterExchange st lift x s.serial] } } := by
  have new : (s.link.slitter.any (Command.slitterExchange st lift x s.serial).replaces) = false := by
    simp [Command.replaces]
  exact (if_neg (by rw [Bool.not_eq_true]; exact new)).trans (if_pos room)

/-- R133: with room in the SLITTER queue, an exchange between two stations. -/
theorem exchange_room {s : State} {m : ChangeMark} {st : Station} (room : s.link.slitter.length < 8)
    (other : s.engaged ≠ some st) : s.exchange m st = (exchanged s m st).walk := by
  unfold State.exchange
  dsimp only
  rw [queueExchange_room st _ _ room]
  cases engaged : s.engaged with
  | none =>
    simp only [exchanged, liftEngaged, engaged]
    cases st <;> rfl
  | some old =>
    rw [engaged] at other
    simp only [exchanged, liftEngaged, engaged]
    cases st <;> cases old <;> first | exact absurd rfl other | rfl

theorem engaged_of_ready {s : State} {st : Station} (ready : (s.station st).state = .ready) : s.engaged ≠ some st := by
  intro engaged
  unfold State.engaged at engaged
  cases st <;> simp_all

/-- R133: the stations of an exchange. -/
theorem exchanged_station {s : State} {m : ChangeMark} {st : Station} (other : s.engaged ≠ some st) :
    (exchanged s m st).station st = engagedStation s st
      ∧ (∀ old, s.engaged = some old → (exchanged s m st).station old = liftedStation (s.station old))
      ∧ (s.engaged = none → (exchanged s m st).station st.other = s.station st.other) := by
  cases engaged : s.engaged with
  | none =>
    simp only [exchanged, liftEngaged, engaged]
    refine ⟨?_, nofun, fun _ => ?_⟩ <;> cases st <;> rfl
  | some old =>
    rw [engaged] at other
    simp only [exchanged, liftEngaged, engaged]
    refine ⟨by cases st <;> rfl, ?_, nofun⟩
    rintro _ ⟨⟩
    cases st <;> cases old <;> first | exact absurd rfl other | rfl

/-! ### The skip (R134) -/

/-- R134: the state of a skip before standby assignment makes its walk. -/
def skipped (s : State) (m : ChangeMark) : State :=
  match s.engaged with
  | some st => { s.setStation st { s.station st with order := m.incoming } with
      decisions := s.decisions.filter (·.mark != m.uid) }
  | none => { s with decisions := s.decisions.filter (·.mark != m.uid) }

theorem skipDecision_eq (s : State) (m : ChangeMark) : s.skipDecision m = (skipped s m).walk := by
  unfold State.skipDecision skipped
  cases s.engaged <;> rfl

end Sys2Proof.Machine
end

section
/-! PROOF. The late change of a decision crossing, up to the repeated reel checks (R74, R80, R135, R136): the extended mark
and the later one, each alone in the table, step by step. -/

namespace Sys2Proof.Machine

open Sys2Proof

/-! ### The later mark -/

theorem nextIn_map {f : ChangeMark → ChangeMark} (keep : ∀ c, (f c).uid = c.uid) (u : Nat) :
    ∀ l : List ChangeMark, nextIn u (l.map f) = (nextIn u l).map f
  | [] => rfl
  | [_] => rfl
  | c :: d :: rest => by
    have later := nextIn_map keep u (d :: rest)
    simp only [List.map_cons] at later ⊢
    simp only [nextIn, keep, later]
    split <;> rfl

theorem nextIn_mem {u : Nat} {n : ChangeMark} : ∀ {l : List ChangeMark}, nextIn u l = some n → n ∈ l
  | c :: d :: rest, next => by
    simp only [nextIn] at next
    split at next
    · cases next
      exact List.mem_cons_of_mem _ List.mem_cons_self
    · exact List.mem_cons_of_mem _ (nextIn_mem next)

/-- Of distinct marks, the one after a mark is another one. -/
theorem nextIn_ne {u : Nat} {n : ChangeMark} :
    ∀ {l : List ChangeMark}, (l.map ChangeMark.uid).Nodup → nextIn u l = some n → n.uid ≠ u
  | c :: d :: rest, nodup, next => by
    obtain ⟨fresh, distinct⟩ := List.nodup_cons.mp nodup
    simp only [nextIn] at next
    split at next
    · next own =>
      cases next
      rintro rfl
      exact fresh (by rw [beq_iff_eq.mp own]; exact List.mem_cons_self)
    · exact nextIn_ne distinct next

theorem State.MarksKeyed.changes_nodup {s : State} (keyed : s.MarksKeyed) : (s.changes.map ChangeMark.uid).Nodup := by
  have uids : ∀ l : List Mark, ((l.filterMap Mark.asChange).map ChangeMark.uid).Sublist (l.map Mark.uid) := by
    intro l
    induction l with
    | nil => exact List.Sublist.refl _
    | cons x xs ih =>
      cases x with
      | change c => exact ih.cons_cons _
      | _ => exact ih.cons _
  exact keyed.1.sublist (uids s.marks)

theorem nextChange_other {s : State} (keyed : s.MarksKeyed) {u : Nat} {later : ChangeMark}
    (next : s.nextChange u = some later) : Mark.change later ∈ s.marks ∧ later.uid ≠ u :=
  ⟨mem_changes.mp (nextIn_mem next), nextIn_ne keyed.changes_nodup next⟩

/-- A mark that changes in its place has the same mark after it. -/
theorem updateChange_nextChange {s : State} (keyed : s.MarksKeyed) {u : Nat} {f : ChangeMark → ChangeMark}
    (keep : ∀ c, (f c).uid = c.uid) {later : ChangeMark} (next : s.nextChange u = some later) :
    (s.updateChange u f).nextChange u = some later := by
  have keep' : ∀ c : ChangeMark, (if c.uid == u then f c else c).uid = c.uid := fun c => by
    split
    · exact keep c
    · rfl
  obtain ⟨-, other⟩ := nextChange_other keyed next
  rw [State.nextChange, updateChange_changes, nextIn_map keep']
  rw [State.nextChange] at next
  rw [next, Option.map_some, if_neg (by simpa using other)]

/-! ### Marks alone in the table -/

/-- A mark of the table once the CHANGE mark named has changed in its place. -/
def Mark.changedAt (u : Nat) (f : ChangeMark → ChangeMark) : Mark → Mark
  | .change c => if c.uid == u then .change (f c) else .change c
  | x => x

theorem updateChange_marks_eq (s : State) (u : Nat) (f : ChangeMark → ChangeMark) :
    (s.updateChange u f).marks = s.marks.map (Mark.changedAt u f) :=
  List.map_congr_left fun x _ => by cases x <;> rfl

namespace Alone

variable {s : State} {m c : ChangeMark} {u : Nat} {f : ChangeMark → ChangeMark}

theorem filter_updateChange (keep : ∀ c, (f c).uid = c.uid) (w : Nat) :
    (s.updateChange u f).marks.filter (Mark.isChangeOf w)
      = (s.marks.filter (Mark.isChangeOf w)).map (Mark.changedAt u f) := by
  rw [updateChange_marks_eq, List.filter_map]
  refine congrArg _ (List.filter_congr fun x _ => ?_)
  cases x with
  | change c =>
    simp only [Function.comp, Mark.changedAt]
    split
    · simp only [Mark.isChangeOf, keep]
    · rfl
  | _ => rfl

/-- The mark alone changes in its place. -/
theorem updateChange (h : Alone s m) (keep : ∀ c, (f c).uid = c.uid) : Alone (s.updateChange m.uid f) (f m) := by
  rw [Alone, keep, filter_updateChange keep, show s.marks.filter (Mark.isChangeOf m.uid) = _ from h]
  simp [Mark.changedAt]

/-- Another mark changes in its place. -/
theorem updateChange_other (h : Alone s m) (keep : ∀ c, (f c).uid = c.uid) (ne : m.uid ≠ u) :
    Alone (s.updateChange u f) m := by
  rw [Alone, filter_updateChange keep, show s.marks.filter (Mark.isChangeOf m.uid) = _ from h]
  simp [Mark.changedAt, ne]

theorem filter_eraseP_other {w : Nat} (ne : u ≠ w) (l : List Mark) :
    (l.eraseP (Mark.isChangeOf w)).filter (Mark.isChangeOf u) = l.filter (Mark.isChangeOf u) := by
  induction l with
  | nil => rfl
  | cons x xs ih =>
    by_cases is : x.isChangeOf w = true
    · have other : ¬ x.isChangeOf u = true := by
        cases x with
        | change c =>
          obtain rfl : c.uid = w := beq_iff_eq.mp is
          rw [isChangeOf_other ne]
          exact Bool.false_ne_true
        | _ => exact Bool.false_ne_true
      rw [List.eraseP_cons_of_pos is, List.filter_cons_of_neg other]
    · rw [List.eraseP_cons_of_neg is, List.filter_cons, List.filter_cons, ih]

/-- R13: another mark takes a new place. -/
theorem replaceChange_other (h : Alone s m) (ne : m.uid ≠ c.uid) : Alone (s.replaceChange c) m := by
  rw [Alone, State.replaceChange]
  exact (filter_insertMark_other (isChangeOf_other ne) _).trans ((filter_eraseP_other ne _).trans h)

end Alone

/-! ### The steps of a late change -/

/-- Two states of an event that touches, beside the splice controller, the mark table and the planner alone. -/
def TableFrame (s t : State) : Prop := SpliceFrame { s with marks := t.marks, planner := t.planner } t

theorem TableFrame.trans {s t u : State} (h : TableFrame s t) (g : TableFrame t u) : TableFrame s u := by
  unfold TableFrame SpliceFrame at *
  rw [g, h]

theorem SpliceFrame.table {s t : State} (h : SpliceFrame s t) : TableFrame s t := by
  rw [TableFrame, h.marks, h.planner]; exact h

/-- The state v of an event from s, whose table holds the marks x and z, each alone, and whose planner is pl. -/
structure Stretched (s v : State) (pl : Option Provisional) (x z : ChangeMark) : Prop where
  frame : TableFrame s v
  evolves : Evolves s v
  planner : v.planner = pl
  first : Alone v x
  later : Alone v z
  apart : x.uid ≠ z.uid

/-- R59: the mark whose end has been recomputed. -/
def endMoved (z : ChangeMark) (p : Coord) : ChangeMark := { z with p := p, xEx := if p = z.p then z.xEx else p }

namespace Stretched

variable {s v : State} {pl : Option Provisional} {x z : ChangeMark}

theorem ofSplice (h : Stretched s v pl x z) {w : State} (frame : SpliceFrame v w) (evolves : Evolves v w) :
    Stretched s w pl x z where
  frame := h.frame.trans frame.table
  evolves := h.evolves.trans evolves
  planner := frame.planner.trans h.planner
  first := h.first.of_marks frame.marks
  later := h.later.of_marks frame.marks
  apart := h.apart

theorem raise (h : Stretched s v pl x z) (k : ErrorKind) (o : ErrorObject) : Stretched s (v.raise k o) pl x z :=
  h.ofSplice (SpliceFrame.refl v).raise (Evolves.refl v).raise

theorem recheckAll (h : Stretched s v pl x z) : Stretched s v.recheckAll pl x z :=
  h.ofSplice v.recheckAll_frame (Evolves.refl v).recheckAll

theorem setPlanner (h : Stretched s v pl x z) (new : Option Provisional) :
    Stretched s { v with planner := new } new x z where
  frame := h.frame.trans rfl
  evolves := h.evolves.setPlanner
  planner := rfl
  first := h.first
  later := h.later
  apart := h.apart

theorem updateLater (h : Stretched s v pl x z) {f : ChangeMark → ChangeMark} (keep : ∀ c, (f c).uid = c.uid) :
    Stretched s (v.updateChange z.uid f) pl x (f z) where
  frame := h.frame.trans rfl
  evolves := h.evolves.updateChange
  planner := h.planner
  first := h.first.updateChange_other keep h.apart
  later := h.later.updateChange keep
  apart := by rw [keep]; exact h.apart

theorem replaceLater (h : Stretched s v pl x z) {c : ChangeMark} (same : c.uid = z.uid) :
    Stretched s (v.replaceChange c) pl x c where
  frame := h.frame.trans rfl
  evolves := h.evolves.replaceChange same (findChange_hasMark h.later.findChange)
  planner := h.planner
  first := h.first.replaceChange_other (by rw [same]; exact h.apart)
  later := h.later.replaceChange same
  apart := by rw [same]; exact h.apart

theorem moveEnd (h : Stretched s v pl x z) (p : Coord) : Stretched s (v.moveEnd z p) pl x (endMoved z p) := by
  unfold State.moveEnd
  split
  · next same =>
    have stays : endMoved z p = z := by rw [endMoved, same, if_pos rfl]
    rw [stays]
    exact h.recheckAll
  · next new =>
    rw [endMoved, if_neg new]
    exact (h.replaceLater (c := { z with p := p, xEx := p }) rfl).recheckAll

theorem provisional (h : Stretched s v pl x z) {pr : Provisional} (planner : pl = some pr) (own : pr.mark = z.uid) :
    v.provisional = some (pr, z) := by
  simp only [State.provisional, h.planner, planner, own, h.later.findChange, Option.map_some]

/-- R80, R136: the later mark, provisional, is curtailed and pinned. -/
theorem curtailAndPin (h : Stretched s v pl x z) {pr : Provisional} (planner : pl = some pr) (own : pr.mark = z.uid)
    {o : Outgoing} (outgoing : z.outgoing = some o) : Stretched s v.curtailAndPin pl x (curtailedMark v z o) := by
  simp only [State.curtailAndPin, h.provisional planner own, curtailedMark]
  split
  case h_2 none => exact nomatch outgoing.symm.trans none
  case h_1 y out =>
  obtain rfl : o = y := Option.some.inj (outgoing.symm.trans out)
  split
  · exact (h.replaceLater (c := { z with p := v.floorEnd o, xEx := v.floorEnd o, pinned := true }) rfl).recheckAll
  · exact (h.updateLater (f := fun c => { c with pinned := true }) fun _ => rfl).recheckAll

end Stretched

end Sys2Proof.Machine
end

section
/-! PROOF. The late change as a whole (R135 to R137): the state before the void is judged, and what the void does. -/

namespace Sys2Proof.Machine

open Sys2Proof

/-! ### The parts of a late change -/

/-- R135: the mark extended by one incoming cut, its decision pending again. -/
def extendedMark (g len : Nat) (x : ChangeMark) : ChangeMark :=
  { x.setCross .decision .pending with
    xEx := plusMm x.xEx len, length := some (g + len), extensions := satAdd 65535 x.extensions 1 }

/-- R74, R135: the later segment with its start moved forward by one cut. -/
def cutOff (o : Outgoing) : Outgoing := { o with start := plusMm o.start o.cutLength }

/-- R74: the later mark with the start of its segment moved. -/
def laterMoved (later : ChangeMark) (o : Outgoing) : ChangeMark := { later with outgoing := some (cutOff o) }

/-- R135: the object of the errors of a late change. -/
def lateObject (m : ChangeMark) : ErrorObject :=
  match m.incoming with
  | some n => .order n
  | none => .none

/-- R135: LATE_CHANGE at the first extension. -/
def raisedLate (m : ChangeMark) (v : State) : State :=
  if m.extensions = 0 then v.raise .lateChange (lateObject m) else v

/-- R136: CHANGE_ABANDONED, with the curtail of an unpinned provisional segment, where the extension asks for it. -/
def abandonedIf (above : Bool) (m : ChangeMark) (later : Nat) (v : State) : State :=
  if above then
    let t := v.raise .changeAbandoned (lateObject m)
    match v.provisional with
    | some (pr, pm) => if pr.mark = later && !pm.pinned then t.curtailAndPin else t
    | none => t
  else v

/-- R137: the void of an incoming segment without length. -/
def voidedIf (m : ChangeMark) (later : Nat) (v : State) : State :=
  match v.findChange later with
  | some l =>
    match l.outgoing with
    | some lo => if lo.start = l.p then v.makeVoid m else v
    | none => v
  | none => v

/-- R136: the extension of mark m, with zone length g, by one cut of the later segment o abandons the change. -/
def abandons (s : State) (m : ChangeMark) (g : Nat) (o : Outgoing) : Bool :=
  firstAbove (gMax s.config) g (g + o.cutLength) m.extensions

theorem abandons_iff {s : State} {m : ChangeMark} {g : Nat} {o : Outgoing} : abandons s m g o = true ↔
    gMax s.config < g + o.cutLength ∧ (g ≤ gMax s.config ∨ m.extensions = 0) := by
  simp [abandons, firstAbove]

/-- R135, R136: the state of a late change before the void is judged. -/
def lateSettled (s : State) (m later : ChangeMark) (o : Outgoing) (g : Nat) : State :=
  (abandonedIf (abandons s m g o) m later.uid
    (raisedLate m ((s.updateChange m.uid (extendedMark g o.cutLength)).moveStart later o))).recheckAll

theorem lateChange_eq {s : State} {m later : ChangeMark} {g : Nat} {o : Outgoing} (next : s.nextChange m.uid = some later)
    (outgoing : later.outgoing = some o) : s.lateChange m g = voidedIf m later.uid (lateSettled s m later o g) := by
  simp only [State.lateChange, next, outgoing]
  rfl

/-! ### The start of the later segment (R74) -/

/-- R74, R75: the later mark is the provisional one and not pinned, so that its end follows its start. -/
def Follows (pl : Option Provisional) (later : ChangeMark) (pr : Provisional) : Prop :=
  pl = some pr ∧ pr.mark = later.uid ∧ later.pinned = false

theorem follows_or (pl : Option Provisional) (later : ChangeMark) :
    (∃ pr, Follows pl later pr) ∨ ∀ pr, pl = some pr → pr.mark ≠ later.uid ∨ later.pinned = true := by
  cases pl with
  | none => exact .inr nofun
  | some pr =>
    by_cases own : pr.mark = later.uid
    · cases pinned : later.pinned with
      | false => exact .inl ⟨pr, rfl, own, pinned⟩
      | true => exact .inr fun _ _ => .inr rfl
    · refine .inr ?_
      rintro _ ⟨⟩
      exact .inl own

theorem Follows.not_stays {pl : Option Provisional} {later : ChangeMark} {pr : Provisional} (h : Follows pl later pr) :
    ¬ ∀ pr, pl = some pr → pr.mark ≠ later.uid ∨ later.pinned = true := fun stays => by
  obtain ⟨is, own, free⟩ := h
  rcases stays pr is with other | pinned
  · exact other own
  · rw [free] at pinned; cases pinned

/-- R74: the end that the recompute gives a later mark whose segment starts one cut further on. -/
def followedEnd (s : State) (later : ChangeMark) (o : Outgoing) (pr : Provisional) : Coord :=
  laterOf (cleanEnd s.cullZones o.cutLength pr.count (cutOff o).start) later.p

theorem recomputeEnd_eq {s : State} {pr : Provisional} {m : ChangeMark} {o : Outgoing}
    (provisional : s.provisional = some (pr, m)) (outgoing : m.outgoing = some o) : s.recomputeEnd
      = s.moveEnd m (laterOf (cleanEnd s.cullZones o.cutLength pr.count pr.base) m.p) := by
  simp only [State.recomputeEnd, provisional, outgoing]

namespace Stretched

variable {s v : State} {pl : Option Provisional} {x z later : ChangeMark} {o : Outgoing} {pr : Provisional}

/-- R74: a later mark that is frozen or pinned keeps its end. -/
theorem moveStart_stays (h : Stretched s v pl x later)
    (stays : ∀ pr, pl = some pr → pr.mark ≠ later.uid ∨ later.pinned = true) :
    Stretched s (v.moveStart later o) pl x (laterMoved later o) := by
  have moved := h.updateLater (f := fun c => { c with outgoing := some (cutOff o) }) fun _ => rfl
  have eq : v.moveStart later o = v.updateChange later.uid fun c => { c with outgoing := some (cutOff o) } := by
    unfold State.moveStart
    rw [h.planner]
    cases planner : pl with
    | none => rfl
    | some pr => exact if_neg (by rcases stays pr planner with other | pinned <;> simp [*])
  rw [eq]
  exact moved

/-- R74, R135: the end of a provisional mark that is not pinned is recomputed from the new start. -/
theorem moveStart_follows (h : Stretched s v pl x later) (follows : Follows pl later pr) :
    Stretched s (v.moveStart later o) (some { pr with base := (cutOff o).start }) x
      (endMoved (laterMoved later o) (followedEnd v later o pr)) := by
  obtain ⟨planner, own, free⟩ := follows
  have based := (h.updateLater (f := fun c => { c with outgoing := some (cutOff o) }) fun _ => rfl).setPlanner
    (some { pr with base := (cutOff o).start })
  have eq : v.moveStart later o = State.moveEnd
      { v.updateChange later.uid (fun c => { c with outgoing := some (cutOff o) }) with
        planner := some { pr with base := (cutOff o).start } } (laterMoved later o) (followedEnd v later o pr) := by
    have zones := updateChange_cullZones v later.uid fun c => { c with outgoing := some (cutOff o) }
    have test : (decide (pr.mark = later.uid) && !later.pinned) = true := by simp [own, free]
    have recomputed := recomputeEnd_eq (based.provisional rfl own) rfl
    unfold State.moveStart
    rw [h.planner, planner]
    refine (if_pos test).trans (recomputed.trans ?_)
    rw [followedEnd, ← zones]
    rfl
  rw [eq]
  exact based.moveEnd (followedEnd v later o pr)

theorem raisedLate (h : Stretched s v pl x z) (m : ChangeMark) : Stretched s (raisedLate m v) pl x z := by
  unfold Machine.raisedLate
  split
  · exact h.raise _ _
  · exact h

/-- R136: an abandoned change leaves a later mark that is frozen or pinned. -/
theorem abandonedIf_stays (h : Stretched s v pl x z) (above : Bool) (m : ChangeMark)
    (stays : ∀ pr, pl = some pr → pr.mark ≠ z.uid ∨ z.pinned = true) :
    Stretched s (abandonedIf above m z.uid v) pl x z := by
  unfold abandonedIf
  cases above with
  | false => exact h
  | true =>
    rw [if_pos rfl]
    dsimp only
    split
    · next pr pm provisional =>
      have stays' : ¬ (decide (pr.mark = z.uid) && !pm.pinned) = true := by
        obtain ⟨planner, own⟩ := provisional_planner provisional
        rcases stays pr (h.planner ▸ planner) with other | pinned
        · simp [other]
        · intro both
          simp only [Bool.and_eq_true, decide_eq_true_eq] at both
          obtain ⟨same, free⟩ := both
          rw [h.provisional (h.planner ▸ planner) same] at provisional
          cases provisional
          rw [pinned] at free
          cases free
      rw [if_neg stays']
      exact h.raise _ _
    · exact h.raise _ _

/-- R80, R136: an abandoned change curtails a later mark that is provisional and not pinned. -/
theorem abandonedIf_follows (h : Stretched s v pl x z) (above : Bool) (m : ChangeMark) (follows : Follows pl z pr)
    (outgoing : z.outgoing = some o) :
    Stretched s (abandonedIf above m z.uid v) pl x (if above then curtailedMark v z o else z) := by
  obtain ⟨planner, own, free⟩ := follows
  unfold abandonedIf
  cases above with
  | false => exact h
  | true =>
    rw [if_pos rfl, if_pos rfl, h.provisional planner own]
    dsimp only
    rw [if_pos (by simp [own, free])]
    exact (h.raise _ _).curtailAndPin planner own outgoing

theorem voidedIf (h : Stretched s v pl x z) (m : ChangeMark) {u : Nat} (own : z.uid = u) (outgoing : z.outgoing = some o) :
    voidedIf m u v = if o.start = z.p then v.makeVoid m else v := by
  subst own
  simp only [Machine.voidedIf, h.later.findChange, outgoing]

end Stretched

theorem abandonedIf_evolves (above : Bool) (m : ChangeMark) (later : Nat) (v : State) : Evolves v (abandonedIf above m later v) := by
  unfold abandonedIf
  dsimp only
  repeat' split
  all_goals first | exact (Evolves.refl v).raise.curtailAndPin | exact (Evolves.refl v).raise | exact Evolves.refl v

theorem abandonedIf_isIn (m : ChangeMark) (later : Nat) (v : State) :
    ErrorKind.changeAbandoned.isIn (abandonedIf true m later v).errors.status = true := by
  have raised := raise_isIn v .changeAbandoned (lateObject m)
  unfold abandonedIf
  rw [if_pos rfl]
  dsimp only
  repeat' split
  · exact (Evolves.refl (v.raise .changeAbandoned (lateObject m))).curtailAndPin.status _ raised
  all_goals exact raised

/-! ### The late change before the void is judged -/

theorem curtailedMark_uid (s : State) (m : ChangeMark) (o : Outgoing) : (curtailedMark s m o).uid = m.uid := by
  unfold curtailedMark; split <;> rfl

theorem curtailedMark_outgoing (s : State) (m : ChangeMark) (o : Outgoing) :
    (curtailedMark s m o).outgoing = m.outgoing := by
  unfold curtailedMark; split <;> rfl

theorem floorEnd_congr {s t : State} (odometer : t.odometer = s.odometer) (config : t.config = s.config) (o : Outgoing) :
    t.floorEnd o = s.floorEnd o := by
  simp only [State.floorEnd, odometer, config]

theorem curtailedMark_congr {s t : State} (odometer : t.odometer = s.odometer) (config : t.config = s.config)
    (m : ChangeMark) (o : Outgoing) : curtailedMark t m o = curtailedMark s m o := by
  simp only [curtailedMark, floorEnd_congr odometer config]

theorem lateSettled_raised (s : State) {m : ChangeMark} (later : ChangeMark) (o : Outgoing) (g : Nat)
    (first : m.extensions = 0) : ErrorKind.lateChange.isIn (lateSettled s m later o g).errors.status = true := by
  have now : ErrorKind.lateChange.isIn (raisedLate m
      ((s.updateChange m.uid (extendedMark g o.cutLength)).moveStart later o)).errors.status = true := by
    rw [raisedLate, if_pos first]; exact raise_isIn _ _ _
  exact (abandonedIf_evolves _ _ _ _).recheckAll.status _ now

theorem lateSettled_abandoned {s : State} {m : ChangeMark} (later : ChangeMark) {o : Outgoing} {g : Nat}
    (above : abandons s m g o = true) :
    ErrorKind.changeAbandoned.isIn (lateSettled s m later o g).errors.status = true := by
  rw [lateSettled, above]
  exact (Evolves.refl (abandonedIf true m later.uid _)).recheckAll.status _ (abandonedIf_isIn _ _ _)

/-- R74, R136: the later mark behind a late change, which abandons the change or not, where its end follows its start. -/
def laterFollowed (s : State) (m later : ChangeMark) (o : Outgoing) (g : Nat) (pr : Provisional) : ChangeMark :=
  let y := endMoved (laterMoved later o) (followedEnd s later o pr)
  if abandons s m g o then curtailedMark s y (cutOff o) else y

theorem laterFollowed_uid (s : State) (m later : ChangeMark) (o : Outgoing) (g : Nat) (pr : Provisional) :
    (laterFollowed s m later o g pr).uid = later.uid := by
  unfold laterFollowed
  dsimp only
  split
  · exact curtailedMark_uid _ _ _
  · rfl

theorem laterFollowed_outgoing (s : State) (m later : ChangeMark) (o : Outgoing) (g : Nat) (pr : Provisional) :
    (laterFollowed s m later o g pr).outgoing = some (cutOff o) := by
  unfold laterFollowed
  dsimp only
  split
  · exact curtailedMark_outgoing _ _ _
  · rfl

section Late

variable {u : State} {m later x : ChangeMark} (o : Outgoing) (g : Nat) (mark : Alone u x) (same : x.uid = m.uid)
  (behind : Alone u later) (apart : later.uid ≠ m.uid)
include mark same behind apart

theorem extended_stretched : Stretched u (u.updateChange m.uid (extendedMark g o.cutLength)) u.planner
    (extendedMark g o.cutLength x) later where
  frame := rfl
  evolves := (Evolves.refl u).updateChange
  planner := rfl
  first := same ▸ mark.updateChange fun _ => rfl
  later := behind.updateChange_other (fun _ => rfl) apart
  apart := fun e => apart (e.symm.trans same)

/-- R74, R135: a late change before a mark that is frozen or pinned. -/
theorem lateSettled_stays (stays : ∀ pr, u.planner = some pr → pr.mark ≠ later.uid ∨ later.pinned = true) :
    Stretched u (lateSettled u m later o g) u.planner (extendedMark g o.cutLength x) (laterMoved later o) :=
  ((((extended_stretched o g mark same behind apart).moveStart_stays stays).raisedLate m).abandonedIf_stays
    (abandons u m g o) m stays).recheckAll

/-- R74, R135, R136: a late change before the provisional mark, which is not pinned. -/
theorem lateSettled_follows {pr : Provisional} (follows : Follows u.planner later pr) :
    Stretched u (lateSettled u m later o g) (some { pr with base := (cutOff o).start }) (extendedMark g o.cutLength x)
      (laterFollowed u m later o g pr) := by
  have moved := ((extended_stretched o g mark same behind apart).moveStart_follows (o := o) follows).raisedLate m
  have zones : followedEnd (u.updateChange m.uid (extendedMark g o.cutLength)) later o pr = followedEnd u later o pr := by
    simp only [followedEnd, updateChange_cullZones]
  rw [zones] at moved
  obtain ⟨-, own, free⟩ := follows
  have settled := (moved.abandonedIf_follows (abandons u m g o) m ⟨rfl, own, free⟩ rfl).recheckAll
  rw [curtailedMark_congr moved.evolves.odometer moved.evolves.config] at settled
  exact settled

end Late

end Sys2Proof.Machine
end

section
/-! PROOF. The void of an incoming segment (R137), and what a decision crossing does (O43). -/

namespace Sys2Proof.Machine

open Sys2Proof

/-! ### The void (R137) -/

/-- R128: the entry that the walk gives to a station is one of the list. -/
theorem walkList_entry (s : State) {e : Nat × Nat × Pattern × Station} :
    ∀ {l : List Decision}, (s.walkList l).2 = some e → ∃ d ∈ l, d.mark = e.1
  | d :: l, given => by
    have later (h : (s.walkList l).2 = some e) : ∃ c ∈ d :: l, c.mark = e.1 := by
      obtain ⟨c, mem, mark⟩ := walkList_entry s h
      exact ⟨c, List.mem_cons_of_mem _ mem, mark⟩
    unfold State.walkList at given
    dsimp only at given
    split at given
    · exact later given
    · cases given
    · split at given
      · cases given
      · split at given
        · exact later given
        · split at given
          · cases given; exact ⟨d, List.mem_cons_self, rfl⟩
          · cases given

/-- R128: after the walk a station serves the mark that it served, or one of the list. -/
theorem walk_served (s : State) (st : Station) : (s.walk.station st).served = (s.station st).served
    ∨ ∃ d ∈ s.decisions, (s.walk.station st).served = some d.mark := by
  unfold State.walk
  dsimp only
  split
  · next mark n pat given entry =>
    obtain ⟨d, mem, own⟩ := walkList_entry s entry
    obtain rfl : d.mark = mark := own
    by_cases here : st = given
    · subst here
      refine .inr ⟨d, mem, ?_⟩
      cases st <;> simp [State.assignSet, State.queueSet, State.station, State.setStation, Pair.get, Pair.set]
    · refine .inl ?_
      cases st <;> cases given <;>
        first
        | exact absurd rfl here
        | simp [State.assignSet, State.queueSet, State.station, State.setStation, Pair.get, Pair.set]
  · exact .inl rfl

/-- R137: a station in SETTING or READY for the mark becomes IDLE, its queued set withdrawn. -/
def freedFor (uid : Nat) (st : Station) (s : State) : State :=
  let x := s.station st
  if x.served = some uid ∧ (x.state = .setting ∨ x.state = .ready) then
    (s.setStation st { x with
      state := .idle, order := none, served := none, retry := 0, timer := none, setTag := none }).withdrawSet st
  else s

theorem makeVoid_eq (s : State) (m : ChangeMark) : s.makeVoid m =
    ((freedFor m.uid .b (freedFor m.uid .a (s.updateChange m.uid fun x => x.setCross .decision .done))).removeDecision
      m.uid) := rfl

theorem freedFor_frame (uid : Nat) (st : Station) (s : State) : freedFor uid st s =
    { s with stations := (freedFor uid st s).stations, link := (freedFor uid st s).link } := by
  unfold freedFor
  dsimp only
  split <;> rfl

theorem freedFor_other (uid : Nat) (st : Station) (s : State) :
    (freedFor uid st s).station st.other = s.station st.other := by
  unfold freedFor
  dsimp only
  split
  · cases st <;> rfl
  · rfl

theorem freedFor_served {uid : Nat} {st : Station} {s : State}
    (waits : (s.station st).state = .setting ∨ (s.station st).state = .ready) :
    ((freedFor uid st s).station st).served ≠ some uid := by
  unfold freedFor
  dsimp only
  split
  · have none : ((s.setStation st { s.station st with
        state := .idle, order := none, served := none, retry := 0, timer := none, setTag := none }).withdrawSet
        st).station st = { s.station st with
          state := .idle, order := none, served := none, retry := 0, timer := none, setTag := none } := by
      cases st <;> rfl
    rw [none]
    exact nofun
  · next kept => exact fun served => kept ⟨served, waits⟩

section Void

variable (s : State) (m : ChangeMark)

/-- R137: beside the mark, a void touches the slitter exchange alone. -/
theorem makeVoid_frame : s.makeVoid m =
    { s.updateChange m.uid (fun x => x.setCross .decision .done) with
      decisions := (s.makeVoid m).decisions, stations := (s.makeVoid m).stations, link := (s.makeVoid m).link
      errors := (s.makeVoid m).errors, serial := (s.makeVoid m).serial } := by
  rw [makeVoid_eq, State.removeDecision, walk_frame, freedFor_frame, freedFor_frame]

/-- R137: the entry is off the list. -/
theorem makeVoid_decisions : ∀ e ∈ (s.makeVoid m).decisions, e.mark ≠ m.uid := by
  intro e mem
  rw [makeVoid_eq, State.removeDecision, walk_frame] at mem
  have mark := List.mem_map_of_mem (f := Decision.mark) mem
  rw [walkList_marks] at mark
  obtain ⟨d, kept, same⟩ := List.mem_map.mp mark
  rw [← same]
  simpa using (List.mem_filter.mp kept).2

/-- R137: no station in SETTING or READY serves the mark any longer. -/
theorem makeVoid_served {st : Station} (waits : (s.station st).state = .setting ∨ (s.station st).state = .ready) :
    ((s.makeVoid m).station st).served ≠ some m.uid := by
  have freed : ((freedFor m.uid .b (freedFor m.uid .a
      (s.updateChange m.uid fun x => x.setCross .decision .done))).station st).served ≠ some m.uid := by
    cases st with
    | a => rw [show Station.a = Station.b.other from rfl, freedFor_other]; exact freedFor_served waits
    | b =>
      refine freedFor_served ?_
      rw [show Station.b = Station.a.other from rfl, freedFor_other]
      exact waits
  rw [makeVoid_eq, State.removeDecision]
  rcases walk_served _ st with same | ⟨d, mem, served⟩
  · rw [same]; exact freed
  · rw [served]
    have other : d.mark ≠ m.uid := by simpa using (List.mem_filter.mp mem).2
    exact fun is => other (Option.some.inj is)

end Void

/-- R137: the state of a late change in which the void has been judged, where the later segment starts at `start`. -/
def judged (m z : ChangeMark) (start : Coord) (v : State) : State := if start = z.p then v.makeVoid m else v

section Judged

variable {u v : State} {pl : Option Provisional} {m x z : ChangeMark} {start : Coord} (h : Stretched u v pl x z)
  (own : x.uid = m.uid)

theorem judged_open (differs : start ≠ z.p) : judged m z start v = v := if_neg differs

theorem judged_void (meets : start = z.p) : judged m z start v = v.makeVoid m := if_pos meets

theorem judged_evolves : Evolves v (judged m z start v) := by
  unfold judged
  split
  · exact (Evolves.refl v).makeVoid
  · exact Evolves.refl v

include h

/-- What the void leaves alone. -/
theorem judged_keeps : (judged m z start v).planner = pl ∧ (judged m z start v).orders = u.orders
    ∧ (judged m z start v).reels = u.reels ∧ (judged m z start v).knife = u.knife := by
  have kept : v.planner = pl ∧ v.orders = u.orders ∧ v.reels = u.reels ∧ v.knife = u.knife :=
    ⟨h.planner, h.frame.orders, h.frame.reels, h.frame.knife⟩
  unfold judged
  split
  · rw [makeVoid_frame]; exact kept
  · exact kept

include own

/-- R137: the mark, whose decision is done where its incoming segment is void. -/
theorem judged_mark : ∃ y, Mark.change y ∈ (judged m z start v).marks ∧ y = { x with crossings := y.crossings }
    ∧ (start ≠ z.p → y = x) := by
  unfold judged
  split
  · next meets =>
    rw [makeVoid_frame, ← own]
    exact ⟨_, (h.first.updateChange (f := fun x => x.setCross .decision .done) fun _ => rfl).mem, rfl, absurd meets⟩
  · exact ⟨x, h.first.mem, rfl, fun _ => rfl⟩

theorem judged_later : Mark.change z ∈ (judged m z start v).marks := by
  unfold judged
  split
  · rw [makeVoid_frame, ← own]
    exact (h.later.updateChange_other (f := fun x => x.setCross .decision .done) (fun _ => rfl) h.apart.symm).mem
  · exact h.later.mem

end Judged

/-- The late change as a whole. -/
theorem lateChange_judged {u : State} {m later x z : ChangeMark} {o : Outgoing} {g : Nat} {pl : Option Provisional}
    (next : u.nextChange m.uid = some later) (outgoing : later.outgoing = some o)
    (settled : Stretched u (lateSettled u m later o g) pl x z) (own : z.uid = later.uid)
    (segment : z.outgoing = some (cutOff o)) :
    u.lateChange m g = judged m z (cutOff o).start (lateSettled u m later o g) := by
  rw [lateChange_eq next outgoing, settled.voidedIf m own segment]
  rfl

end Sys2Proof.Machine
end

section
/-! PROOF. What a decision crossing does (O43): each entry of the decision list at its crossing. -/

namespace Sys2Proof.Machine

open Sys2Proof

/-! ### The marks at a decision crossing -/

theorem setCross_mem {m : ChangeMark} {c : Cross} (has : ∃ e ∈ m.crossings, e.name = c) (st : CrossStatus) :
    ⟨c, st⟩ ∈ (m.setCross c st).crossings := by
  obtain ⟨e, mem, rfl⟩ := has
  exact List.mem_map.mpr ⟨e, mem, if_pos rfl⟩

theorem setCross_has {m : ChangeMark} {c : Cross} (has : ∃ e ∈ m.crossings, e.name = c) (st : CrossStatus) :
    ∃ e ∈ (m.setCross c st).crossings, e.name = c := ⟨_, setCross_mem has st, rfl⟩

theorem advanced_keyed {s : State} (keyed : s.MarksKeyed) : (advanced s).MarksKeyed := by
  rw [advanced_frame]; exact keyed

theorem decided_cullZones (s : State) (m : ChangeMark) : s.cullZones = (decided s m).cullZones :=
  (advanced_cullZones s).symm.trans (updateChange_cullZones _ _ _).symm

theorem decided_planner (s : State) (m : ChangeMark) : (decided s m).planner = s.planner :=
  advanced_planner s

section Late

variable {s : State} {m later : ChangeMark} {n g : Nat} {o : Outgoing} (sole : SoleEvent s (.fire m.uid .decision))
  (found : s.findMark m.uid = some (.change m)) (next : s.nextChange m.uid = some later)
include sole found next

theorem decided_alone : Alone (decided s m) (m.setCross .decision .done) ∧ Alone (decided s m) later
    ∧ later.uid ≠ m.uid ∧ (decided s m).nextChange m.uid = some later := by
  obtain ⟨-, keyed, -⟩ := sole
  obtain ⟨mem, other⟩ := nextChange_other keyed next
  have marks := advanced_marks s
  have next' : (advanced s).nextChange m.uid = some later := by
    rw [State.nextChange, advanced_changes]; exact next
  exact ⟨((keyed.alone (findMark_mem found).1).of_marks marks).updateChange fun _ => rfl,
    ((keyed.alone mem).of_marks marks).updateChange_other (fun _ => rfl) other, other,
    updateChange_nextChange (f := fun x => x.setCross .decision .done) (advanced_keyed keyed) (fun _ => rfl) next'⟩

variable (incoming : m.incoming = some n) (length : m.length = some g) {d : Decision} {rest : List Decision}
  (list : s.decisions = d :: rest) (own : d.mark = m.uid)
  (late : d.status = .unassigned ∨ ∃ st, d.status = .servedBy st ∧ (s.station st).state ≠ .ready)
  (outgoing : later.outgoing = some o)
include incoming length list own late outgoing

/-- R135: the count with a late change, whose later mark becomes z. -/
theorem exec_late {pl : Option Provisional} {x z : ChangeMark}
    (settled : Stretched (decided s m) (lateSettled (decided s m) m later o g) pl x z) (uid : z.uid = later.uid)
    (segment : z.outgoing = some (cutOff o)) :
    exec .forwardCount s = .next (judged m z (cutOff o).start (lateSettled (decided s m) m later o g)) := by
  obtain ⟨-, -, -, next'⟩ := decided_alone sole found next
  rw [exec_decision sole found incoming, decision_late (by rw [decided_decisions]; exact list) own length
    (by simpa only [decided_station] using late), lateChange_judged next' outgoing settled uid segment]

end Late

/-! ### What a late change leaves (R74, R135 to R137) -/

theorem decided_config (s : State) (m : ChangeMark) : (decided s m).config = s.config := advanced_config s

theorem abandons_decided {s : State} {m : ChangeMark} {g : Nat} {o : Outgoing} : abandons (decided s m) m g o = true ↔
    gMax s.config < g + o.cutLength ∧ (g ≤ gMax s.config ∨ m.extensions = 0) := by
  rw [abandons_iff, decided_config]

/-- R74, R80, R136: the later mark from the table before the count. -/
theorem laterFollowed_decided (s : State) (m later : ChangeMark) (o : Outgoing) (g : Nat) (pr : Provisional) :
    let y := endMoved (laterMoved later o) (laterOf (cleanEnd s.cullZones o.cutLength pr.count (cutOff o).start) later.p)
    if gMax s.config < g + o.cutLength ∧ (g ≤ gMax s.config ∨ m.extensions = 0) then
      laterFollowed (decided s m) m later o g pr = curtailedMark (advanced s) y (cutOff o)
    else laterFollowed (decided s m) m later o g pr = y := by
  have same : followedEnd (decided s m) later o pr
      = laterOf (cleanEnd s.cullZones o.cutLength pr.count (cutOff o).start) later.p := by
    rw [followedEnd, ← decided_cullZones]
  simp only [laterFollowed, same]
  split
  · next above => exact if_pos (abandons_decided.mpr above)
  · next below => exact if_neg (mt abandons_decided.mp below)

section Left

variable {s : State} {m later z : ChangeMark} {g : Nat} {o : Outgoing} {pl : Option Provisional}

/-- R135, R136: the errors of a late change. -/
theorem late_errors :
    (m.extensions = 0 → ErrorKind.lateChange.isIn
        (judged m z (cutOff o).start (lateSettled (decided s m) m later o g)).errors.status = true)
      ∧ (gMax s.config < g + o.cutLength → (g ≤ gMax s.config ∨ m.extensions = 0) → ErrorKind.changeAbandoned.isIn
        (judged m z (cutOff o).start (lateSettled (decided s m) m later o g)).errors.status = true) :=
  ⟨fun first => judged_evolves.status _ (lateSettled_raised _ later o g first), fun long now =>
    judged_evolves.status _ (lateSettled_abandoned later (abandons_decided.mpr ⟨long, now⟩))⟩

variable {v : State} (settled : Stretched (decided s m) v pl (extendedMark g o.cutLength (m.setCross .decision .done)) z)
include settled

/-- R135: the extended mark, its decision pending where the void does not come. -/
theorem late_mark (has : ∃ e ∈ m.crossings, e.name = .decision) :
    ∃ x, Mark.change x ∈ (judged m z (cutOff o).start v).marks ∧ x.uid = m.uid ∧ x.p = m.p
      ∧ x.xEx = plusMm m.xEx o.cutLength ∧ x.length = some (g + o.cutLength) ∧ x.extensions = min 65535 (m.extensions + 1)
      ∧ ((cutOff o).start ≠ z.p → ⟨.decision, .pending⟩ ∈ x.crossings) := by
  obtain ⟨x, mem, is, differs⟩ := judged_mark settled rfl (start := (cutOff o).start)
  refine ⟨x, mem, ?_, ?_, ?_, ?_, ?_, fun open_ => ?_⟩
  · rw [is]; rfl
  · rw [is]; rfl
  · rw [is]; rfl
  · rw [is]; rfl
  · rw [is]; rfl
  · rw [differs open_]
    exact setCross_mem (setCross_has has .done) .pending

theorem late_open (differs : (cutOff o).start ≠ z.p) : (judged m z (cutOff o).start v).decisions = s.decisions
    ∧ (judged m z (cutOff o).start v).stations = s.stations := by
  rw [judged_open differs, settled.frame.decisions, settled.frame.stations]
  exact ⟨decided_decisions s m, decided_stations s m⟩

/-- R137: the void takes the entry off the list and frees a station that was setting or ready for it. -/
theorem late_void (meets : (cutOff o).start = z.p) :
    (∀ e ∈ (judged m z (cutOff o).start v).decisions, e.mark ≠ m.uid)
      ∧ ∀ st, ((s.station st).state = .setting ∨ (s.station st).state = .ready) →
        ((judged m z (cutOff o).start v).station st).served ≠ some m.uid := by
  have stations : v.stations = s.stations := settled.frame.stations.trans (decided_stations s m)
  rw [judged_void meets]
  exact ⟨makeVoid_decisions v m, fun st waits => makeVoid_served v m (by rwa [station_of_stations stations])⟩

theorem late_keeps : (judged m z (cutOff o).start v).planner = pl ∧ (judged m z (cutOff o).start v).orders = s.orders
    ∧ (judged m z (cutOff o).start v).reels = (advanced s).reels ∧ (judged m z (cutOff o).start v).knife = s.knife := by
  obtain ⟨planner, orders, reels, knife⟩ := judged_keeps settled (m := m) (start := (cutOff o).start)
  exact ⟨planner, orders.trans (by rw [decided, advanced_frame]; rfl), reels, knife.trans (advanced_knife s)⟩

end Left

/-- Settles O43. -/
theorem decisionServesSkipsOrExtends : Obligations.DecisionServesSkipsOrExtends := by
  intro s m n g sole found incoming length
  have run := exec_decision sole found incoming
  have station := decided_station s m
  have engaged : (decided s m).engaged = s.engaged := engaged_of_stations (decided_stations s m)
  have decisions := decided_decisions s m
  refine ⟨fun other => ?_, fun d rest list own => ⟨fun skip => ?_, fun st served ready room => ?_,
    fun late later o next outgoing => ?_⟩⟩
  · rw [run, decision_elsewhere (by rw [decisions]; exact other)]
    rfl
  · rw [decision_skip (by rw [decisions]; exact list) own length skip, skipDecision_eq] at run
    refine ⟨fun none => ?_, fun st some_ => ?_⟩
    · simp only [skipped, engaged, none, decisions] at run
      exact ⟨run, walk_walked _⟩
    · simp only [skipped, engaged, some_, decisions, station, incoming] at run
      exact ⟨run, walk_walked _⟩
  · have ready' : ((decided s m).station st).state = .ready := by rw [station]; exact ready
    have other := engaged_of_ready ready'
    rw [decision_ready (by rw [decisions]; exact list) own length served ready',
      exchange_room (by rw [decided_link]; exact room) other] at run
    obtain ⟨engages, lifts, stays⟩ := exchanged_station (m := m) other
    simp only [station, engaged, engagedStation, decided_serial] at engages lifts stays
    refine ⟨_, ⟨run, walk_walked _⟩, ?_, engages, lifts, stays⟩
    have frame := exchanged_frame (decided s m) m st
    simp only [decisions, decided_link, engaged, decided_serial] at frame
    exact frame
  · obtain ⟨mark, behind, apart, -⟩ := decided_alone sole found next
    have has := decision_crossing sole found
    have planner := decided_planner s m
    rcases follows_or s.planner later with ⟨pr, follows⟩ | stays
    · have settled := lateSettled_follows o g mark rfl behind apart (planner ▸ follows)
      have uid := laterFollowed_uid (decided s m) m later o g pr
      have segment := laterFollowed_outgoing (decided s m) m later o g pr
      have count := exec_late sole found next incoming length list own late outgoing settled uid segment
      obtain ⟨x, there, own', end_, exchange, zone, extensions, pending⟩ := late_mark settled (o := o) has
      obtain ⟨raised, abandoned⟩ := late_errors (s := s) (m := m) (later := later) (g := g) (o := o)
        (z := laterFollowed (decided s m) m later o g pr)
      obtain ⟨kept, orders, reels, knife⟩ := late_keeps settled (o := o)
      obtain ⟨is, -, -⟩ := id follows
      refine ⟨_, count, ⟨x, there, own', end_, exchange, zone, extensions, fun none => ?_⟩,
        ⟨_, judged_later settled rfl, uid, segment, fun stays => absurd stays follows.not_stays⟩,
        fun pr' is' _ _ => ?_, raised, abandoned, fun none => ?_, fun stays => absurd stays follows.not_stays, orders, reels, knife⟩
      · rw [is] at none; cases none
      · cases is.symm.trans is'
        refine ⟨kept, cleanEnd s.cullZones o.cutLength pr.count (cutOff o).start, x, _, _,
          endsSpan_cleanEnd rfl _ _ _, rfl, judged_later settled rfl, ?_, fun differs => ?_⟩
        · exact laterFollowed_decided s m later o g pr
        · obtain ⟨decisions', stations'⟩ := late_open settled differs
          exact ⟨decisions', stations', there, own', pending differs⟩
      · rw [is] at none; cases none
    · have settled := lateSettled_stays o g mark rfl behind apart (planner ▸ stays)
      have count := exec_late sole found next incoming length list own late outgoing settled rfl rfl
      obtain ⟨x, there, own', end_, exchange, zone, extensions, pending⟩ := late_mark settled (o := o) has
      obtain ⟨raised, abandoned⟩ := late_errors (s := s) (m := m) (later := later) (g := g) (o := o)
        (z := laterMoved later o)
      obtain ⟨kept, orders, reels, knife⟩ := late_keeps settled (o := o)
      refine ⟨_, count, ⟨x, there, own', end_, exchange, zone, extensions, fun _ differs => pending differs⟩,
        ⟨_, judged_later settled rfl, rfl, rfl, fun _ => ⟨kept.trans planner, rfl⟩⟩, fun pr is same free =>
        absurd stays (Follows.not_stays ⟨is, same, free⟩), raised, abandoned, fun _ differs => late_open settled differs,
        fun _ meets => late_void settled meets, orders, reels, knife⟩

end Sys2Proof.Machine
end

section
/-! PROOF. The joint pulse (O39): the plan, the deferred plan and the running joint of a stand, which the rules of the splice
controller on reels and gaps leave as they are. -/

namespace Sys2Proof.Machine

open Sys2Proof

/-- What a stand holds beside its splice in hand: its plan, its deferred plan and its running joint. -/
def Sequencer.held (q : Sequencer) : Option Plan × Option Plan × Option RunningJoint :=
  (q.plan, q.deferred, q.runningJoint)

/-- Every stand holds in t what it holds in s. -/
def HeldKept (s t : State) : Prop := ∀ j, (t.seq j).held = (s.seq j).held

namespace HeldKept

variable {s t u : State} {k : Stand}

theorem refl (s : State) : HeldKept s s := fun _ => rfl
theorem trans (h : HeldKept s t) (g : HeldKept t u) : HeldKept s u := fun j => (g j).trans (h j)

theorem plan (h : HeldKept s t) (j : Stand) : (t.seq j).plan = (s.seq j).plan := congrArg Prod.fst (h j)
theorem deferred (h : HeldKept s t) (j : Stand) : (t.seq j).deferred = (s.seq j).deferred :=
  congrArg (·.2.1) (h j)
theorem runningJoint (h : HeldKept s t) (j : Stand) : (t.seq j).runningJoint = (s.seq j).runningJoint :=
  congrArg (·.2.2) (h j)

theorem ofSeqs (h : HeldKept s t) (same : u.seqs = t.seqs) : HeldKept s u :=
  h.trans fun j => congrArg (fun q : PerStand Sequencer => (q.get j).held) same

theorem setSeq (h : HeldKept s t) {q : Sequencer} (same : q.held = (t.seq k).held := by rfl) :
    HeldKept s (t.setSeq k q) :=
  h.trans fun j => by
    by_cases e : j = k
    · subst e; rw [State.seq_setSeq_same, same]
    · rw [State.seq_setSeq_other _ _ e]

theorem bumpSerial (h : HeldKept s t) : HeldKept s t.bumpSerial := h.ofSeqs rfl
theorem placeMark (h : HeldKept s t) {m : Mark} : HeldKept s (t.placeMark m) := h.ofSeqs rfl
theorem raise (h : HeldKept s t) {e : ErrorKind} {o : ErrorObject} : HeldKept s (t.raise e o) := h.ofSeqs rfl

theorem enqueue (h : HeldKept s t) {c : Command} : HeldKept s (t.enqueue c) :=
  h.ofSeqs (by rw [enqueue_frame])

theorem capRelease (h : HeldKept s t) : HeldKept s t.capRelease := by
  unfold State.capRelease; split
  · exact (h.ofSeqs (u := { t with capFlag := false }) rfl).enqueue
  · exact h

theorem capRequest (h : HeldKept s t) : HeldKept s t.capRequest := by
  unfold State.capRequest; split
  · exact (h.ofSeqs (u := { t with capFlag := true }) rfl).enqueue
  · exact h

theorem released (h : HeldKept s t) {q : SeqState} : HeldKept s (t.released q) := by
  unfold State.released; split
  · exact h.capRelease
  · exact h

theorem enterSplicing (h : HeldKept s t) {p : Pos} : HeldKept s (t.enterSplicing k p) := by
  unfold State.enterSplicing
  exact h.setSeq.bumpSerial.enqueue

theorem enterWaitGo (h : HeldKept s t) {r : Required} : HeldKept s (t.enterWaitGo k r) := by
  unfold State.enterWaitGo
  exact h.setSeq.capRequest

/-- R108: a reel check changes the splice in hand alone. -/
theorem checkReel (h : HeldKept s t) : HeldKept s (t.checkReel k) := by
  unfold State.checkReel
  dsimp only
  repeat' split
  · exact h
  · exact h.enterSplicing
  · exact h.enterWaitGo
  · exact h.enterSplicing
  · exact h.enterWaitGo
  · exact h.setSeq
  · exact h.setSeq
  · exact h.setSeq
  · exact h.setSeq.capRelease
  · exact h

theorem recheck (h : HeldKept s t) : HeldKept s (t.recheck k) := by
  unfold State.recheck; split
  · exact h.checkReel
  · exact h

theorem recheckAll (h : HeldKept s t) : HeldKept s t.recheckAll :=
  h.trans (takeEvents_rel refl (fun _ _ _ => trans) (fun _ _ => rfl) (fun _ _ u => (refl u).recheck) t)

theorem dueCheck (h : HeldKept s t) : HeldKept s (t.dueCheck k) := by
  unfold State.dueCheck
  repeat' split
  all_goals first | exact h.checkReel | exact h

theorem armNow (h : HeldKept s t) {x : SpliceKind} : HeldKept s (t.armNow k x) := by
  unfold State.armNow
  dsimp only
  split
  all_goals first | exact h.setSeq.checkReel | exact h

theorem lowReel (h : HeldKept s t) : HeldKept s (t.lowReel k) := by
  unfold State.lowReel
  dsimp only
  split
  all_goals first | exact h.armNow | exact h

theorem lowReelIfLow (h : HeldKept s t) : HeldKept s (t.lowReelIfLow k) := by
  unfold State.lowReelIfLow; split
  · exact h.lowReel
  · exact h

theorem settleIdle (h : HeldKept s t) : HeldKept s (t.settleIdle k) := h.setSeq.released.lowReelIfLow

/-- R115: the next state of a stand says nothing of its plans. -/
theorem nextState (h : HeldKept s t) : HeldKept s (t.nextState k) := by
  unfold State.nextState
  dsimp only
  split
  · exact h.settleIdle
  · split
    · exact h.setSeq.released.lowReel
    · exact h.setSeq.released.dueCheck

theorem moveEnd (h : HeldKept s t) {m : ChangeMark} {p : Coord} : HeldKept s (t.moveEnd m p) := by
  unfold State.moveEnd
  refine recheckAll ?_
  split
  · exact h
  · exact h.ofSeqs rfl

theorem cullGranted (h : HeldKept s t) {a b : Coord} : HeldKept s (t.cullGranted a b) := by
  rcases cullGranted_cases t a b with ⟨pr, m, o, prov, out, meets⟩ | ⟨same, -⟩
  · rw [cullGranted_of_culls prov out meets]; exact h.moveEnd
  · rw [same]; exact h

theorem placeGap (h : HeldKept s t) {a b : Coord} : HeldKept s (t.placeGap k a b) := by
  rw [placeGap_eq]
  repeat' split
  · exact h
  · exact h.bumpSerial.placeMark.cullGranted.raise
  · exact h.raise.raise

theorem jointGap (h : HeldKept s t) {j : Coord} {p : Plan} : HeldKept s (t.jointGap k j p) := by
  unfold State.jointGap
  dsimp only
  repeat' split
  all_goals first | exact h | exact h.placeGap

end HeldKept

end Sys2Proof.Machine
end

section
/-! PROOF. The joint pulse (O39), continued: what the grade check, the next state of the stand, the run-out and the hand-in of
a deferred plan touch behind the exchange of the roles (R112 to R115). -/

namespace Sys2Proof.Machine

open Sys2Proof

/-- R97: a RUNNING reel of length 0. -/
def Reel.dry : Reel → Bool
  | .running r _ _ => r.remaining == 0
  | _ => false

theorem Reel.dry_of_inRole {r : Reel} (out : r.inRole = false) : r.dry = false := by
  cases r <;> first | rfl | cases out

/-- What follows the exchange of the roles at stand k: beside SpliceFrame, marks come and the provisional one moves, no stand
changes its running joint, and of the reels the dry ones of the stand alone are touched. -/
structure JointFrame (k : Stand) (s t : State) : Prop where
  frame : SpliceFrame { s with marks := t.marks, reels := t.reels } t
  culls : ∀ x ∈ s.marks, x.asChange = none → x ∈ t.marks
  joints : ∀ j, (t.seq j).runningJoint = (s.seq j).runningJoint
  slots : ∀ q, (s.slot k q).reel.dry = false → t.slot k q = s.slot k q
  reels : (∀ q, (s.slot k q).reel.dry = false) → t.reels = s.reels

namespace JointFrame

variable {k : Stand} {s t u : State}

theorem refl (k : Stand) (s : State) : JointFrame k s s :=
  ⟨rfl, fun _ mem _ => mem, fun _ => rfl, fun _ _ => rfl, fun _ => rfl⟩

theorem trans (h : JointFrame k s t) (g : JointFrame k t u) : JointFrame k s u where
  frame := by
    have first := h.frame
    have second := g.frame
    unfold SpliceFrame at *
    rw [second, first]
  culls x mem cull := g.culls x (h.culls x mem cull) cull
  joints j := (g.joints j).trans (h.joints j)
  slots q wet := (g.slots q (by rw [h.slots q wet]; exact wet)).trans (h.slots q wet)
  reels wet := (g.reels fun q => by rw [h.slots q (wet q)]; exact wet q).trans (h.reels wet)

/-- A step within SpliceFrame that changes no running joint. -/
theorem step (h : JointFrame k s t) (frame : SpliceFrame t u)
    (joints : ∀ j, (u.seq j).runningJoint = (t.seq j).runningJoint) : JointFrame k s u :=
  h.trans {
    frame := by rw [frame.marks, frame.reels]; exact frame
    culls := fun x mem _ => by rwa [frame.marks]
    joints := joints
    slots := fun q _ => slot_of_reels frame.reels k q
    reels := fun _ => frame.reels }

theorem held (h : JointFrame k s t) (frame : SpliceFrame t u) (held : HeldKept t u) : JointFrame k s u :=
  h.step frame held.runningJoint

theorem setSeq (h : JointFrame k s t) {i : Stand} {q : Sequencer}
    (same : q.runningJoint = (t.seq i).runningJoint := by rfl) : JointFrame k s (t.setSeq i q) :=
  h.step (SpliceFrame.refl t).setSeq fun j => by
    by_cases e : j = i
    · subst e; rw [State.seq_setSeq_same, same]
    · rw [State.seq_setSeq_other _ _ e]

theorem setPlan (h : JointFrame k s t) {i : Stand} {p : Option Plan} : JointFrame k s (t.setPlan i p) := h.setSeq

theorem released (h : JointFrame k s t) {x : SeqState} : JointFrame k s (t.released x) :=
  h.held (SpliceFrame.refl t).released (HeldKept.refl t).released

theorem dueCheck (h : JointFrame k s t) {i : Stand} : JointFrame k s (t.dueCheck i) :=
  h.held (SpliceFrame.refl t).dueCheck (HeldKept.refl t).dueCheck

theorem settleIdle (h : JointFrame k s t) {i : Stand} : JointFrame k s (t.settleIdle i) :=
  h.held (SpliceFrame.refl t).settleIdle (HeldKept.refl t).settleIdle

theorem nextState (h : JointFrame k s t) {i : Stand} : JointFrame k s (t.nextState i) :=
  h.held (SpliceFrame.refl t).nextState (HeldKept.refl t).nextState

/-! ### Gaps and plans (R103, R104, R114) -/

theorem placeGap_culls {s : State} {k : Stand} {a b : Coord} {x : Mark} (mem : x ∈ s.marks) (cull : x.asChange = none) :
    x ∈ (s.placeGap k a b).marks := by
  rw [placeGap_eq]
  repeat' split
  · exact mem
  · obtain ⟨-, stays, -⟩ := cullGranted_marks (s := s.bumpSerial.placeMark (.gap (gapMark s k a b)))
      (gapMark s k a b).start b
    exact stays x (mem_placeMark.mpr (.inr mem)) cull
  · exact mem

theorem placeGap (h : JointFrame k s t) {i : Stand} {a b : Coord} : JointFrame k s (t.placeGap i a b) :=
  have gap := placeGap_arrivals t i a b
  h.trans {
    frame := by rw [gap.reels]; exact gap.frame
    culls := fun _ => placeGap_culls
    joints := (HeldKept.refl t).placeGap.runningJoint
    slots := fun q _ => slot_of_reels gap.reels k q
    reels := fun _ => gap.reels }

theorem jointGap (h : JointFrame k s t) {i : Stand} {j : Coord} {p : Plan} : JointFrame k s (t.jointGap i j p) := by
  unfold State.jointGap
  dsimp only
  repeat' split
  all_goals first | exact h | exact h.placeGap

theorem gradeCheck (h : JointFrame k s t) {i : Stand} {j : Coord} : JointFrame k s (t.gradeCheck i j) := by
  unfold State.gradeCheck
  repeat' split
  all_goals first | exact h | exact h.setPlan.jointGap

theorem abandonedGap (h : JointFrame k s t) {i : Stand} {old new : Plan} :
    JointFrame k s (t.abandonedGap i old new) := h.placeGap

theorem satisfiedGap (h : JointFrame k s t) {i : Stand} {p : Plan} : JointFrame k s (t.satisfiedGap i p) := by
  unfold State.satisfiedGap
  repeat' split
  all_goals first | exact h | exact h.placeGap

theorem clearSatisfied (h : JointFrame k s t) {i : Stand} {p : Plan} : JointFrame k s (t.clearSatisfied i p) := by
  unfold State.clearSatisfied
  dsimp only
  split
  · exact h.setPlan.satisfiedGap.settleIdle
  · exact h.setPlan.satisfiedGap

theorem armGrade (h : JointFrame k s t) {i : Stand} {p : Plan} : JointFrame k s (t.armGrade i p) :=
  h.setSeq.released.dueCheck

theorem takePlan (h : JointFrame k s t) {i : Stand} {p : Plan} : JointFrame k s (t.takePlan i p) := by
  unfold State.takePlan
  extract_lets gap taken
  have placed : JointFrame k s gap := by
    unfold gap
    split
    · exact h.abandonedGap
    · exact h
  have plan : JointFrame k s taken := placed.setPlan
  repeat' split
  all_goals first | exact plan | exact plan.clearSatisfied | exact plan.armGrade

theorem planArrives (h : JointFrame k s t) {i : Stand} {p : Plan} : JointFrame k s (t.planArrives i p) := by
  unfold State.planArrives
  dsimp only
  repeat' split
  · exact h.abandonedGap.setSeq
  · exact h.setSeq
  · exact h.takePlan

theorem handDeferred (h : JointFrame k s t) {i : Stand} : JointFrame k s (t.handDeferred i) := by
  unfold State.handDeferred
  split
  · exact h.setSeq.planArrives
  · exact h

/-! ### The run-out (R97) and the events together -/

theorem enterFault (h : JointFrame k s t) {i : Stand} : JointFrame k s (t.enterFault i) := h.setSeq.handDeferred.released

/-- R97: a run-out touches the slot that is dry. -/
theorem runOutIfEmpty (h : JointFrame k s t) : JointFrame k s (t.runOutIfEmpty k) := by
  unfold State.runOutIfEmpty
  split
  · exact h
  · next p _ =>
    split
    · next r _ _ run =>
      split
      · next empty =>
        have dry : (t.slot k p).reel.dry = true := by rw [run]; exact beq_iff_eq.mpr empty
        refine enterFault (h.trans (u := (t.setSlot k p ⟨.exhausted r, true⟩).raise .runOut (.stand k)) {
          frame := rfl
          culls := fun _ mem _ => mem
          joints := fun _ => rfl
          slots := fun q wet => ?_
          reels := fun wet => ?_ })
        · exact State.slot_setSlot_otherPos t k _ (by rintro rfl; rw [dry] at wet; cases wet)
        · rw [wet p] at dry; cases dry
      · exact h
    · exact h

theorem afterJoint (h : JointFrame k s t) {e : AfterJoint} : JointFrame k s (t.afterJoint k e) := by
  cases e
  · exact h.runOutIfEmpty
  · exact h.handDeferred

theorem afterAll (h : JointFrame k s t) (es : List AfterJoint) :
    JointFrame k s (takeEvents (State.afterJoint k) es t) :=
  h.trans (takeEvents_rel (refl k) (fun _ _ _ => trans)
    (fun s => (refl k s).step (SpliceFrame.refl s).drawn fun _ => rfl) (fun _ _ s => (refl k s).afterJoint) t)

end JointFrame

end Sys2Proof.Machine
end

section
/-! PROOF. The joint pulse (O39), continued: the joint mark, the stand that takes note of it, and the exchange of the roles
(R112, R113). -/

namespace Sys2Proof.Machine

open Sys2Proof

/-! ### The joint mark (R112) -/

/-- R112, R14: the crossings of a joint of stand k. -/
def jointCrossings : Stand → List CrossEntry
  | .l1 | .m1 => [⟨.glue .g1, .pending⟩, ⟨.glue .g3, .pending⟩]
  | .l2 | .m2 => [⟨.glue .g2, .pending⟩, ⟨.glue .g3, .pending⟩]
  | .l3 => []

/-- R112: the joint placed, where a slot is free. -/
def jointEntry (s : State) (k : Stand) (j : Coord) : JointMark :=
  ⟨s.serial, j, k, jointCullBefore s.config, jointCullAfter s.config, jointCrossings k⟩

/-- R112: the table with the joint in it, before its zone is handed to the span planner. -/
def jointPlaced (s : State) (k : Stand) (j : Coord) : State := s.bumpSerial.placeMark (.joint (jointEntry s k j))

section JointMark

variable {s : State} {k : Stand} {j : Coord}

theorem jointMark_room (room : s.marks.length < 48) : s.jointMark k j = (jointPlaced s k j).cullGranted
    (shiftBy j (-(jointCullBefore s.config : Int))) (plusMm j (jointCullAfter s.config)) := by
  have free : 0 < s.freeMarks := by rw [State.freeMarks, show Config.markSlots = 48 from rfl]; omega
  unfold State.jointMark
  exact (if_pos free).trans (by cases k <;> rfl)

theorem jointMark_full (full : 48 ≤ s.marks.length) : s.jointMark k j = s.raise .markOverflow (.stand k) := by
  have none : ¬ 0 < s.freeMarks := by rw [State.freeMarks, show Config.markSlots = 48 from rfl]; omega
  unfold State.jointMark
  exact if_neg none

/-- R112, R72: the joint is in the table, and the span planner has counted its zone. -/
theorem jointMark_mem (room : s.marks.length < 48) : Mark.joint (jointEntry s k j) ∈ (s.jointMark k j).marks := by
  rw [jointMark_room room]
  obtain ⟨-, stays, -⟩ := cullGranted_marks (s := jointPlaced s k j) (shiftBy j (-(jointCullBefore s.config : Int)))
    (plusMm j (jointCullAfter s.config))
  exact stays _ (mem_placeMark.mpr (.inl rfl)) rfl

theorem jointMark_counted (room : s.marks.length < 48) : CullCounted s (s.jointMark k j)
    (shiftBy j (-(jointCullBefore s.config : Int))) (plusMm j (jointCullAfter s.config)) := by
  rw [jointMark_room room]
  exact cullCounted_placeMark (s := s.bumpSerial) rfl _ _

variable (s k j)

/-- R112, R108: beside the marks, a joint mark does what the checks of waiting stands do. -/
theorem jointMark_waiters : WaitersOnly { s with marks := (s.jointMark k j).marks } (s.jointMark k j) := by
  rcases lt_or_ge s.marks.length 48 with room | full
  · rw [jointMark_room room]
    have waiters := cullGranted_waiters (jointPlaced s k j) (shiftBy j (-(jointCullBefore s.config : Int)))
      (plusMm j (jointCullAfter s.config))
    exact ⟨waiters.frame.trans rfl, waiters.queues, waiters.seqs, (Nat.le_succ _).trans waiters.serial⟩
  · rw [jointMark_full full]
    exact ⟨rfl, fun _ _ => rfl, fun _ _ => rfl, le_rfl⟩

theorem jointMark_held : HeldKept s (s.jointMark k j) := by
  rcases lt_or_ge s.marks.length 48 with room | full
  · rw [jointMark_room room]
    exact (HeldKept.refl s).bumpSerial.placeMark.cullGranted
  · rw [jointMark_full full]
    exact (HeldKept.refl s).raise

theorem jointMark_gaps (x : GapMark) : Mark.gap x ∈ (s.jointMark k j).marks ↔ Mark.gap x ∈ s.marks := by
  rcases lt_or_ge s.marks.length 48 with room | full
  · rw [jointMark_room room, cullGranted_gaps, jointPlaced, mem_placeMark]
    exact or_iff_right nofun
  · rw [jointMark_full full]; rfl

theorem jointMark_length : (s.jointMark k j).marks.length ≤ s.marks.length + 1 := by
  rcases lt_or_ge s.marks.length 48 with room | full
  · rw [jointMark_room room]
    obtain ⟨length, -, -⟩ := cullGranted_marks (s := jointPlaced s k j) (shiftBy j (-(jointCullBefore s.config : Int)))
      (plusMm j (jointCullAfter s.config))
    rw [length, jointPlaced, State.placeMark_marks, insertMark_length]
    rfl
  · rw [jointMark_full full]; exact Nat.le_succ _

end JointMark

theorem Moved.length {m m' : ChangeMark} (h : Moved m m') : m'.length = m.length := by
  rcases h with rfl | h
  · rfl
  · rw [h]

/-- R72: a granted cull leaves a mark that is not in the table out of it. -/
theorem cullGranted_findChange_none {s : State} (a b : Coord) {u : Nat} (none : s.findChange u = none) :
    (s.cullGranted a b).findChange u = Option.none := by
  rcases cullGranted_cases s a b with ⟨pr, m, o, prov, out, meets⟩ | ⟨same, -⟩
  · rw [cullGranted_of_culls prov out meets, moveEnd_findChange, none]
    rintro rfl
    rw [provisional_findChange prov] at none; cases none
  · rw [same, none]

/-- R72: a granted cull leaves a mark of the table in it, with its end moved at most. -/
theorem cullGranted_findChange_some {s : State} (a b : Coord) {m : ChangeMark} (alone : Alone s m) :
    ∃ m', (s.cullGranted a b).findChange m.uid = some m' ∧ Moved m m' := by
  by_cases own : ∃ pr, s.planner = some pr ∧ pr.mark = m.uid
  · obtain ⟨pr, planner, uid⟩ := own
    obtain ⟨m', alone', moved, -⟩ := cullGranted_alone a b planner uid alone
    exact ⟨m', moved.uid ▸ alone'.findChange, moved⟩
  · refine ⟨m, ?_, .refl m⟩
    rw [cullGranted_findChange a b fun pr planner uid => own ⟨pr, planner, uid.symm⟩, alone.findChange]

theorem jointMark_findChange_none {s : State} (k : Stand) (j : Coord) {u : Nat} (none : s.findChange u = none) :
    (s.jointMark k j).findChange u = Option.none := by
  rcases lt_or_ge s.marks.length 48 with room | full
  · rw [jointMark_room room]
    refine cullGranted_findChange_none _ _ ?_
    rw [jointPlaced, placeMark_findChange rfl]; exact none
  · rw [jointMark_full full]; exact none

theorem jointMark_findChange_some {s : State} (keyed : s.MarksKeyed) (k : Stand) (j : Coord) {u : Nat} {m : ChangeMark}
    (found : s.findChange u = some m) : ∃ m', (s.jointMark k j).findChange u = some m' ∧ Moved m m' := by
  obtain ⟨mem, rfl⟩ := findChange_mem found
  rcases lt_or_ge s.marks.length 48 with room | full
  · rw [jointMark_room room]
    exact cullGranted_findChange_some _ _ ((keyed.alone mem).placeMark (s := s.bumpSerial) rfl)
  · rw [jointMark_full full]; exact ⟨m, found, .refl m⟩

/-! ### The stand takes note of its joint (R112, R181) -/

/-- R112: the coordinate of a joint made now at stand k. -/
def jointAt (s : State) (k : Stand) : Coord := plusMm s.odometer (pathOf s.config k)

/-- R112: the joint mark is placed, the running joint is noted, and a stand that spliced has its timer stopped and its
SPLICE_GO withdrawn. -/
def jointNoted (s : State) (k : Stand) : State :=
  let placed := s.jointMark k (jointAt s k)
  let noted := placed.setSeq k { placed.seq k with
    runningJoint := some ⟨jointAt s k, (s.seq k).state == .splicing⟩ }
  if (s.seq k).state = .splicing then (noted.setSeq k { noted.seq k with timer := none }).withdrawGo k else noted

section Noted

variable (s : State) (k : Stand)

theorem jointNoted_marks : (jointNoted s k).marks = (s.jointMark k (jointAt s k)).marks := by
  unfold jointNoted
  dsimp only
  split <;> rfl

theorem jointNoted_frame : SpliceFrame { s with marks := (jointNoted s k).marks } (jointNoted s k) := by
  have placed := (jointMark_waiters s k (jointAt s k)).frame
  rw [jointNoted_marks]
  unfold jointNoted
  dsimp only
  split
  · exact placed.setSeq.setSeq.trans rfl
  · exact placed.setSeq

theorem jointNoted_serial : s.serial ≤ (jointNoted s k).serial := by
  have placed := (jointMark_waiters s k (jointAt s k)).serial
  unfold jointNoted
  dsimp only
  split <;> exact placed

/-- R112: the running joint of the stand; its plans stay. -/
theorem jointNoted_held : ((jointNoted s k).seq k).held
    = ((s.seq k).plan, (s.seq k).deferred, some ⟨jointAt s k, (s.seq k).state == .splicing⟩) := by
  have held := jointMark_held s k (jointAt s k)
  have plan := held.plan k
  have deferred := held.deferred k
  rw [← plan, ← deferred]
  unfold jointNoted
  dsimp only
  split
  · rw [State.withdrawGo, show ∀ u : State, ∀ c q, (u.setQueue c q).seq k = u.seq k from fun _ _ _ => rfl,
      State.seq_setSeq_same, State.seq_setSeq_same]
    rfl
  · rw [State.seq_setSeq_same]; rfl

variable {s k}

theorem jointNoted_state (still : (s.seq k).state.waitsForReel = false) :
    ((jointNoted s k).seq k).state = (s.seq k).state := by
  have placed : (s.jointMark k (jointAt s k)).seq k = s.seq k := (jointMark_waiters s k (jointAt s k)).seqs k still
  unfold jointNoted
  dsimp only
  split
  · rw [State.withdrawGo, show ∀ u : State, ∀ c q, (u.setQueue c q).seq k = u.seq k from fun _ _ _ => rfl,
      State.seq_setSeq_same, State.seq_setSeq_same, placed]
  · rw [State.seq_setSeq_same, placed]

/-- R181: no SPLICE_GO of a stand that spliced is left in the queue. -/
theorem jointNoted_noGo (splicing : (s.seq k).state = .splicing) (q : Pos) (tag : Nat) :
    Command.spliceGo k q tag ∉ (jointNoted s k).link.splice := by
  unfold jointNoted
  dsimp only
  rw [if_pos splicing]
  intro mem
  have kept := (List.mem_filter.mp mem).2
  simp only [bne_self_eq_false, Bool.false_eq_true] at kept

end Noted

/-! ### The exchange of the roles (R113) -/

theorem runningPos_inRole {s : State} {k : Stand} {p : Pos} (run : s.runningPos k = some p) :
    (s.slot k p).reel.inRole = true := by
  unfold State.runningPos at run
  repeat' split at run
  · next a => cases run; exact a
  · next b => cases run; exact b
  · cases run

theorem Pos.other_ne (p : Pos) : p.other ≠ p := by cases p <;> decide

/-- R83: the running role is at the one slot that is in it. -/
theorem runningPos_of_inRole {s : State} {k : Stand} {p : Pos} (role : (s.slot k p).reel.inRole = true)
    (other : (s.slot k p.other).reel.inRole = false) : s.runningPos k = some p := by
  cases p
  · simp only [State.runningPos, role, if_true]
  · simp only [State.runningPos, show (s.slot k .a).reel.inRole = false from other, role, if_true, Bool.false_eq_true,
      if_false]

theorem runningPos_of_slots {s t : State} {k : Stand} (same : ∀ p, t.slot k p = s.slot k p) :
    t.runningPos k = s.runningPos k := by
  simp only [State.runningPos, same]

theorem roleSwap_frame (s : State) (k : Stand) : s.roleSwap k = { s with reels := (s.roleSwap k).reels } := by
  unfold State.roleSwap
  repeat' split
  all_goals rfl

/-- R91, R113: a reel in the running role is spent when it leaves the role. -/
theorem spentAs_of_inRole {r : Reel} (role : r.inRole = true) : ∃ sp, r.spentAs = some sp := by
  cases r <;> first | exact ⟨_, rfl⟩ | cases role

section Swapped

variable {s : State} {k : Stand} {p : Pos}

theorem splicedIn_slot (s : State) (k : Stand) (p : Pos) :
    (s.splicedIn k p).slot k p = { s.slot k p with reel := (s.slot k p).reel.spliced } :=
  State.slot_setSlot_same s k p _

theorem splicedIn_slot_other (s : State) (k : Stand) {p q : Pos} (other : q ≠ p) :
    (s.splicedIn k p).slot k q = s.slot k q := State.slot_setSlot_otherPos s k _ other

/-- R113: the running slot is emptied. -/
theorem roleSwap_spent (run : s.runningPos k = some p) :
    (s.roleSwap k).slot k p = ⟨.empty (s.slot k p).reel.spentAs, true⟩ := by
  simp only [State.roleSwap, run]
  rw [splicedIn_slot_other _ _ (Pos.other_ne p).symm, State.slot_setSlot_same]

/-- R113: the other slot enters the running role. -/
theorem roleSwap_entered (run : s.runningPos k = some p) : (s.roleSwap k).slot k p.other
    = { s.slot k p.other with reel := (s.slot k p.other).reel.spliced } := by
  simp only [State.roleSwap, run]
  rw [splicedIn_slot, State.slot_setSlot_otherPos _ _ _ (Pos.other_ne p)]

/-- R113: without a running role, the one slot that holds a reported reel enters it. -/
theorem roleSwap_reported (none : s.runningPos k = none) (reported : (s.slot k p).reel.reported = true)
    (other : (s.slot k p.other).reel.reported = false) : s.roleSwap k = s.splicedIn k p := by
  cases p
  · simp only [State.roleSwap, none, reported, show (s.slot k .b).reel.reported = false from other]
  · simp only [State.roleSwap, none, reported, show (s.slot k .a).reel.reported = false from other]

theorem roleSwap_stays (none : s.runningPos k = none)
    (same : (s.slot k .a).reel.reported = (s.slot k .b).reel.reported) : s.roleSwap k = s := by
  simp only [State.roleSwap, none, same]
  cases (s.slot k .b).reel.reported <;> rfl

/-- R113: behind an exchange for a VERIFIED reel, that reel runs. -/
theorem roleSwap_running {r : Paper} (run : s.runningPos k = some p) (ready : (s.slot k p.other).reel = .verified r) :
    (s.roleSwap k).runningPos k = some p.other ∧ ((s.roleSwap k).slot k p.other).reel = .running r false 0 := by
  have entered : ((s.roleSwap k).slot k p.other).reel = .running r false 0 := by
    rw [roleSwap_entered run]; exact congrArg Reel.spliced ready
  have back : p.other.other = p := by cases p <;> rfl
  exact ⟨runningPos_of_inRole (by rw [entered]; rfl) (by rw [back, roleSwap_spent run]; rfl), entered⟩

end Swapped

end Sys2Proof.Machine
end

section
/-! PROOF. The joint pulse (O39), continued: its parts in their order, and what the pulse leaves behind (R112, R113, R115). -/

namespace Sys2Proof.Machine

open Sys2Proof

/-! ### A stand in FAULT (R103, R112) -/

theorem satisfiedGap_seq {s : State} {k j : Stand} {p : Plan} (still : (s.seq j).state.waitsForReel = false) :
    (s.satisfiedGap k p).seq j = s.seq j := by
  unfold State.satisfiedGap
  repeat' split
  all_goals first | rfl | exact placeGap_seq still

theorem clearSatisfied_fault {s : State} {k : Stand} {p : Plan} (fault : (s.seq k).state = .fault) :
    ((s.clearSatisfied k p).seq k).state = .fault := by
  have plan : ((s.setPlan k none).seq k).state = .fault := by rw [setPlan_seq]; exact fault
  have gap : ((s.setPlan k none).satisfiedGap k p).seq k = (s.setPlan k none).seq k :=
    satisfiedGap_seq (by rw [plan]; rfl)
  have free : (((s.setPlan k none).satisfiedGap k p).seq k).holdsGrade = false := by
    simp only [gap, Sequencer.holdsGrade, plan]
  simp only [State.clearSatisfied, free, Bool.false_eq_true, if_false]
  rw [gap, plan]

/-- R103: a plan that arrives at a stand in FAULT leaves it there. -/
theorem planArrives_fault {s : State} {k : Stand} {p : Plan} (fault : (s.seq k).state = .fault) :
    ((s.planArrives k p).seq k).state = .fault := by
  have still : (s.seq k).state.waitsForReel = false := by rw [fault]; rfl
  by_cases met : s.runningCode k = some p.code
  · have gap := planGap_seq (k := k) p still
    have code : ((planGap s k p).setPlan k (some p)).planSatisfied k p = true := by
      have same : ((planGap s k p).setPlan k (some p)).runningCode k = s.runningCode k :=
        runningCode_of_reels (planGap_arrivals s k p).reels k
      rw [State.planSatisfied, same, met, beq_self_eq_true]
    have cleared : s.planArrives k p = ((planGap s k p).setPlan k (some p)).clearSatisfied k p := by
      have held : heldPlan s k = (s.seq k).plan := if_neg (by rw [fault]; nofun)
      simp only [State.planArrives, fault, State.takePlan]
      rw [← held]
      exact if_pos code
    rw [cleared]
    exact clearSatisfied_fault (by rw [setPlan_seq, gap]; exact fault)
  · have gap := planGap_seq (k := k) p still
    rw [planArrives_pending (by rw [fault]; nofun) met, takePending_goesOn (.inl (by rw [gap]; exact fault)), gap]
    exact fault

theorem handDeferred_fault {s : State} {k : Stand} (fault : (s.seq k).state = .fault) :
    ((s.handDeferred k).seq k).state = .fault := by
  unfold State.handDeferred
  split
  · exact planArrives_fault (by rw [State.seq_setSeq_same]; exact fault)
  · exact fault

/-- R97, R112: what follows a joint leaves a stand in FAULT there. -/
theorem afterJoint_fault {s : State} {k : Stand} (e : AfterJoint) (fault : (s.seq k).state = .fault) :
    ((s.afterJoint k e).seq k).state = .fault := by
  cases e with
  | deferred => exact handDeferred_fault fault
  | runOut =>
    show ((s.runOutIfEmpty k).seq k).state = .fault
    unfold State.runOutIfEmpty
    repeat' split
    · exact fault
    · rw [State.enterFault, released_seq]
      exact handDeferred_fault (by rw [State.seq_setSeq_same])
    · exact fault
    · exact fault

theorem afterJoints_fault {s : State} {k : Stand} (es : List AfterJoint) (fault : (s.seq k).state = .fault) :
    ((takeEvents (State.afterJoint k) es s).seq k).state = .fault :=
  takeEvents_rel (R := fun s t => (s.seq k).state = .fault → (t.seq k).state = .fault) (fun _ h => h)
    (fun _ _ _ h g f => g (h f)) (fun _ h => h) (fun e _ _ => afterJoint_fault e) s fault

/-! ### The parts of a joint pulse -/

section Pulse

variable (s : State) (k : Stand)

/-- R113: the state behind the exchange of the roles. -/
def jointSwapped : State := (jointNoted s k).roleSwap k

/-- R114: the state behind the grade check. -/
def jointChecked : State := (jointSwapped s k).gradeCheck k (jointAt s k)

/-- R115: the state in which the stand has its next state. -/
def jointSettled : State := if (s.seq k).state = .fault then jointChecked s k else (jointChecked s k).nextState k

/-- R97, R112: what follows the next state u of stand k. -/
def jointEvents (u : State) : List AfterJoint :=
  (if u.runOutDue k then [.runOut] else []) ++ (if (u.seq k).deferred.isSome then [.deferred] else [])

theorem jointPulse_eq : s.jointPulse k
    = takeEvents (State.afterJoint k) (jointEvents k (jointSettled s k)) (jointSettled s k) := rfl

theorem jointSettled_after : JointFrame k (jointChecked s k) (jointSettled s k) := by
  unfold jointSettled
  split
  · exact .refl k _
  · exact (JointFrame.refl k _).nextState

theorem jointSettled_held : HeldKept (jointChecked s k) (jointSettled s k) := by
  unfold jointSettled
  split
  · exact .refl _
  · exact (HeldKept.refl _).nextState

theorem jointSettled_marks : (jointSettled s k).marks = (jointChecked s k).marks := by
  unfold jointSettled
  split
  · rfl
  · exact ((SpliceFrame.refl _).nextState).marks

theorem jointSettled_status (i : Nat) (on : (jointChecked s k).errors.status.getLsbD i = true) :
    (jointSettled s k).errors.status.getLsbD i = true := by
  unfold jointSettled
  split
  · exact on
  · exact (Evolves.refl _).nextState.status i on

/-- R113 to R115: what the pulse does behind the exchange of the roles. -/
theorem jointPulse_after : JointFrame k (jointSwapped s k) (s.jointPulse k) := by
  rw [jointPulse_eq]
  exact (((JointFrame.refl k _).gradeCheck).trans (jointSettled_after s k)).afterAll _

theorem jointSwapped_seq (j : Stand) : (jointSwapped s k).seq j = (jointNoted s k).seq j := by
  rw [jointSwapped, roleSwap_frame]; rfl

theorem jointSwapped_marks : (jointSwapped s k).marks = (s.jointMark k (jointAt s k)).marks := by
  rw [← jointNoted_marks, jointSwapped, roleSwap_frame]

theorem jointSwapped_frame : SpliceFrame { s with marks := (jointSwapped s k).marks, reels := (jointSwapped s k).reels }
    (jointSwapped s k) := by
  have noted := jointNoted_frame s k
  have swap := roleSwap_frame (jointNoted s k) k
  rw [← jointSwapped] at swap
  unfold SpliceFrame at *
  rw [swap, noted]

/-- R112 to R115: beside the marks and the reels, a joint pulse touches what the splice controller touches. -/
theorem jointPulse_frame : SpliceFrame { s with marks := (s.jointPulse k).marks, reels := (s.jointPulse k).reels }
    (s.jointPulse k) := by
  have swapped := jointSwapped_frame s k
  have after := (jointPulse_after s k).frame
  unfold SpliceFrame at *
  rw [after, swapped]

theorem jointSwapped_held : ((jointSwapped s k).seq k).held
    = ((s.seq k).plan, (s.seq k).deferred, some ⟨jointAt s k, (s.seq k).state == .splicing⟩) := by
  rw [jointSwapped_seq]; exact jointNoted_held s k

/-- R112: the running joint is the joint just made. -/
theorem jointPulse_runningJoint : ((s.jointPulse k).seq k).runningJoint
    = some ⟨jointAt s k, (s.seq k).state == .splicing⟩ :=
  ((jointPulse_after s k).joints k).trans (congrArg (·.2.2) (jointSwapped_held s k))

variable {s k}

/-- R112: the joint mark outlives the pulse. -/
theorem jointPulse_joint (room : s.marks.length < 48) :
    Mark.joint (jointEntry s k (jointAt s k)) ∈ (s.jointPulse k).marks :=
  (jointPulse_after s k).culls _ (by rw [jointSwapped_marks]; exact jointMark_mem room) rfl

/-- R112: a joint mark refused for want of a slot. -/
theorem jointPulse_overflow (full : 48 ≤ s.marks.length) :
    ErrorKind.markOverflow.isIn (s.jointPulse k).errors.status = true := by
  have noted : ErrorKind.markOverflow.isIn (jointNoted s k).errors.status = true := by
    unfold jointNoted
    simp only [jointMark_full full]
    split <;> exact raise_isIn s .markOverflow (.stand k)
  have settled : Evolves (jointNoted s k) (jointSettled s k) := by
    unfold jointSettled
    split
    · exact (Evolves.refl _).roleSwap.gradeCheck
    · exact (Evolves.refl _).roleSwap.gradeCheck.nextState
  rw [jointPulse_eq]
  exact (settled.takeEvents fun _ u => (Evolves.refl u).afterJoint).status _ noted

/-! ### The slots of the stand (R113) -/

variable {p : Pos}

theorem jointNoted_slot (q : Pos) : (jointNoted s k).slot k q = s.slot k q :=
  slot_of_reels (jointNoted_frame s k).reels k q

theorem jointNoted_runningPos : (jointNoted s k).runningPos k = s.runningPos k := runningPos_of_slots jointNoted_slot

theorem jointSwapped_spent (run : s.runningPos k = some p) :
    (jointSwapped s k).slot k p = ⟨.empty (s.slot k p).reel.spentAs, true⟩ := by
  rw [← jointNoted_slot (s := s)]
  exact roleSwap_spent (jointNoted_runningPos.trans run)

theorem jointSwapped_entered (run : s.runningPos k = some p) : (jointSwapped s k).slot k p.other
    = { s.slot k p.other with reel := (s.slot k p.other).reel.spliced } := by
  rw [← jointNoted_slot (s := s)]
  exact roleSwap_entered (jointNoted_runningPos.trans run)

/-- R113: the running slot is left empty with its spent reel and attention. -/
theorem jointPulse_spent (run : s.runningPos k = some p) :
    (s.jointPulse k).slot k p = ⟨.empty (s.slot k p).reel.spentAs, true⟩ := by
  have spent := jointSwapped_spent run
  rw [(jointPulse_after s k).slots p (by rw [spent]; rfl), spent]

/-- R113: the slot that has entered the role, where its reel does not run out at once. -/
theorem jointPulse_entered (run : s.runningPos k = some p) {x : Reel} (enters : (s.slot k p.other).reel.spliced = x)
    (wet : x.dry = false) : (s.jointPulse k).slot k p.other = { s.slot k p.other with reel := x } := by
  have entered := jointSwapped_entered run
  rw [enters] at entered
  rw [(jointPulse_after s k).slots p.other (by rw [entered]; exact wet), entered]

theorem jointSwapped_reported (none : s.runningPos k = none) (reported : (s.slot k p).reel.reported = true)
    (other : (s.slot k p.other).reel.reported = false) : jointSwapped s k = (jointNoted s k).splicedIn k p := by
  rw [← jointNoted_slot (s := s)] at reported other
  exact roleSwap_reported (jointNoted_runningPos.trans none) reported other

/-- R113: at a stand without a running role the reported reel enters it. -/
theorem jointPulse_reported (none : s.runningPos k = none) (reported : (s.slot k p).reel.reported = true)
    (other : (s.slot k p.other).reel.reported = false) {x : Reel} (enters : (s.slot k p).reel.spliced = x)
    (wet : x.dry = false) : (s.jointPulse k).slot k p = { s.slot k p with reel := x } := by
  have entered : (jointSwapped s k).slot k p = { s.slot k p with reel := x } := by
    rw [jointSwapped_reported none reported other, splicedIn_slot, jointNoted_slot, enters]
  rw [(jointPulse_after s k).slots p (by rw [entered]; exact wet), entered]

theorem jointPulse_unreported (none : s.runningPos k = none) (reported : (s.slot k p).reel.reported = true)
    (other : (s.slot k p.other).reel.reported = false) :
    (s.jointPulse k).slot k p.other = s.slot k p.other := by
  have stays : (jointSwapped s k).slot k p.other = s.slot k p.other := by
    rw [jointSwapped_reported none reported other, splicedIn_slot_other _ _ (Pos.other_ne p), jointNoted_slot]
  have out := State.Coherent.runningPos_none none p.other
  rw [(jointPulse_after s k).slots p.other (by rw [stays]; exact Reel.dry_of_inRole out), stays]

/-- R113: where no slot is reported alone, none enters the role. -/
theorem jointPulse_noRole (none : s.runningPos k = none)
    (same : (s.slot k .a).reel.reported = (s.slot k .b).reel.reported) : (s.jointPulse k).reels = s.reels := by
  have stays : jointSwapped s k = jointNoted s k :=
    roleSwap_stays (jointNoted_runningPos.trans none) (by rw [jointNoted_slot, jointNoted_slot]; exact same)
  have after := jointPulse_after s k
  rw [stays] at after
  have out (q : Pos) := State.Coherent.runningPos_none none q
  rw [after.reels fun q => by rw [jointNoted_slot]; exact Reel.dry_of_inRole (out q), (jointNoted_frame s k).reels]

end Pulse

end Sys2Proof.Machine
end

section
/-! PROOF. The joint pulse (O39), concluded: the zone handed to the span planner, the next state of a stand without a plan, and
the plan that the new running reel meets (R72, R114, R115). -/

namespace Sys2Proof.Machine

open Sys2Proof

/-! ### Without a deferred plan -/

theorem handDeferred_none {s : State} {k : Stand} (none : (s.seq k).deferred = none) : s.handDeferred k = s := by
  rw [State.handDeferred, none]

/-- R97: a run-out at a stand without a deferred plan places no mark. -/
theorem runOutIfEmpty_marks {s : State} {k : Stand} (none : (s.seq k).deferred = none) :
    (s.runOutIfEmpty k).marks = s.marks := by
  unfold State.runOutIfEmpty
  repeat' split
  · rfl
  · next p _ _ r _ _ _ _ =>
    rw [State.enterFault, handDeferred_none (by rw [State.seq_setSeq_same]; exact none), ((SpliceFrame.refl _).released).marks]
    rfl
  · rfl
  · rfl

theorem gradeCheck_deferred (s : State) (k : Stand) (j : Coord) :
    ((s.gradeCheck k j).seq k).deferred = (s.seq k).deferred := by
  unfold State.gradeCheck
  split
  · rfl
  · split
    · rw [((HeldKept.refl _).jointGap).deferred, setPlan_seq]
    · rfl

section Quiet

variable {s : State} {k : Stand} (none : (s.seq k).deferred = none)
include none

theorem jointSettled_deferred : ((jointSettled s k).seq k).deferred = Option.none := by
  rw [(jointSettled_held s k).deferred, jointChecked, gradeCheck_deferred]
  exact (congrArg (·.2.1) (jointSwapped_held s k)).trans none

theorem jointEvents_quiet : jointEvents k (jointSettled s k)
    = if (jointSettled s k).runOutDue k then [.runOut] else [] := by
  rw [jointEvents, jointSettled_deferred none]
  exact List.append_nil _

theorem jointPulse_marks : (s.jointPulse k).marks = (jointSettled s k).marks := by
  rw [jointPulse_eq, jointEvents_quiet none]
  split
  · exact runOutIfEmpty_marks (jointSettled_deferred none)
  · rfl

/-- R97, R112: with no deferred plan and paper on the reel, the next state of the stand ends the pulse. -/
theorem jointPulse_settled (paper : (jointSettled s k).runOutDue k = false) : s.jointPulse k = jointSettled s k := by
  rw [jointPulse_eq, jointEvents_quiet none, paper]
  rfl

end Quiet

/-! ### The zone of the joint (R72) -/

theorem cullCounted_of_marks {s t u : State} {a b : Coord} (h : CullCounted s t a b) (marks : u.marks = t.marks)
    (planner : u.planner = t.planner) : CullCounted s u a b := by
  simpa only [CullCounted, EndsSpan, State.cullZones, marks, planner] using h

/-- R114: a stand without a plan has no grade to check. -/
theorem jointChecked_noPlan {s : State} {k : Stand} (none : (s.seq k).plan = none) :
    jointChecked s k = jointSwapped s k := by
  have plan : ((jointSwapped s k).seq k).plan = Option.none := (congrArg Prod.fst (jointSwapped_held s k)).trans none
  rw [jointChecked, State.gradeCheck, plan]

/-- R72: where no plan can ask for a gap, the zone of the joint is what the span planner counts. -/
theorem jointPulse_counted {s : State} {k : Stand} (room : s.marks.length < 48) (plan : (s.seq k).plan = none)
    (deferred : (s.seq k).deferred = none) : CullCounted s (s.jointPulse k)
      (shiftBy (jointAt s k) (-(jointCullBefore s.config : Int))) (plusMm (jointAt s k) (jointCullAfter s.config)) := by
  have planner : (s.jointMark k (jointAt s k)).planner = s.planner := (jointMark_waiters s k _).frame.planner
  refine cullCounted_of_marks (jointMark_counted room) ?_ ((jointPulse_frame s k).planner.trans planner.symm)
  rw [jointPulse_marks deferred, jointSettled_marks, jointChecked_noPlan plan, jointSwapped_marks]

/-! ### A VERIFIED reel that has come to run -/

section Ready

variable {s : State} {k : Stand} {p : Pos} {r : Paper} (run : s.runningPos k = some p)
  (ready : (s.slot k p.other).reel = .verified r)
include run ready

theorem jointSwapped_running : (jointSwapped s k).runningPos k = some p.other
    ∧ ((jointSwapped s k).slot k p.other).reel = .running r false 0 :=
  roleSwap_running (jointNoted_runningPos.trans run) (by rw [jointNoted_slot]; exact ready)

theorem jointSwapped_wet (paper : 0 < r.remaining) (q : Pos) : ((jointSwapped s k).slot k q).reel.dry = false := by
  obtain ⟨-, reel⟩ := jointSwapped_running run ready
  by_cases there : q = p
  · rw [there, jointSwapped_spent run]; rfl
  · obtain rfl : q = p.other := by cases q <;> cases p <;> first | rfl | exact absurd rfl there
    rw [reel]; exact beq_eq_false_iff_ne.mpr paper.ne'

/-- R97: the reel with paper left does not run out at the joint. -/
theorem jointSettled_paper (paper : 0 < r.remaining) : (jointSettled s k).runOutDue k = false := by
  have after := ((JointFrame.refl k (jointSwapped s k)).gradeCheck).trans (jointSettled_after s k)
  have reels := after.reels (jointSwapped_wet run ready paper)
  obtain ⟨pos, reel⟩ := jointSwapped_running run ready
  refine runOutDue_eq_false fun q x st n there running => ?_
  rw [runningPos_of_slots (slot_of_reels reels k), pos] at there
  cases there
  rw [slot_of_reels reels, reel] at running
  cases running
  exact paper

/-- R114: the code of the new running web. -/
theorem jointSwapped_code : (jointSwapped s k).runningCode k = some r.ann.code := by
  obtain ⟨pos, reel⟩ := jointSwapped_running run ready
  simp only [State.runningCode, pos, reel]

/-! ### The next state without a plan (R115) -/

/-- R96: a reel above its reserve that has come to run is not low, whatever the splice controller does. -/
theorem jointSwapped_high {u : State} (frame : SpliceFrame (jointSwapped s k) u)
    (high : reserveOf s.config k < r.remaining) : u.low k = false := by
  obtain ⟨pos, reel⟩ := jointSwapped_running run ready
  refine low_eq_false fun q x st n there running => ?_
  rw [runningPos_of_slots (slot_of_reels frame.reels k), pos] at there
  cases there
  rw [slot_of_reels frame.reels, reel] at running
  cases running
  rw [frame.config, (jointSwapped_frame s k).config]
  exact high

/-- R115: a splice completed without a plan for a reel above its reserve leaves the stand IDLE. -/
theorem jointSettled_idle (splicing : (s.seq k).state = .splicing) (plan : (s.seq k).plan = none)
    (high : reserveOf s.config k < r.remaining) : ∃ q : Sequencer, q.state = .idle ∧ q.timer = none ∧ q.splice = none
      ∧ jointSettled s k = ((jointSwapped s k).setSeq k q).capRelease := by
  have state : ((jointSwapped s k).seq k).state = .splicing := by
    rw [jointSwapped_seq, jointNoted_state (by rw [splicing]; rfl), splicing]
  have noPlan : ((jointSwapped s k).seq k).plan = none := (congrArg Prod.fst (jointSwapped_held s k)).trans plan
  have next : (jointSwapped s k).nextState k = (jointSwapped s k).settleIdle k := by simp only [State.nextState, noPlan]
  refine ⟨{ (jointSwapped s k).seq k with state := .idle, splice := none, required := none, timer := none, goTag := none },
    rfl, rfl, rfl, ?_⟩
  rw [jointSettled, if_neg (by rw [splicing]; nofun), jointChecked_noPlan plan, next, State.settleIdle, state]
  exact if_neg (by
    rw [jointSwapped_high run ready ((SpliceFrame.refl _).setSeq.released) high]; exact Bool.false_ne_true)

end Ready

/-- R110: the release of the cap queues no SPLICE_GO. -/
theorem capRelease_noGo {s : State} {k : Stand} {q : Pos} {tag : Nat} (off : Command.spliceGo k q tag ∉ s.link.splice) :
    Command.spliceGo k q tag ∉ s.capRelease.link.splice := by
  unfold State.capRelease
  split
  · show _ ∉ (State.enqueue { s with capFlag := false } (.speedCap none)).link.queue (Command.speedCap none).linkClass
    rw [enqueue_queue]
    show _ ∉ if (s.link.splice.any _) = true then _ else if s.link.splice.length < 8 then s.link.splice ++ _ else s.link.splice
    split
    · intro mem
      obtain ⟨d, there, is⟩ := List.mem_map.mp mem
      split at is
      · cases is
      · exact off (is ▸ there)
    · split
      · simpa only [List.mem_append, List.mem_singleton, reduceCtorEq, or_false] using off
      · exact off
  · exact off

theorem jointPulse_idle {s : State} {k : Stand} {p : Pos} {r : Paper} (run : s.runningPos k = some p)
    (ready : (s.slot k p.other).reel = .verified r) (splicing : (s.seq k).state = .splicing)
    (plan : (s.seq k).plan = none) (deferred : (s.seq k).deferred = none) (high : reserveOf s.config k < r.remaining) :
    ((s.jointPulse k).seq k).state = .idle ∧ ((s.jointPulse k).seq k).timer = none
      ∧ ((s.jointPulse k).seq k).splice = none ∧ ∀ q tag, Command.spliceGo k q tag ∉ (s.jointPulse k).link.splice := by
  have paper := jointSettled_paper run ready (by omega)
  obtain ⟨q, idle, timer, splice, settled⟩ := jointSettled_idle run ready splicing plan high
  have seq : ((jointSwapped s k).setSeq k q).capRelease.seq k = q :=
    (released_seq _ .splicing k).trans (State.seq_setSeq_same _ k q)
  rw [jointPulse_settled deferred paper, settled, seq]
  refine ⟨idle, timer, splice, fun q tag => capRelease_noGo ?_⟩
  show _ ∉ (jointSwapped s k).link.splice
  rw [jointSwapped, roleSwap_frame]
  exact jointNoted_noGo splicing q tag

/-! ### The gap of a plan that is met (R114) -/

/-- R114: the gap that the grade check asks for, seen from before the joint, whose mark has taken a slot at most. -/
theorem gapHandled_placeGap {s w t : State} {k : Stand} {a b : Coord} (keyed : s.MarksKeyed)
    (gaps : ∀ x, Mark.gap x ∈ w.marks → Mark.gap x ∈ s.marks) (length : w.marks.length ≤ s.marks.length + 1)
    (serial : s.serial ≤ w.serial) (marks : t.marks = (w.placeGap k a b).marks)
    (status : ∀ i, (w.placeGap k a b).errors.status.getLsbD i = true → t.errors.status.getLsbD i = true) :
    GapHandled s t 2 k a b := by
  refine ⟨fun empty x mem _ => ?_, fun long => ⟨status _ (placeGap_raises long), fun room => ?_⟩⟩
  · rw [marks, placeGap_eq, if_pos empty] at mem
    exact gaps x mem
  · refine ⟨gapMark w k a b, marks ▸ gapMark_mem long (by omega), fun old => ?_, rfl, rfl, rfl⟩
    exact absurd (keyed.2 _ old) (not_lt.mpr serial)

section JointGap

variable {s : State} {k : Stand} {j : Coord} {pl : Plan} {m : ChangeMark}

theorem jointGap_retired (gone : s.findChange pl.mark = none) : s.jointGap k j pl = s.placeGap k (knifeCoord s) j := by
  simp only [State.jointGap, gone]

theorem jointGap_ahead (found : s.findChange pl.mark = some m) (ahead : before j pl.p = true)
    (outgoing : m.outgoing ≠ none) : s.jointGap k j pl = s.placeGap k j pl.p := by
  simp only [State.jointGap, found, ahead, Option.isSome_iff_ne_none.mpr outgoing, if_true]

theorem jointGap_first (found : s.findChange pl.mark = some m) (ahead : before j pl.p = true)
    (outgoing : m.outgoing = none) : s.jointGap k j pl = s := by
  simp only [State.jointGap, found, ahead, outgoing, Option.isSome_none, if_true, if_false, Bool.false_eq_true]

theorem jointGap_inside {g : Nat} (found : s.findChange pl.mark = some m) (past : before j pl.p = false)
    (length : m.length = some g) (inside : before (plusMm pl.p g) j = false) : s.jointGap k j pl = s := by
  simp only [State.jointGap, found, past, length, inside, if_false, Bool.false_eq_true]

theorem jointGap_behind {g : Nat} (found : s.findChange pl.mark = some m) (past : before j pl.p = false)
    (length : m.length = some g) (behind : before (plusMm pl.p g) j = true) :
    s.jointGap k j pl = s.placeGap k (laterOf (plusMm pl.p g) (knifeCoord s)) j := by
  simp only [State.jointGap, found, past, length, behind, if_true, if_false, Bool.false_eq_true]

theorem jointGap_seq {i : Stand} (still : (s.seq i).state.waitsForReel = false) :
    (s.jointGap k j pl).seq i = s.seq i := by
  unfold State.jointGap
  dsimp only
  repeat' split
  all_goals first | rfl | exact placeGap_seq still

end JointGap

section Plan

variable {s : State} {k : Stand} {p : Pos} {r : Paper} {pl : Plan} (run : s.runningPos k = some p)
  (ready : (s.slot k p.other).reel = .verified r) (pending : (s.seq k).plan = some pl)
include run ready pending

theorem jointChecked_unmet (other : r.ann.code ≠ pl.code) : jointChecked s k = jointSwapped s k := by
  have plan : ((jointSwapped s k).seq k).plan = some pl := (congrArg Prod.fst (jointSwapped_held s k)).trans pending
  have unmet : (jointSwapped s k).planSatisfied k pl = false := by
    rw [State.planSatisfied, jointSwapped_code run ready]
    exact beq_eq_false_iff_ne.mpr fun e => other (Option.some.inj e)
  simp only [jointChecked, State.gradeCheck, plan, unmet, Bool.false_eq_true, if_false]

theorem jointChecked_met (same : r.ann.code = pl.code) :
    jointChecked s k = ((jointSwapped s k).setPlan k none).jointGap k (jointAt s k) pl := by
  have plan : ((jointSwapped s k).seq k).plan = some pl := (congrArg Prod.fst (jointSwapped_held s k)).trans pending
  have met : (jointSwapped s k).planSatisfied k pl = true := by
    rw [State.planSatisfied, jointSwapped_code run ready, same, beq_self_eq_true]
  simp only [jointChecked, State.gradeCheck, plan, met, if_true]

end Plan

/-- The gaps of the table behind the exchange of the roles are those before the joint. -/
theorem jointSwapped_gaps (s : State) (k : Stand) (x : GapMark) (mem : Mark.gap x ∈ (jointSwapped s k).marks) :
    Mark.gap x ∈ s.marks := by
  rw [jointSwapped_marks] at mem
  exact (jointMark_gaps s k _ x).mp mem

theorem jointSettled_noGap {s : State} {k : Stand} (marks : (jointChecked s k).marks = (jointSwapped s k).marks) :
    NoGap s (jointSettled s k) k := fun x mem _ => by
  rw [jointSettled_marks, marks] at mem
  exact jointSwapped_gaps s k x mem

/-- R114: what the grade check does with a gap, seen from before the joint. -/
theorem jointSettled_gap {s : State} {k : Stand} {a b : Coord} (keyed : s.MarksKeyed)
    (checked : jointChecked s k = ((jointSwapped s k).setPlan k none).placeGap k a b) :
    GapHandled s (jointSettled s k) 2 k a b := by
  refine gapHandled_placeGap (w := (jointSwapped s k).setPlan k none) keyed (jointSwapped_gaps s k) ?_ ?_
    (checked ▸ jointSettled_marks s k) (checked ▸ jointSettled_status s k)
  · show (jointSwapped s k).marks.length ≤ _
    rw [jointSwapped_marks]
    exact jointMark_length s k _
  · show _ ≤ (jointSwapped s k).serial
    rw [jointSwapped, roleSwap_frame]
    exact jointNoted_serial s k

/-- R114: the pending plan at the joint, as the statement has it. -/
theorem jointPulse_plan {s : State} {k : Stand} {p : Pos} {r : Paper} {pl : Plan} (run : s.runningPos k = some p)
    (ready : (s.slot k p.other).reel = .verified r) (paper : 0 < r.remaining) (deferred : (s.seq k).deferred = none)
    (pending : (s.seq k).plan = some pl) (keyed : s.MarksKeyed) :
    (r.ann.code ≠ pl.code → ((s.jointPulse k).seq k).plan = some pl ∧ NoGap s (s.jointPulse k) k)
    ∧ (r.ann.code = pl.code → ((s.jointPulse k).seq k).plan = none
      ∧ (s.findChange pl.mark = none → GapHandled s (s.jointPulse k) 2 k (knifeCoord s) (jointAt s k))
      ∧ ∀ m, s.findChange pl.mark = some m →
          (before (jointAt s k) pl.p = true → m.outgoing ≠ none →
            GapHandled s (s.jointPulse k) 2 k (jointAt s k) pl.p)
          ∧ (before (jointAt s k) pl.p = true → m.outgoing = none → NoGap s (s.jointPulse k) k)
          ∧ ∀ g, m.length = some g → before (jointAt s k) pl.p = false →
              (before (plusMm pl.p g) (jointAt s k) = false → NoGap s (s.jointPulse k) k)
              ∧ (before (plusMm pl.p g) (jointAt s k) = true → GapHandled s (s.jointPulse k) 2 k
                  (laterOf (plusMm pl.p g) (knifeCoord s)) (jointAt s k))) := by
  rw [jointPulse_settled deferred (jointSettled_paper run ready paper)]
  refine ⟨fun other => ?_, fun same => ?_⟩
  · have checked := jointChecked_unmet run ready pending other
    refine ⟨?_, jointSettled_noGap (by rw [checked])⟩
    rw [(jointSettled_held s k).plan, checked]
    exact (congrArg Prod.fst (jointSwapped_held s k)).trans pending
  have checked := jointChecked_met run ready pending same
  have find (u : Nat) : ((jointSwapped s k).setPlan k none).findChange u = (s.jointMark k (jointAt s k)).findChange u :=
    findChange_of_marks (jointSwapped_marks s k) u
  have knife : knifeCoord ((jointSwapped s k).setPlan k none) = knifeCoord s := by
    have frame := jointSwapped_frame s k
    show shiftBy (jointSwapped s k).odometer (-(knOffset (jointSwapped s k).config)) = _
    rw [frame.odometer, frame.config]
    rfl
  refine ⟨?_, fun gone => ?_, fun m found => ?_⟩
  · rw [(jointSettled_held s k).plan, checked, ((HeldKept.refl _).jointGap).plan, setPlan_seq]
  · refine jointSettled_gap keyed (checked.trans ?_)
    rw [jointGap_retired ((find _).trans (jointMark_findChange_none k _ gone)), knife]
  obtain ⟨m', found', moved⟩ := jointMark_findChange_some keyed k (jointAt s k) found
  have there := (find _).trans found'
  rw [← moved.outgoing, ← moved.length]
  refine ⟨fun ahead outgoing => ?_, fun ahead outgoing => ?_, fun g length past => ⟨fun inside => ?_, fun behind => ?_⟩⟩
  · exact jointSettled_gap keyed (checked.trans (jointGap_ahead there ahead outgoing))
  · exact jointSettled_noGap (by rw [checked, jointGap_first there ahead outgoing]; rfl)
  · exact jointSettled_noGap (by rw [checked, jointGap_inside there past length inside]; rfl)
  · refine jointSettled_gap keyed (checked.trans ?_)
    rw [jointGap_behind there past length behind, knife]

/-! ### The statement -/

/-- R185, R187: the low period of a joint input that was high gives the pulse. -/
theorem exec_jointPulse {s : State} {k : Stand} (high : jointLevel s.inputs k = true) :
    exec (.jointPulse k) s = .next (s.jointPulse k) := by
  show Host.Outcome.next (s.jointPeriod k) = _
  rw [State.jointPeriod, if_pos high]

/-- R112: a stand in FAULT stays there. -/
theorem jointPulse_fault {s : State} {k : Stand} (fault : (s.seq k).state = .fault) :
    ((s.jointPulse k).seq k).state = .fault := by
  have still : (s.seq k).state.waitsForReel = false := by rw [fault]; rfl
  have swapped : ((jointSwapped s k).seq k).state = .fault := by
    rw [jointSwapped_seq, jointNoted_state still, fault]
  have checked : ((jointChecked s k).seq k).state = .fault := by
    unfold jointChecked State.gradeCheck
    split
    · exact swapped
    · split
      · have set : (((jointSwapped s k).setPlan k none).seq k).state = .fault := by rw [setPlan_seq]; exact swapped
        rw [jointGap_seq (by rw [set]; rfl), set]
      · exact swapped
  rw [jointPulse_eq, jointSettled, if_pos fault]
  exact afterJoints_fault _ checked

/-- Settles O39. -/
theorem jointPulseSwapsTheRoles : Obligations.JointPulseSwapsTheRoles := by
  refine fun s k => ⟨fun low => ?_, fun high none => ⟨_, exec_jointPulse high, fun room => ?_, jointPulse_runningJoint s k,
    fun p reported other => ⟨jointPulse_unreported none reported other, fun r ready paper => ?_, fun id d held => ?_⟩,
    jointPulse_noRole none⟩, fun p high run => ?_⟩
  · show Host.Outcome.next (s.jointPeriod k) = _
    rw [State.jointPeriod, low]
    rfl
  · exact ⟨_, jointPulse_joint room, rfl, rfl⟩
  · exact jointPulse_reported none reported other (congrArg Reel.spliced ready) (beq_eq_false_iff_ne.mpr paper.ne')
  · refine jointPulse_reported none reported other ?_ rfl
    rcases held with e | ⟨a, e⟩ <;> rw [e] <;> rfl
  have frame := jointPulse_frame s k
  obtain ⟨spent, spentAs⟩ := spentAs_of_inRole (runningPos_inRole run)
  refine ⟨_, exec_jointPulse high, fun room => ⟨_, jointPulse_joint room, rfl, rfl, rfl, rfl⟩, jointPulse_overflow,
    jointPulse_counted, ⟨spent, by rw [jointPulse_spent run, spentAs], fun r st n e => ?_, fun id d e => ?_, fun r e => ?_⟩,
    fun r ready paper => jointPulse_entered run (congrArg Reel.spliced ready) (beq_eq_false_iff_ne.mpr paper.ne'),
    fun id d held => jointPulse_entered run ?_ rfl, fun free => jointPulse_entered run ?_ rfl,
    jointPulse_runningJoint s k, jointPulse_fault,
    fun r splicing plan deferred ready above => jointPulse_idle run ready splicing plan deferred above,
    fun r pl ready paper deferred pending keyed => jointPulse_plan run ready paper deferred pending keyed,
    frame.odometer, frame.config, by rw [frame], frame.glue, frame.preheaters⟩
  · rw [e] at spentAs; exact (Option.some.inj spentAs).symm
  · rw [e] at spentAs; exact (Option.some.inj spentAs).symm
  · rw [e] at spentAs; exact (Option.some.inj spentAs).symm
  · rcases held with e | ⟨a, e⟩ <;> rw [e] <;> rfl
  · rcases free with ⟨sp, e⟩ | ⟨a, e⟩ <;> rw [e] <;> rfl

end Sys2Proof.Machine
end

section
/-! PROOF. The identity check and the events that put a slot's reel and host data together or apart: ANNOUNCE REEL (O31),
WITHDRAW REEL (O32), REEL_LOADED and REEL_REMOVED (O34). -/

namespace Sys2Proof.Machine

open Sys2Proof

variable {s t : State} {k : Stand} {p : Pos}

theorem State.setSlot_setSlot (s : State) (k : Stand) (p : Pos) (x y : ReelSlot) :
    (s.setSlot k p x).setSlot k p y = s.setSlot k p y := by
  cases k <;> cases p <;> rfl

/-! ### The repeated check of a waiting stand (R108) -/

theorem SpliceFrame.readyChanged (h : SpliceFrame s t) : SpliceFrame s (t.readyChanged k p) := by
  unfold State.readyChanged
  split
  · exact h.recheck
  · exact h

theorem readyChanged_frame (t : State) (k : Stand) (p : Pos) : SpliceFrame t (t.readyChanged k p) :=
  (SpliceFrame.refl t).readyChanged

theorem readyChanged_isIn {e : ErrorKind} (set : e.isIn t.errors.status = true) :
    e.isIn (t.readyChanged k p).errors.status = true := (Evolves.refl t).readyChanged.status _ set

/-! ### The identity check (R87) -/

theorem identityAgrees_iff {id : Nat} {a : Announcement} :
    identityAgrees id a = true ↔ a.force = true ∨ (id ≠ 0 ∧ id = a.id) := by
  simp only [identityAgrees, Bool.or_eq_true, Bool.and_eq_true, bne_iff_ne, beq_iff_eq]

theorem identityCheck_agrees {id d : Nat} {a : Announcement} (agrees : identityAgrees id a = true) :
    s.identityCheck k p id d a = s.setSlot k p { s.slot k p with reel := .verified (verifiedPaper id d a) } := by
  rw [State.identityCheck, if_pos agrees]

theorem identityCheck_differs {id d : Nat} {a : Announcement} (differs : ¬ identityAgrees id a = true) :
    s.identityCheck k p id d a
      = (s.setSlot k p ⟨.mismatch id { a with force := false } d, true⟩).raise .reelMismatch (.stand k) := by
  rw [State.identityCheck, if_neg differs]

/-- R87: a check that ends in MISMATCH, with the repeated check of the stand behind it. -/
theorem identityCheck_mismatch {id d : Nat} {a : Announcement} (differs : ¬ identityAgrees id a = true) :
    SpliceFrame (s.setSlot k p ⟨.mismatch id { a with force := false } d, true⟩)
        ((s.identityCheck k p id d a).readyChanged k p)
      ∧ ErrorKind.reelMismatch.isIn ((s.identityCheck k p id d a).readyChanged k p).errors.status = true := by
  rw [identityCheck_differs differs]
  exact ⟨(SpliceFrame.refl _).raise.readyChanged, readyChanged_isIn (raise_isIn _ _ _)⟩

/-- R87: the two ends of an identity check, with the repeated check of the stand behind it. -/
theorem identityCheck_outcome (id d : Nat) (a : Announcement) :
    if a.force = true ∨ (id ≠ 0 ∧ id = a.id) then
      SpliceFrame (s.setSlot k p { s.slot k p with reel := .verified (verifiedPaper id d a) })
        ((s.identityCheck k p id d a).readyChanged k p)
    else
      SpliceFrame (s.setSlot k p ⟨.mismatch id { a with force := false } d, true⟩)
          ((s.identityCheck k p id d a).readyChanged k p)
        ∧ ErrorKind.reelMismatch.isIn ((s.identityCheck k p id d a).readyChanged k p).errors.status = true := by
  split
  · next agrees => rw [identityCheck_agrees (identityAgrees_iff.mpr agrees)]; exact readyChanged_frame _ k p
  · next differs => exact identityCheck_mismatch (mt identityAgrees_iff.mp differs)

/-- R93: a reel without a diameter holds no length. -/
theorem verifiedPaper_unmeasured (id : Nat) (a : Announcement) :
    verifiedPaper id 0 a = ⟨id, { a with force := false }, 0, 0, 0, false⟩ := by
  have none : paperLength 0 a.core a.caliper = 0 := if_pos (Nat.zero_le _)
  simp only [verifiedPaper, Paper.recomputed, none]
  rfl

/-! ### A VERIFIED slot announced again (R88) -/

/-- R87, R93: where the check passes again, LIMITED is that of the computation, or stays set. -/
theorem verifyAgain_agrees {r : Paper} {a : Announcement} (agrees : identityAgrees r.readId a = true) :
    ∃ limited : Bool,
      SpliceFrame (s.setSlot k p { s.slot k p with
          reel := .verified { verifiedPaper r.readId r.diameter a with limited := limited } }) (s.verifyAgain k p r a)
        ∧ ((verifiedPaper r.readId r.diameter a).limited = true → limited = true)
        ∧ (limited = true → r.limited = true ∨ (verifiedPaper r.readId r.diameter a).limited = true) := by
  simp only [State.verifyAgain, identityCheck_agrees agrees, State.slot_setSlot_same]
  split
  · next free =>
    obtain ⟨kept, clear⟩ := Bool.and_eq_true_iff.mp free
    refine ⟨Config.freeBit s.draws, SpliceFrame.drawn ?_, fun set => ?_, fun _ => .inl kept⟩
    · rw [State.setSlot_setSlot]; exact .refl _
    · rw [set] at clear; cases clear
  · exact ⟨_, .refl _, id, .inr⟩

theorem verifyAgain_differs {r : Paper} {a : Announcement} (differs : ¬ identityAgrees r.readId a = true) :
    s.verifyAgain k p r a = s.identityCheck k p r.readId r.diameter a := by
  have slot : (s.identityCheck k p r.readId r.diameter a).slot k p
      = ⟨.mismatch r.readId { a with force := false } r.diameter, true⟩ := by
    rw [identityCheck_differs differs]; exact State.slot_setSlot_same s k p _
  simp only [State.verifyAgain, slot]

/-! ### ANNOUNCE REEL (R88) -/

theorem exec_announceReel (b : List Byte) (s : State) (a : Answer) (answer : answerAnnounceReel b s = a) :
    exec (.announceReel b) s = .next (answered 0x30 s a) := answer ▸ rfl

theorem answerAnnounceReel_placed {b : List Byte} {a : Announcement} (len : b.length = 13) (place : placeOf b = some (k, p))
    (announcement : announcementOf b = some a) : answerAnnounceReel b s = refuseIf (s.slot k p).reel.inRole .state
      (refuseIf (s.splicingReady k p) .state
        (done (s.announce k p a) (byteOf (reelStateCode ((s.announce k p a).slot k p).reel)))) := by
  simp only [answerAnnounceReel, len, bne_self_eq_false, refuseIf_false, place, announcement]

/-- Settles O31: an announcement is stored, or leads to the identity check, the stand's repeated check behind it. -/
theorem announceReelActsByState : Obligations.AnnounceReelActsByState := by
  intro b s k p a len place announcement
  have answer := answerAnnounceReel_placed (s := s) len place announcement
  refine ⟨fun refused => exec_announceReel b s (.error .state) (answer.trans ?_), fun out apart =>
    ⟨s.announce k p a, exec_announceReel b s (done _ _) (answer.trans (by rw [out, apart]; rfl)), fun waits => ?_,
      fun id d held => ?_, fun r held => ?_⟩⟩
  · rcases refused with role | splicing
    · rw [role, refuseIf_true]
    · rw [splicing, refuseIf_true]
      cases (s.slot k p).reel.inRole <;> rfl
  · rcases waits with ⟨sp, e⟩ | ⟨old, e⟩ <;> simp only [State.announce, e] <;> exact readyChanged_frame _ k p
  · rcases held with e | ⟨old, e⟩ <;> simp only [State.announce, e] <;> exact identityCheck_outcome id d a
  · simp only [State.announce, held]
    split
    · next agrees =>
      obtain ⟨limited, frame, computed, source⟩ := verifyAgain_agrees (s := s) (k := k) (p := p)
        (identityAgrees_iff.mpr agrees)
      exact ⟨limited, frame.readyChanged, computed, source⟩
    · next differs =>
      have differs := mt identityAgrees_iff.mp differs
      rw [verifyAgain_differs differs]
      exact identityCheck_mismatch differs

/-! ### WITHDRAW REEL (R89) -/

theorem exec_withdrawReel (b : List Byte) (s : State) (a : Answer) (answer : answerWithdrawReel b s = a) :
    exec (.withdrawReel b) s = .next (answered 0x31 s a) := answer ▸ rfl

/-- R89: a slot without host data to drop, and the ready slot of a SPLICING stand, refuse the withdrawal. -/
theorem exec_withdrawReel_refused {b : List Byte} (len : b.length = 2) (place : placeOf b = some (k, p))
    (refused : s.splicingReady k p = true ∨ (s.slot k p).reel.withdrawn = none) :
    exec (.withdrawReel b) s = .next (s.respond 0x31#8 .state []) := by
  refine exec_withdrawReel b s (.error .state) ?_
  rcases refused with splicing | none
  · simp only [answerWithdrawReel, len, bne_self_eq_false, refuseIf_false, place, splicing, refuseIf_true]
  · simp only [answerWithdrawReel, len, bne_self_eq_false, refuseIf_false, place, none]
    cases s.splicingReady k p <;> rfl

theorem Reel.withdrawn_of_inRole {r : Reel} (role : r.inRole = true) : r.withdrawn = none := by
  cases r <;> first | rfl | cases role

/-- R89: the withdrawal from a slot that holds host data. -/
theorem exec_withdrawReel_done {b : List Byte} {r : Reel} (len : b.length = 2) (place : placeOf b = some (k, p))
    (apart : s.splicingReady k p = false) (withdrawn : (s.slot k p).reel.withdrawn = some r) :
    ∃ t : State, exec (.withdrawReel b) s = .next (t.respond 0x31#8 .ok [])
      ∧ SpliceFrame (s.setSlot k p { s.slot k p with reel := r }) t :=
  ⟨_, exec_withdrawReel b s (done ((s.setSlot k p { s.slot k p with reel := r }).readyChanged k p) []) (by
    simp only [answerWithdrawReel, len, bne_self_eq_false, refuseIf_false, place, apart, withdrawn]),
    readyChanged_frame _ k p⟩

/-- Settles O32. -/
theorem withdrawReelDropsHostData : Obligations.WithdrawReelDropsHostData := by
  intro b s k p len place
  refine ⟨fun refused => ?_, fun apart => ⟨fun a e => ?_, fun r e => ?_, fun id a d e => ?_⟩⟩
  · refine exec_withdrawReel_refused len place ?_
    rcases refused with splicing | role | ⟨sp, e⟩ | ⟨id, d, e⟩
    · exact .inl splicing
    · exact .inr (Reel.withdrawn_of_inRole role)
    · exact .inr (by rw [e]; rfl)
    · exact .inr (by rw [e]; rfl)
  · exact exec_withdrawReel_done len place apart (by rw [e]; rfl)
  · exact exec_withdrawReel_done len place apart (by rw [e]; rfl)
  · exact exec_withdrawReel_done len place apart (by rw [e]; rfl)

/-! ### REEL_LOADED and REEL_REMOVED (R84, R85) -/

theorem exec_reelLoaded {id : Nat} (bound : id ≤ 99999999) :
    exec (.reelLoaded k p id) s = .next (s.reelLoaded k p id) := congrArg _ (if_neg (by omega))

/-- R84: a reel loaded where host data are held is checked against them. -/
theorem reelLoaded_announced {a : Announcement} {id : Nat} (held : (s.slot k p).reel = .announced a
      ∨ (∃ r, (s.slot k p).reel = .verified r ∧ r.ann = a) ∨ ∃ old d, (s.slot k p).reel = .mismatch old a d) :
    s.reelLoaded k p id = (s.identityCheck k p id 0 a).readyChanged k p := by
  rcases held with e | ⟨r, e, rfl⟩ | ⟨old, d, e⟩ <;> simp only [State.reelLoaded, e]

/-- R85: the announcement stays when the reel of a checked slot is removed. -/
theorem reelRemoved_announced {a : Announcement} (held : (∃ r, (s.slot k p).reel = .verified r ∧ r.ann = a)
      ∨ ∃ id d, (s.slot k p).reel = .mismatch id a d) : s.reelRemoved k p
    = (s.setSlot k p { s.slot k p with reel := .announced { a with force := false } }).readyChanged k p := by
  rcases held with ⟨r, e, rfl⟩ | ⟨id, d, e⟩ <;> simp only [State.reelRemoved, e]

/-- Settles O34. -/
theorem reelReportsActByState : Obligations.ReelReportsActByState := by
  refine fun s k p => ⟨fun id bound => ?_, fun invalid => ?_, fun id d e => ⟨_, rfl, ?_⟩, fun a held => ⟨_, rfl, ?_⟩⟩
  · rw [exec_reelLoaded bound]
    refine ⟨fun role => congrArg _ ?_, fun bare => ⟨_, rfl, ?_⟩, fun a held => ⟨_, rfl, ?_⟩⟩
    · rw [State.reelLoaded]
      split <;> first | rfl | (next e => rw [e] at role; cases role)
    · rcases bare with ⟨sp, e⟩ | ⟨old, d, e⟩ <;> simp only [State.reelLoaded, e] <;> exact readyChanged_frame _ k p
    · rw [reelLoaded_announced held, ← verifiedPaper_unmeasured]
      exact identityCheck_outcome id 0 a
  · refine congrArg Host.Outcome.next ?_
    rw [State.reelRemoved]
    rcases invalid with role | ⟨sp, e⟩ | ⟨a, e⟩
    · dsimp only
      split <;> first | rfl | (next e => rw [e] at role; cases role)
    · simp only [e]; rfl
    · simp only [e]; rfl
  · simp only [State.reelRemoved, e]
    exact readyChanged_frame _ k p
  · rw [reelRemoved_announced held]
    exact readyChanged_frame _ k p

end Sys2Proof.Machine
end

section
/-! PROOF. The running role of a stand: the low-reel and run-out tests where they find nothing (R96, R97), THREAD REEL and
UNTHREAD REEL (O33). -/

namespace Sys2Proof.Machine

open Sys2Proof

variable {s t : State} {k : Stand} {p : Pos}

/-! ### A reel above its reserve (R96, R97) -/

/-- R96: where stand k has a RUNNING reel in the running role, it is above its reserve. -/
def State.AboveReserve (s : State) (k : Stand) : Prop :=
  ∀ p r st n, s.runningPos k = some p → (s.slot k p).reel = .running r st n → reserveOf s.config k < r.remaining

theorem SpliceFrame.aboveReserve (h : SpliceFrame s t) (above : s.AboveReserve k) : t.AboveReserve k := by
  intro p r st n run reel
  rw [runningPos_of_slots (slot_of_reels h.reels k)] at run
  rw [slot_of_reels h.reels] at reel
  rw [h.config]
  exact above p r st n run reel

theorem lowReelIfLow_above (above : s.AboveReserve k) : s.lowReelIfLow k = s := by
  rw [State.lowReelIfLow, low_eq_false above]
  rfl

/-- R97: nothing runs out where the running role holds no dry reel. -/
theorem runOutIfEmpty_wet (wet : ∀ p, s.runningPos k = some p → (s.slot k p).reel.dry = false) :
    s.runOutIfEmpty k = s := by
  unfold State.runOutIfEmpty
  split
  · rfl
  · next p run =>
    have notDry := wet p run
    split
    · next e => rw [e] at notDry; exact if_neg (beq_eq_false_iff_ne.mp notDry)
    · rfl

theorem Reel.dry_eq_false {x : Reel} (paper : ∀ r st n, x = .running r st n → r.remaining ≠ 0) : x.dry = false := by
  unfold Reel.dry
  split
  · next r st n => exact beq_eq_false_iff_ne.mpr (paper r st n rfl)
  · rfl

theorem runOutIfEmpty_above (above : s.AboveReserve k) : s.runOutIfEmpty k = s :=
  runOutIfEmpty_wet fun p run => Reel.dry_eq_false fun r st n e => Nat.ne_zero_of_lt (above p r st n run e)

/-! ### A slot that enters the running role (R83, R120) -/

/-- R83: a reel that enters the running role of a stand without one is at the running position. -/
theorem runningPos_setSlot_entered {x : ReelSlot} (none : s.runningPos k = none) (role : x.reel.inRole = true) :
    (s.setSlot k p x).runningPos k = some p := by
  refine runningPos_of_inRole (by rw [State.slot_setSlot_same]; exact role) ?_
  rw [State.slot_setSlot_otherPos _ _ _ (Pos.other_ne p)]
  exact State.Coherent.runningPos_none none _

theorem SpliceAt.recheck (h : SpliceAt k s t) : SpliceAt k s (t.recheck k) := by
  unfold State.recheck
  split
  · exact h.checkReel
  · exact h

/-- R120: behind a THREAD REEL whose reel is above its reserve and meets no plan, the running joint is cleared and a waiting
stand repeats its check. -/
theorem afterThread_quiet (unmet : ∀ pl, (s.seq k).plan = some pl → s.runningCode k ≠ some pl.code)
    (above : s.AboveReserve k) :
    s.afterThread k = (s.setSeq k { s.seq k with runningJoint := none }).recheck k := by
  have checked : SpliceFrame s ((s.setSeq k { s.seq k with runningJoint := none }).recheck k) :=
    (SpliceFrame.refl s).setSeq.recheck
  have tests : s.afterThread k
      = (((s.setSeq k { s.seq k with runningJoint := none }).recheck k).lowReelIfLow k).runOutIfEmpty k := by
    unfold State.afterThread
    extract_lets _ cleared satisfied
    have stays : satisfied = cleared := by
      unfold satisfied
      split
      · next pl plan =>
        rw [State.seq_setSeq_same] at plan
        exact if_neg (mt beq_iff_eq.mp (unmet pl plan))
      · rfl
    rw [stays]
  rw [tests, lowReelIfLow_above (checked.aboveReserve above), runOutIfEmpty_above (checked.aboveReserve above)]

theorem afterThread_outcome (unmet : ∀ pl, (s.seq k).plan = some pl → s.runningCode k ≠ some pl.code)
    (above : s.AboveReserve k) : SpliceFrame s (s.afterThread k) ∧ ((s.afterThread k).seq k).runningJoint = none
      ∧ ∀ j, j ≠ k → (s.afterThread k).seq j = s.seq j := by
  have at_ : SpliceAt k s (s.afterThread k) := by
    rw [afterThread_quiet unmet above]; exact (SpliceAt.refl k s).setSeq.recheck
  refine ⟨at_.frame, ?_, at_.others⟩
  rw [afterThread_quiet unmet above, ((HeldKept.refl _).recheck (k := k)).runningJoint, State.seq_setSeq_same]

/-! ### THREAD REEL (R90) -/

theorem exec_threadReel (b : List Byte) (s : State) (a : Answer) (answer : answerThreadReel b s = a) :
    exec (.threadReel b) s = .next (answered 0x32 s a) := answer ▸ rfl

/-- R90: a stand that has a running role, and a slot without a loaded reel, refuse the threading. -/
theorem exec_threadReel_refused {b : List Byte} (len : b.length = 2) (place : placeOf b = some (k, p))
    (refused : (s.runningPos k).isSome = true ∨ (s.slot k p).reel.threaded = none) :
    exec (.threadReel b) s = .next (s.respond 0x32#8 .state []) := by
  refine exec_threadReel b s (.error .state) ?_
  rcases refused with run | none
  · simp only [answerThreadReel, len, bne_self_eq_false, refuseIf_false, place, run, refuseIf_true]
  · simp only [answerThreadReel, len, bne_self_eq_false, refuseIf_false, place, none]
    cases (s.runningPos k).isSome <;> rfl

/-- R83, R90: a reel that comes to be RUNNING or UNIDENTIFIED. -/
theorem Reel.threaded_cases {r x : Reel} (threaded : r.threaded = some x) :
    (∃ paper, x = .running paper false 0) ∨ ∃ id d, x = .unidentified id d := by
  cases r <;> cases threaded
  · exact .inr ⟨_, _, rfl⟩
  · exact .inl ⟨_, rfl⟩
  · exact .inr ⟨_, _, rfl⟩

/-- R90: the threading of a reel that, where it is RUNNING, is above its reserve and meets no pending plan. -/
theorem exec_threadReel_done {b : List Byte} {x : Reel} (len : b.length = 2) (place : placeOf b = some (k, p))
    (free : s.runningPos k = none) (threaded : (s.slot k p).reel.threaded = some x)
    (quiet : ∀ r st n, x = .running r st n →
      reserveOf s.config k < r.remaining ∧ ∀ pl, (s.seq k).plan = some pl → pl.code ≠ r.ann.code) :
    ∃ t : State, exec (.threadReel b) s = .next (t.respond 0x32#8 .ok [])
      ∧ SpliceFrame (s.setSlot k p { s.slot k p with reel := x }) t
      ∧ (t.seq k).runningJoint = none ∧ (∀ j, j ≠ k → t.seq j = s.seq j) := by
  have role : x.inRole = true := by rcases Reel.threaded_cases threaded with ⟨_, rfl⟩ | ⟨_, _, rfl⟩ <;> rfl
  have run : (s.setSlot k p { s.slot k p with reel := x }).runningPos k = some p := runningPos_setSlot_entered free role
  refine ⟨_, exec_threadReel b s (done ((s.setSlot k p { s.slot k p with reel := x }).afterThread k) []) ?_,
    afterThread_outcome (fun pl plan => ?_) fun q r st n there reel => ?_⟩
  · simp only [answerThreadReel, len, bne_self_eq_false, refuseIf_false, place, free, Option.isSome_none, threaded]
  · simp only [State.runningCode, run, State.slot_setSlot_same]
    rcases Reel.threaded_cases threaded with ⟨r, rfl⟩ | ⟨_, _, rfl⟩
    · exact fun met => (quiet r false 0 rfl).2 pl plan (Option.some.inj met).symm
    · nofun
  · rw [run] at there
    cases there
    rw [State.slot_setSlot_same] at reel
    exact (quiet r st n reel).1

/-! ### UNTHREAD REEL (R91) -/

theorem exec_unthreadReel (b : List Byte) (s : State) (a : Answer) (answer : answerUnthreadReel b s = a) :
    exec (.unthreadReel b) s = .next (answered 0x33 s a) := answer ▸ rfl

/-- R91: with a running role, the line and the sequencer alone decide. -/
theorem answerUnthreadReel_running {b : List Byte} (len : b.length = 1) (stand : standOf (field b 0 1) = some k)
    (run : s.runningPos k = some p) : answerUnthreadReel b s = refuseIf (!s.stopped) .state
      (refuseIf ((s.seq k).state != .idle && (s.seq k).state != .fault) .state
        (done ((s.setSlot k p { s.slot k p with reel := .empty (s.slot k p).reel.spentAs }).setSeq k
          { s.seq k with runningJoint := none }) [])) := by
  simp only [answerUnthreadReel, len, bne_self_eq_false, refuseIf_false, stand, run]
  rfl

theorem exec_unthreadReel_refused {b : List Byte} (len : b.length = 1) (stand : standOf (field b 0 1) = some k)
    (refused : s.runningPos k = none ∨ s.stopped = false ∨ ((s.seq k).state ≠ .idle ∧ (s.seq k).state ≠ .fault)) :
    exec (.unthreadReel b) s = .next (s.respond 0x33#8 .state []) := by
  refine exec_unthreadReel b s (.error .state) ?_
  cases run : s.runningPos k with
  | none => simp only [answerUnthreadReel, len, bne_self_eq_false, refuseIf_false, stand, run]
  | some p =>
    rw [answerUnthreadReel_running len stand run]
    rcases refused with none | moving | ⟨notIdle, notFault⟩
    · rw [run] at none; cases none
    · rw [moving]; rfl
    · rw [bne_iff_ne.mpr notIdle, bne_iff_ne.mpr notFault]
      cases s.stopped <;> rfl

/-- R91: on a stopped line a stand in IDLE or FAULT lets its reel go. -/
theorem exec_unthreadReel_done {b : List Byte} (len : b.length = 1) (stand : standOf (field b 0 1) = some k)
    (run : s.runningPos k = some p) (stopped : s.stopped = true)
    (free : (s.seq k).state = .idle ∨ (s.seq k).state = .fault) : exec (.unthreadReel b) s = .next
      (((s.setSlot k p { s.slot k p with reel := .empty (s.slot k p).reel.spentAs }).setSeq k
        { s.seq k with runningJoint := none }).respond 0x33#8 .ok []) := by
  refine exec_unthreadReel b s (done _ []) ((answerUnthreadReel_running len stand run).trans ?_)
  rw [stopped]
  rcases free with e | e <;> rw [e] <;> rfl

/-- Settles O33. -/
theorem reelsEnterAndLeaveTheRunningRole : Obligations.ReelsEnterAndLeaveTheRunningRole := by
  refine ⟨fun b s k p len place => ⟨fun refused => exec_threadReel_refused len place ?_, fun free r e above unmet =>
      exec_threadReel_done len place free (by rw [e]; rfl) ?_, fun free id d held =>
      exec_threadReel_done (x := .unidentified id d) len place free ?_ nofun⟩,
    fun b s k len stand => ⟨exec_unthreadReel_refused len stand, fun p run stopped free => ?_⟩⟩
  · rcases refused with run | ⟨sp, e⟩ | ⟨a, e⟩
    · exact .inl run
    · exact .inr (by rw [e]; rfl)
    · exact .inr (by rw [e]; rfl)
  · rintro _ _ _ ⟨⟩
    exact ⟨above, unmet⟩
  · rcases held with e | ⟨a, e⟩ <;> rw [e] <;> rfl
  · obtain ⟨spent, spentAs⟩ := spentAs_of_inRole (runningPos_inRole run)
    refine ⟨spent, spentAs ▸ exec_unthreadReel_done len stand run stopped free, fun r st n e => ?_, fun id d e => ?_,
      fun r e => ?_⟩
    all_goals rw [e] at spentAs; exact (Option.some.inj spentAs).symm

end Sys2Proof.Machine
end

section
/-! PROOF. The running reel: DIAMETER (O35), the run-out, and the stale timer at a window close (O36). -/

namespace Sys2Proof.Machine

open Sys2Proof

variable {s t : State} {k j : Stand} {p q : Pos} {r : Paper} {st : Bool} {n d : Nat}

/-! ### The run-out (R97, R117) -/

theorem runOutIfEmpty_dry (run : s.runningPos k = some p) (reel : (s.slot k p).reel = .running r st n)
    (dry : r.remaining = 0) : s.runOutIfEmpty k
      = ((s.setSlot k p ⟨.exhausted r, true⟩).raise .runOut (.stand k)).enterFault k := by
  simp only [State.runOutIfEmpty, run, reel, dry, if_true]

theorem runOutIfEmpty_paper (run : s.runningPos k = some p) (reel : (s.slot k p).reel = .running r st n)
    (paper : r.remaining ≠ 0) : s.runOutIfEmpty k = s :=
  runOutIfEmpty_wet fun q there => by
    cases run.symm.trans there
    exact Reel.dry_eq_false fun _ _ _ e => by cases reel.symm.trans e; exact paper

/-- R97: the slot that runs out, whatever the fault of the stand brings about. -/
theorem runOutIfEmpty_slot (run : s.runningPos k = some p) (reel : (s.slot k p).reel = .running r st n)
    (dry : r.remaining = 0) : (s.runOutIfEmpty k).slot k p = ⟨.exhausted r, true⟩ := by
  have spent : ((s.setSlot k p ⟨.exhausted r, true⟩).raise .runOut (.stand k)).slot k p = ⟨.exhausted r, true⟩ :=
    State.slot_setSlot_same s k p _
  rw [runOutIfEmpty_dry run reel dry, ((JointFrame.refl k _).enterFault (i := k)).slots p (by rw [spent]; rfl), spent]

/-- R198: a raise of an unmasked kind of fatal severity puts the line into HOLD. -/
theorem raise_hold {e : ErrorKind} (unmasked : e.isIn s.errors.mask = false) (fatal : e.isIn s.errors.severity = true)
    (o : ErrorObject) : (s.raise e o).errors.hold = true := by
  simp only [State.raise, Errors.raised, unmasked, fatal, Bool.false_eq_true, if_false, Bool.or_true]

/-! ### A stand that enters FAULT (R103, R117) -/

theorem clearSatisfied_seq_fault {pl : Plan} (fault : (s.seq k).state = .fault) :
    (s.clearSatisfied k pl).seq k = { s.seq k with plan := none } := by
  have gap : ((s.setPlan k none).satisfiedGap k pl).seq k = { s.seq k with plan := none } := by
    rw [satisfiedGap_seq (by rw [setPlan_seq, fault]; rfl), setPlan_seq]
  have free : (((s.setPlan k none).satisfiedGap k pl).seq k).holdsGrade = false := by
    simp only [gap, Sequencer.holdsGrade, fault]
  have quiet : s.clearSatisfied k pl = (s.setPlan k none).satisfiedGap k pl :=
    if_neg (by rw [free]; exact Bool.false_ne_true)
  rw [quiet, gap]

/-- R103: of the sequencer of a stand in FAULT an arriving plan changes the pending plan alone. -/
theorem takePlan_seq_fault {pl : Plan} (fault : (s.seq k).state = .fault) :
    ∃ plan, (s.takePlan k pl).seq k = { s.seq k with plan := plan } := by
  unfold State.takePlan
  extract_lets gap taken
  have still : (s.seq k).state.waitsForReel = false := by rw [fault]; rfl
  have gapSeq : gap.seq k = s.seq k := by
    unfold gap
    split
    · exact placeGap_seq still
    · rfl
  have takenSeq : taken.seq k = { s.seq k with plan := some pl } := by rw [← gapSeq]; exact setPlan_seq gap k _
  have takenFault : (taken.seq k).state = .fault := by rw [takenSeq]; exact fault
  split
  · exact ⟨none, by rw [clearSatisfied_seq_fault takenFault, takenSeq]⟩
  · rw [takenFault]
    exact ⟨some pl, takenSeq⟩

theorem planArrives_seq_fault {pl : Plan} (fault : (s.seq k).state = .fault) :
    ∃ plan, (s.planArrives k pl).seq k = { s.seq k with plan := plan } := by
  have pending : s.planArrives k pl = s.takePlan k pl := by simp only [State.planArrives, fault]
  rw [pending]
  exact takePlan_seq_fault fault

theorem handDeferred_seq_fault (fault : (s.seq k).state = .fault) :
    ∃ plan deferred, (s.handDeferred k).seq k = { s.seq k with plan := plan, deferred := deferred } := by
  unfold State.handDeferred
  split
  · next pl _ =>
    have cleared := State.seq_setSeq_same s k { s.seq k with deferred := none }
    obtain ⟨plan, taken⟩ := planArrives_seq_fault (s := s.setSeq k { s.seq k with deferred := none }) (k := k) (pl := pl)
      (by rw [cleared]; exact fault)
    exact ⟨plan, none, by rw [taken, cleared]⟩
  · exact ⟨_, _, rfl⟩

/-- R117: a stand that enters FAULT is there with its timer stopped, also behind a deferred plan handed in. -/
theorem enterFault_seq (s : State) (k : Stand) :
    ((s.enterFault k).seq k).state = .fault ∧ ((s.enterFault k).seq k).timer = none := by
  have entered := State.seq_setSeq_same s k
    { s.seq k with state := .fault, required := none, timer := none, goTag := none }
  obtain ⟨plan, deferred, seq⟩ := handDeferred_seq_fault
    (s := s.setSeq k { s.seq k with state := .fault, required := none, timer := none, goTag := none }) (k := k)
    (by rw [entered])
  rw [State.enterFault, released_seq, seq, entered]
  exact ⟨rfl, rfl⟩

theorem enterFault_frame (none : (s.seq k).deferred = none) : SpliceFrame s (s.enterFault k) := by
  rw [State.enterFault, handDeferred_none (by rw [State.seq_setSeq_same]; exact none)]
  exact (SpliceFrame.refl s).setSeq.released

/-! ### DIAMETER (R86, R93) -/

theorem exec_diameter (bound : d ≤ 65535) : exec (.diameter k p d) s = .next (s.diameterReport k p d) :=
  congrArg _ (if_neg (by omega))

theorem SpliceFrame.lowIfNew (h : SpliceFrame s t) {wasLow : Bool} : SpliceFrame s (t.lowIfNew k wasLow) := by
  unfold State.lowIfNew
  split
  · exact h
  · exact h.lowReelIfLow

/-- R83: a reel that stays in the running role, or out of it, leaves the running position. -/
theorem runningPos_setSlot_role {x : ReelSlot} (same : x.reel.inRole = (s.slot k p).reel.inRole) :
    (s.setSlot k p x).runningPos j = s.runningPos j := by
  have role (q : Pos) : ((s.setSlot k p x).slot j q).reel.inRole = (s.slot j q).reel.inRole := by
    rw [State.slot_setSlot]
    split
    · next here => rw [here.1, here.2, same]
    · rfl
  simp only [State.runningPos, role]

section Recomputed

variable {wasLow : Bool} (run : s.runningPos k = some p) (reel : (s.slot k p).reel = .running r st n)
include run reel

theorem afterRecompute_paper (paper : r.remaining ≠ 0) : (s.afterRecompute k wasLow).slot k p = s.slot k p := by
  have frame : SpliceFrame s (s.lowIfNew k wasLow) := (SpliceFrame.refl s).lowIfNew
  have same := slot_of_reels frame.reels k
  rw [State.afterRecompute, runOutIfEmpty_paper ((runningPos_of_slots same).trans run) (by rw [same]; exact reel) paper,
    same]

theorem afterRecompute_dry (dry : r.remaining = 0) : (s.afterRecompute k wasLow).slot k p = ⟨.exhausted r, true⟩ := by
  have frame : SpliceFrame s (s.lowIfNew k wasLow) := (SpliceFrame.refl s).lowIfNew
  have same := slot_of_reels frame.reels k
  exact runOutIfEmpty_slot ((runningPos_of_slots same).trans run) (by rw [same]; exact reel) dry

theorem afterRecompute_above (above : reserveOf s.config k < r.remaining) : s.afterRecompute k wasLow = s := by
  have high : s.AboveReserve k := fun q x _ _ there running => by
    cases run.symm.trans there
    cases reel.symm.trans running
    exact above
  rw [State.afterRecompute, State.lowIfNew, lowReelIfLow_above high, ite_self, runOutIfEmpty_above high]

end Recomputed

/-- Settles O35. -/
theorem diameterRecomputesTheLength : Obligations.DiameterRecomputesTheLength := by
  intro s k p d bound measured recomputed becomes
  rw [exec_diameter bound]
  refine ⟨fun bare => congrArg _ ?_, fun large full known => congrArg _ ?_, fun fits => ?_⟩
  · rcases bare with ⟨sp, e⟩ | ⟨a, e⟩ <;> simp only [State.diameterReport, e] <;> rfl
  · simp only [State.diameterReport, large, if_true]
    cases e : (s.slot k p).reel <;> first | rfl | exact absurd e (full _) | exact absurd e (known _)
  · have fits : ¬ 20000 < d := not_lt.mpr fits
    have standing {x : Reel} (report : s.diameterReport k p d = s.setSlot k p { s.slot k p with reel := x }) :
        becomes x := (exec_diameter bound).trans (congrArg _ report)
    refine ⟨fun id e h => standing ?_, fun id a e h => standing ?_, fun id e h => standing ?_, fun r h => standing ?_,
      fun r h => standing ?_, fun r st n h run => ?_⟩
    case refine_6 =>
      have reel := State.slot_setSlot_same s k p { s.slot k p with reel := .running (recomputed r) false 0 }
      have stays : (s.setSlot k p { s.slot k p with reel := .running (recomputed r) false 0 }).runningPos k = some p :=
        (runningPos_setSlot_role (by rw [h]; rfl)).trans run
      have report : s.diameterReport k p d
          = (s.setSlot k p { s.slot k p with reel := .running (recomputed r) false 0 }).afterRecompute k (s.low k) := by
        simp only [State.diameterReport, h, fits, if_false]
        rfl
      rw [report]
      refine ⟨_, rfl, fun paper => ?_, fun dry => ?_, fun above => ?_⟩
      · rw [afterRecompute_paper stays (by rw [reel]) paper, reel]
      · exact afterRecompute_dry stays (by rw [reel]) dry
      · exact afterRecompute_above stays (by rw [reel]) above
    all_goals
      simp only [State.diameterReport, h, fits, if_false]
      rfl

/-! ### The stale timer (R98) -/

theorem staleTest_late (run : s.runningPos k = some p) (reel : (s.slot k p).reel = .running r false n)
    (late : staleLimit s.config < n) : s.staleTest k
      = (s.setSlot k p { s.slot k p with reel := .running r true n }).raise .diameterStale (.stand k) := by
  simp only [State.staleTest, run, reel, late, if_true]

theorem staleTest_early (run : s.runningPos k = some p) (reel : (s.slot k p).reel = .running r st n)
    (early : st = true ∨ n ≤ staleLimit s.config) : s.staleTest k = s := by
  simp only [State.staleTest, run, reel]
  rcases early with rfl | early
  · rfl
  · cases st
    · exact if_neg (not_lt.mpr early)
    · rfl

theorem staleAdvance_running (run : s.runningPos k = some p) (reel : (s.slot k p).reel = .running r false n) :
    (s.staleAdvance k).slot k p = { s.slot k p with reel := .running r false (min 120100 (n + 100)) } := by
  simp only [State.staleAdvance, run, reel, State.slot_setSlot_same]

theorem staleAdvance_other (other : k ≠ j) (q : Pos) : (s.staleAdvance j).slot k q = s.slot k q := by
  unfold State.staleAdvance
  repeat' split
  · rfl
  · exact State.slot_setSlot_otherStand _ _ _ _ other
  · rfl

theorem foldl_staleAdvance_other {ks : List Stand} (out : k ∉ ks) (s : State) (q : Pos) :
    (ks.foldl State.staleAdvance s).slot k q = s.slot k q := by
  induction ks generalizing s with
  | nil => rfl
  | cons j ks ih =>
    obtain ⟨other, out⟩ := not_or.mp (mt List.mem_cons.mpr out)
    rw [List.foldl_cons, ih out, staleAdvance_other other]

/-- R98: the reel of a stand advances once, at the stand's turn. -/
theorem foldl_staleAdvance_running {ks : List Stand} (nodup : ks.Nodup) (mem : k ∈ ks) (run : s.runningPos k = some p)
    (reel : (s.slot k p).reel = .running r false n) : (ks.foldl State.staleAdvance s).slot k p
      = { s.slot k p with reel := .running r false (min 120100 (n + 100)) } := by
  obtain ⟨front, back, rfl⟩ := List.append_of_mem mem
  obtain ⟨fresh, -⟩ := List.nodup_cons.mp (List.perm_middle.nodup_iff.mp nodup)
  obtain ⟨outFront, outBack⟩ := not_or.mp (mt List.mem_append.mpr fresh)
  have before := foldl_staleAdvance_other outFront s
  rw [List.foldl_append, List.foldl_cons, foldl_staleAdvance_other outBack,
    staleAdvance_running ((runningPos_of_slots before).trans run) (by rw [before]; exact reel), before]

theorem staleAdvanceAll_running (moving : s.stopped = false) (run : s.runningPos k = some p)
    (reel : (s.slot k p).reel = .running r false n) : s.staleAdvanceAll.slot k p
      = { s.slot k p with reel := .running r false (min 120100 (n + 100)) } := by
  rw [State.staleAdvanceAll, moving]
  exact foldl_staleAdvance_running nodup_standAll (mem_standAll k) run reel

/-! ### The events of a window close at a reel that is not stale (R98, R109, R110) -/

/-- R98: the slot holds no reel whose timer has passed the limit unnoticed. -/
def State.FreshAt (s : State) (k : Stand) (p : Pos) : Prop :=
  ∀ r n, (s.slot k p).reel = .running r false n → n ≤ staleLimit s.config

/-- A slot that is fresh stays as it is, and so does the configuration. -/
def FreshKept (k : Stand) (p : Pos) (s t : State) : Prop :=
  s.FreshAt k p → t.config = s.config ∧ t.slot k p = s.slot k p

theorem FreshKept.ofFrame (h : SpliceFrame s t) : FreshKept k p s t := fun _ => ⟨h.config, slot_of_reels h.reels k p⟩

theorem FreshKept.trans {u : State} (h : FreshKept k p s t) (g : FreshKept k p t u) : FreshKept k p s u := by
  intro fresh
  obtain ⟨config, slot⟩ := h fresh
  obtain ⟨config', slot'⟩ := g (by rw [State.FreshAt, config, slot]; exact fresh)
  exact ⟨config'.trans config, slot'.trans slot⟩

theorem staleTest_freshKept (s : State) (j : Stand) : FreshKept k p s (s.staleTest j) := by
  refine fun fresh => ⟨(Evolves.refl s).staleTest.config, ?_⟩
  unfold State.staleTest
  split
  · rfl
  · next q _ =>
    split
    · next r n e =>
      split
      · next late =>
        refine (State.slot_setSlot s j k q p _).trans (if_neg ?_)
        rintro ⟨rfl, rfl⟩
        exact absurd late (not_lt.mpr (fresh r n e))
      · rfl
    · rfl

theorem closeEvent_freshKept (e : CloseEvent) (s : State) : FreshKept k p s (s.closeEvent e) := by
  cases e with
  | go j => exact .ofFrame (WaitersOnly.goTest j s).frame
  | cap =>
    show FreshKept k p s s.capAtClose
    unfold State.capAtClose
    split
    · exact .ofFrame (SpliceFrame.refl s).capRequest
    · exact .ofFrame (SpliceFrame.refl s)
  | stale j => exact staleTest_freshKept s j

theorem closeEvents_freshKept (es : List CloseEvent) (s : State) : FreshKept k p s (takeEvents State.closeEvent es s) :=
  takeEvents_rel (fun s => .ofFrame (.refl s)) (fun _ _ _ => .trans) (fun s => .ofFrame (SpliceFrame.refl s).drawn)
    (fun e _ s => closeEvent_freshKept e s) s

/-- R164: the slew steps of the preheaters touch no reel. -/
theorem slewAll_reels (s : State) : s.slewAll.reels = s.reels := by
  refine takeEvents_kept State.reels (fun _ => rfl) (fun k s => ?_) _ s
  unfold State.slewStep
  dsimp only
  repeat' split
  · rfl
  · rfl
  · rw [State.queueSetpoint, enqueue_frame]
    rfl

/-- R98: at a close on a running line the timer of a RUNNING slot advances, where it stays within the limit. -/
theorem windowClose_running (run : s.runningPos k = some p) (reel : (s.slot k p).reel = .running r false n)
    (moved : 0 < s.delta) (early : n + 100 ≤ staleLimit s.config) (limit : staleLimit s.config ≤ 120000) :
    s.windowClose.slot k p = { s.slot k p with reel := .running r false (n + 100) } := by
  have moving : s.closeWindow.stopped = false := if_neg moved.ne'
  have advanced := staleAdvanceAll_running (s := s.closeWindow) moving run reel
  rw [min_eq_right (by omega)] at advanced
  have config : s.closeWindow.staleAdvanceAll.config = s.config := (Evolves.refl s.closeWindow).staleAdvanceAll.config
  have fresh : s.closeWindow.staleAdvanceAll.FreshAt k p := by
    intro x m running
    rw [advanced] at running
    cases running
    rw [config]
    exact early
  obtain ⟨-, slot⟩ := closeEvents_freshKept (closeEvents s.closeWindow.staleAdvanceAll) _ fresh
  exact ((slot_of_reels (slewAll_reels _) k p).trans slot).trans advanced

/-- Settles O36. -/
theorem runOutAndStaleReels : Obligations.RunOutAndStaleReels := by
  intro s k p r st n run reel
  refine ⟨fun paper => congrArg _ (runOutIfEmpty_paper run reel paper), fun dry => ⟨s.runOutIfEmpty k, rfl,
    runOutIfEmpty_slot run reel dry, ?_⟩, ?_, fun early => congrArg _ (staleTest_early run reel early), ?_⟩
  · rw [runOutIfEmpty_dry run reel dry]
    obtain ⟨fault, timer⟩ := enterFault_seq ((s.setSlot k p ⟨.exhausted r, true⟩).raise .runOut (.stand k)) k
    have after := (Evolves.refl ((s.setSlot k p ⟨.exhausted r, true⟩).raise .runOut (.stand k))).enterFault (k := k)
    exact ⟨fault, timer, after.status _ (raise_isIn _ _ _), fun unmasked fatal => after.hold (raise_hold unmasked fatal _),
      fun none => (SpliceFrame.refl _).raise.trans (enterFault_frame none)⟩
  · rintro rfl late
    exact congrArg _ (staleTest_late run reel late)
  · rintro rfl moved early limit
    exact ⟨s.windowClose, rfl, windowClose_running run reel moved early limit⟩

end Sys2Proof.Machine
end

section
/-! PROOF. RELEASE HOLD with nothing to launch (O12), and the requests REQUEST SPLICE (O37) and CLEAR STAND (O38). -/

namespace Sys2Proof.Machine

open Sys2Proof

variable {s t u : State} {k j : Stand}

/-! ### The go of a waiting stand at a change of line state (R109) -/

theorem goAllowed_iff (s : State) :
    s.goAllowed = true ↔ s.speed ≤ spliceSpeedLimit s.config ∧ s.errors.hold = false := by
  simp [State.goAllowed]

theorem SpliceFrame.speed (h : SpliceFrame s t) : t.speed = s.speed := by rw [h]

theorem SpliceFrame.readyPos (h : SpliceFrame s t) : t.readyPos k = s.readyPos k := by
  rw [State.readyPos, runningPos_of_slots (slot_of_reels h.reels k), State.readyPos]

/-- What the go tests of the other stands leave of stand k: its sequencer and all that the go is tested by, but for a HOLD
that a full SPLICE queue can bring about. -/
structure GoKept (k : Stand) (s t : State) : Prop where
  frame : SpliceFrame s t
  seq : t.seq k = s.seq k
  hold : s.errors.hold = true → t.errors.hold = true

namespace GoKept

theorem refl (k : Stand) (s : State) : GoKept k s s := ⟨rfl, rfl, id⟩

theorem trans (h : GoKept k s t) (g : GoKept k t u) : GoKept k s u :=
  ⟨h.frame.trans g.frame, g.seq.trans h.seq, g.hold ∘ h.hold⟩

theorem goTest (other : j ≠ k) (s : State) : GoKept k s (s.goTest j) where
  frame := (SpliceFrame.refl s).goTest
  seq := by
    unfold State.goTest
    repeat' split
    · rw [State.enterSplicing, enqueue_seq]
      exact State.seq_setSeq_other s _ (Ne.symm other)
    all_goals rfl
  hold := (Evolves.refl s).goTest.hold

end GoKept

theorem goTest_goes {p : Pos} (waits : (s.seq k).state = .waitGo) (go : s.goAllowed = true)
    (ready : s.readyPos k = some p) : s.goTest k = s.enterSplicing k p := by
  simp only [State.goTest, waits, go, ready, if_true]

/-- R109: with room in the SPLICE queue for every stand, no go test ends another's go, whatever their order. -/
theorem goTestAll_goes (room : s.link.splice.length ≤ 3) (go : s.goAllowed = true) (waits : (s.seq k).state = .waitGo)
    (ready : (s.readyPos k).isSome) : (s.goTestAll.seq k).state = .splicing := by
  obtain ⟨slow, run⟩ := (goAllowed_iff s).mp go
  obtain ⟨p, ready⟩ := Option.isSome_iff_exists.mp ready
  have mem : k ∈ Stand.all.filter fun j => (s.seq j).state = .waitGo :=
    List.mem_filter.mpr ⟨mem_standAll k, decide_eq_true waits⟩
  obtain ⟨v, before, after⟩ := takeEvents_around (R := GoKept k) (.refl k) (fun _ _ _ => .trans) (fun _ => ⟨rfl, rfl, id⟩)
    (nodup_standAll.filter _) mem (fun _ _ other => .goTest other) s
  have stillRun : v.errors.hold = false := by
    refine Bool.eq_false_iff.mpr fun held => ?_
    have last : s.goTestAll.errors.hold = true := after.hold ((Evolves.refl v).goTest.hold held)
    rw [goTestAll_errors room, run] at last
    cases last
  have goes : v.goTest k = v.enterSplicing k p := by
    refine goTest_goes (by rw [before.seq]; exact waits) ((goAllowed_iff v).mpr ⟨?_, stillRun⟩)
      (before.frame.readyPos.trans ready)
    rw [before.frame.speed, before.frame.config]
    exact slow
  rw [State.goTestAll, after.seq, goes, enterSplicing_seq]

/-! ### RELEASE HOLD (R204) -/

theorem exec_releaseHold (s : State) (a : Answer) (answer : answerReleaseHold [] s = a) :
    exec (.releaseHold []) s = .next (answered 0x0B s a) := answer ▸ rfl

/-- R61: with the run sequence and the suspension stack empty there is no candidate. -/
theorem attemptLaunch_empty (sequence : s.runSeq = []) (suspended : s.suspended = []) : s.attemptLaunch = (none, s) := by
  have candidate : s.candidate = (none, s) := by
    rw [State.candidate, suspended, List.length_nil, State.chooseFrom, sequence, List.head?_nil]
  simp only [State.attemptLaunch, candidate]
  repeat' split
  all_goals rfl

/-- Settles O12. The launch attempt finds no candidate, so that the state is the one in which the go tests leave the line. -/
theorem releaseHoldReturnsToRun : Obligations.ReleaseHoldReturnsToRun := by
  refine fun s => ⟨fun fatal => ?_, fun fatal sequence suspended room => ?_⟩
  · exact exec_releaseHold s (.error .state) (by simp [answerReleaseHold, fatal])
  have waiters := leaveHold_waiters s
  have errors := leaveHold_errors room
  have frame : SpliceFrame s s.leaveHold :=
    SpliceFrame.trans (t := { s with errors := { s.errors with hold := false } }) rfl waiters.frame
  have attempt : s.leaveHold.attemptLaunch = (none, s.leaveHold) :=
    attemptLaunch_empty (frame.runSeq.trans sequence) (frame.suspended.trans suspended)
  refine ⟨s.leaveHold, exec_releaseHold s (done s.leaveHold [0#8, 0#8, 0#8, 0#8]) ?_, frame, errors,
    fun k held slow waits ready => ?_⟩
  · simp only [answerReleaseHold, List.length_nil, bne_self_eq_false, refuseIf_false, fatal, attempt, errors]
    rfl
  · rw [State.leaveHold, if_pos held]
    exact goTestAll_goes room ((goAllowed_iff _).mpr ⟨slow, rfl⟩) waits ready

/-! ### The reel check of an armed stand (R108) -/

/-- R108: where the reel check of an ARMED stand leads; the splice in hand stays. -/
theorem checkReel_armed_state {sp : Splice} (armed : (s.seq k).state = .armed) (hand : (s.seq k).splice = some sp) :
    ((s.checkReel k).seq k).splice = some sp
      ∧ ((s.checkReel k).seq k).state = if (s.checkPasses k sp.kind).isSome then
          (if s.goAllowed then .splicing else .waitGo) else .waitReel := by
  simp only [State.checkReel, armed, hand]
  cases s.checkPasses k sp.kind with
  | none => simp
  | some p => cases go : s.goAllowed <;> simp [enterSplicing_seq, enterWaitGo_seq, hand]

/-- R108: of the sequencer the test of the ready reel reads the pending plan alone. -/
theorem checkPasses_setSeq {q : Sequencer} {x : SpliceKind} (plan : q.plan = (s.seq k).plan) :
    (s.setSeq k q).checkPasses k x = s.checkPasses k x := by
  simp only [State.checkPasses, State.acceptable, State.seq_setSeq_same, plan]
  rfl

/-- R105, R106: a splice due now at a stand in IDLE or ARMED arms the stand, and the reel check is made. -/
theorem armNow_free {x : SpliceKind} (free : (s.seq k).state = .idle ∨ (s.seq k).state = .armed) : s.armNow k x
    = (s.setSeq k { s.seq k with state := .armed, splice := some ⟨x, s.odometer⟩ }).checkReel k := by
  rcases free with idle | armed
  · simp only [State.armNow, idle]
  · simp only [State.armNow, armed]

/-- R106, R108: the state in which a splice due now leaves a stand in IDLE or ARMED. -/
theorem armNow_free_state {x : SpliceKind} (free : (s.seq k).state = .idle ∨ (s.seq k).state = .armed) :
    ((s.armNow k x).seq k).splice = some ⟨x, s.odometer⟩
      ∧ ((s.armNow k x).seq k).state = if (s.checkPasses k x).isSome then
          (if s.goAllowed then .splicing else .waitGo) else .waitReel := by
  have armed := State.seq_setSeq_same s k { s.seq k with state := .armed, splice := some ⟨x, s.odometer⟩ }
  have checked := checkReel_armed_state (by rw [armed]) (by rw [armed])
  rw [← armNow_free free, checkPasses_setSeq (s := s) (by rfl)] at checked
  exact checked

/-! ### REQUEST SPLICE (R106) -/

theorem exec_requestSplice (b : List Byte) (s : State) (a : Answer) (answer : answerRequestSplice b s = a) :
    exec (.requestSplice b) s = .next (answered 0x38 s a) := answer ▸ rfl

/-- Settles O37: the splice in hand is armed anew, and the check of an ARMED stand gives its state. -/
theorem requestSpliceArmsAndChecks : Obligations.RequestSpliceArmsAndChecks := by
  refine fun b s k len stand => ⟨fun refused => ?_, fun role free => ?_⟩
  · refine exec_requestSplice b s (.error .state) ?_
    simp only [answerRequestSplice, len, bne_self_eq_false, refuseIf_false, stand]
    rcases refused with none | ⟨idle, armed⟩
    · rw [none]; rfl
    · rw [bne_iff_ne.mpr idle, bne_iff_ne.mpr armed]
      cases (s.runningPos k).isNone <;> rfl
  · have answer : answerRequestSplice b s = done (s.armNow k .manual) ((s.armNow k .manual).sequencerByte k) := by
      have hasRole : (s.runningPos k).isNone = false := by rw [← Option.not_isSome, role]; rfl
      have taken : ((s.seq k).state != .idle && (s.seq k).state != .armed) = false := by
        rcases free with e | e <;> rw [e] <;> rfl
      simp only [answerRequestSplice, len, bne_self_eq_false, refuseIf_false, stand, hasRole, taken]
    have at_ : SpliceAt k s (s.armNow k .manual) := (SpliceAt.refl k s).armNow
    obtain ⟨splice, state⟩ := armNow_free_state (x := .manual) free
    simp only [goAllowed_iff] at state
    exact ⟨s.armNow k .manual, exec_requestSplice b s _ answer, at_.frame, splice, (HeldKept.refl s).armNow.plan k, state,
      at_.others⟩

/-! ### The next state of a stand (R115) -/

theorem SpliceFrame.low (h : SpliceFrame s t) : t.low k = s.low k := by
  rw [h]
  rfl

theorem SpliceAt.dueCheck (h : SpliceAt k s t) : SpliceAt k s (t.dueCheck k) := by
  unfold State.dueCheck
  repeat' split
  · exact h.checkReel
  all_goals exact h

theorem SpliceAt.nextState (h : SpliceAt k s t) : SpliceAt k s (t.nextState k) := by
  unfold State.nextState
  dsimp only
  split
  · exact (State.released_at h.setSeq _).lowReelIfLow
  · split
    · exact (State.released_at h.setSeq _).lowReel
    · exact (State.released_at h.setSeq _).dueCheck

/-- R115: without a plan and with a reel that is not low the stand is IDLE. -/
theorem nextState_idle (plan : (s.seq k).plan = none) (high : s.low k = false) :
    ((s.nextState k).seq k).state = .idle ∧ ((s.nextState k).seq k).splice = none
      ∧ ((s.nextState k).seq k).timer = none := by
  have frame (q : Sequencer) : SpliceFrame s ((s.setSeq k q).released (s.seq k).state) :=
    (SpliceFrame.refl s).setSeq.released
  simp only [State.nextState, plan, State.settleIdle, State.lowReelIfLow, (frame _).low, high, Bool.false_eq_true, if_false,
    released_seq, State.seq_setSeq_same, and_self]

theorem lowReelIfLow_idle (idle : (s.seq k).state = .idle) (low : s.low k = true) :
    s.lowReelIfLow k = s.armNow k .lowReel := by
  simp only [State.lowReelIfLow, State.lowReel, idle, low, if_true]

/-- R115: without a plan a low reel arms LOW_REEL, and the stand waits or splices. -/
theorem nextState_low (plan : (s.seq k).plan = none) (low : s.low k = true) :
    ((s.nextState k).seq k).splice = some ⟨.lowReel, s.odometer⟩ ∧ ((s.nextState k).seq k).state ≠ .fault := by
  let v := (s.setSeq k { s.seq k with
    state := .idle, splice := none, required := none, timer := none, goTag := none }).released (s.seq k).state
  have frame : SpliceFrame s v := (SpliceFrame.refl s).setSeq.released
  have idle : (v.seq k).state = .idle := by simp only [v, released_seq, State.seq_setSeq_same]
  have next : s.nextState k = v.armNow k .lowReel := by
    rw [← lowReelIfLow_idle idle (frame.low.trans low)]
    simp only [State.nextState, plan, State.settleIdle, v]
  obtain ⟨splice, -, state⟩ := armNow_idle (x := .lowReel) idle
  rw [next]
  refine ⟨frame.odometer ▸ splice, ?_⟩
  rcases state with e | e | e <;> rw [e] <;> nofun

/-- R115: a plan whose point lies ahead arms its GRADE splice where the reel is not low. -/
theorem nextState_armed {pl : Plan} (plan : (s.seq k).plan = some pl) (high : s.low k = false)
    (early : reached s.odometer pl.due = false) :
    ((s.nextState k).seq k).state = .armed ∧ ((s.nextState k).seq k).splice = some ⟨.grade, pl.due⟩ := by
  have frame (q : Sequencer) : SpliceFrame s ((s.setSeq k q).released (s.seq k).state) :=
    (SpliceFrame.refl s).setSeq.released
  simp only [State.nextState, plan, State.dueCheck, (frame _).low, (frame _).odometer, high, early, Bool.false_eq_true,
    if_false, released_seq, State.seq_setSeq_same, and_self]

/-! ### CLEAR STAND (R119) -/

theorem exec_clearStand (b : List Byte) (s : State) (a : Answer) (answer : answerClearStand b s = a) :
    exec (.clearStand b) s = .next (answered 0x39 s a) := answer ▸ rfl

theorem reelStateCode_exhausted (x : Reel) : reelStateCode x = 7 ↔ ∃ r, x = .exhausted r := by
  cases x <;> simp [reelStateCode]

/-- R119: the test of the running reel. -/
theorem runningExhausted_iff : ((s.runningPos k).any fun p => reelStateCode (s.slot k p).reel == 7) = true
    ↔ ∃ p r, s.runningPos k = some p ∧ (s.slot k p).reel = .exhausted r := by
  simp [Option.any_eq_true, reelStateCode_exhausted]

/-- Settles O38: a stand taken out of FAULT without a splice in hand takes its next state. -/
theorem clearStandTakesTheNextState : Obligations.ClearStandTakesTheNextState := by
  refine fun b s k len stand => ⟨fun refused => ?_, fun fault paper => ?_⟩
  · refine exec_clearStand b s (.error .state) ?_
    simp only [answerClearStand, len, bne_self_eq_false, refuseIf_false, stand]
    rcases refused with other | dry
    · rw [bne_iff_ne.mpr other]; rfl
    · rw [runningExhausted_iff.mpr dry]
      cases (s.seq k).state != .fault <;> rfl
  · let v := s.setSeq k { s.seq k with state := .idle, splice := none, timer := none }
    have held : ¬ ((s.runningPos k).any fun p => reelStateCode (s.slot k p).reel == 7) = true := fun dry => by
      obtain ⟨p, r, run, reel⟩ := runningExhausted_iff.mp dry
      exact paper p r run reel
    have answer : answerClearStand b s = done (v.nextState k) ((v.nextState k).sequencerByte k) := by
      simp only [answerClearStand, len, bne_self_eq_false, refuseIf_false, stand, fault, Bool.eq_false_iff.mpr held, v]
    have at_ : SpliceAt k s (v.nextState k) := (SpliceAt.refl k s).setSeq.nextState
    have plan : (v.seq k).plan = (s.seq k).plan := by simp only [v, State.seq_setSeq_same]
    exact ⟨v.nextState k, exec_clearStand b s _ answer, at_.frame, at_.others,
      fun none high => nextState_idle (plan.trans none) high, fun none low => nextState_low (plan.trans none) low,
      fun pl is high early => nextState_armed (plan.trans is) high early⟩

end Sys2Proof.Machine
end

section
/-! PROOF. The expired splice and set timers (O40), and the hand-offs at the end of a send (O53). -/

namespace Sys2Proof.Machine

open Sys2Proof

variable {s : State} {k : Stand} {st : Station}

/-! ### The splice timer (R111) -/

theorem spliceExpired_of {tm : Timer} (splicing : (s.seq k).state = .splicing) (timer : (s.seq k).timer = some tm)
    (late : tm.limit < tm.ms) : s.spliceExpired k = true := by
  simp only [State.spliceExpired, splicing, timer, late, decide_true, beq_self_eq_true, Bool.and_self]

theorem exec_spliceTimeout_running (running : s.spliceExpired k = false) : exec (.spliceTimeout k) s = .next s :=
  congrArg Host.Outcome.next (if_neg (Bool.eq_false_iff.mp running))

theorem exec_spliceTimeout_expired (expired : s.spliceExpired k = true) :
    exec (.spliceTimeout k) s = .next ((s.raise .spliceTimeout (.stand k)).enterFault k) :=
  congrArg Host.Outcome.next (if_pos expired)

/-- R111, R117: without a deferred plan a stand that enters FAULT is the only one touched. -/
theorem enterFault_at (none : (s.seq k).deferred = none) : SpliceAt k s (s.enterFault k) := by
  rw [State.enterFault, handDeferred_none (by rw [State.seq_setSeq_same]; exact none)]
  exact State.released_at (SpliceAt.refl k s).setSeq _

/-! ### What standby assignment leaves of a station that is not IDLE (R128) -/

theorem idleStation_idle (given : s.idleStation = some st) : (s.station st).state = .idle := by
  unfold State.idleStation at given
  split at given
  · next idle => cases given; exact idle
  · split at given
    · next idle => cases given; exact idle
    · cases given

/-- R128: the entry that is to be set is given to the IDLE station. -/
theorem walkList_given {e : Nat × Nat × Pattern × Station} :
    ∀ {l : List Decision}, (s.walkList l).2 = some e → s.idleStation = some e.2.2.2
  | d :: l, given => by
    unfold State.walkList at given
    dsimp only at given
    split at given
    · exact walkList_given given
    · cases given
    · split at given
      · cases given
      · split at given
        · exact walkList_given given
        · split at given
          · next idle => cases given; exact idle
          · cases given

/-- R128: an entry served by a station after the walk was so before, or the station was IDLE. -/
theorem walkList_servedBy {d : Decision} (served : d.status = .servedBy st) :
    ∀ {l : List Decision}, d ∈ (s.walkList l).1 → d ∈ l ∨ s.idleStation = some st
  | c :: l, mem => by
    have later (here : d ∈ (s.walkList l).1) : d ∈ c :: l ∨ s.idleStation = some st :=
      (walkList_servedBy served here).imp_left (List.mem_cons_of_mem c)
    unfold State.walkList at mem
    dsimp only at mem
    split at mem
    · exact (List.mem_cons.mp mem).elim (fun e => .inl (e ▸ List.mem_cons_self)) later
    · exact .inl mem
    · split at mem
      · exact .inl mem
      · split at mem
        · refine (List.mem_cons.mp mem).elim (fun e => ?_) later
          subst e; cases served
        · split at mem
          · next idle =>
            refine (List.mem_cons.mp mem).elim (fun e => .inr ?_) fun there => .inl (List.mem_cons_of_mem c there)
            subst e; cases served; exact idle
          · exact .inl mem

theorem assignSet_station_other {given : Station} (other : st ≠ given) (mark n : Nat) (pat : Pattern) :
    (s.assignSet mark n pat given).station st = s.station st := by
  rw [State.assignSet, State.queueSet, enqueue_frame]
  exact (State.station_setStation_other _ _ other).trans (State.station_setStation_other _ _ other)

/-- R128: a station that is not IDLE stays as it is. -/
theorem walk_station (busy : (s.station st).state ≠ .idle) : s.walk.station st = s.station st := by
  unfold State.walk
  dsimp only
  split
  · next entry =>
    have idle := idleStation_idle (walkList_given entry)
    exact assignSet_station_other (by rintro rfl; exact busy idle) _ _ _
  · rfl

/-! ### The set timer (R131) -/

theorem setExpired_of {tm : Timer} (setting : (s.station st).state = .setting) (timer : (s.station st).timer = some tm)
    (late : tm.limit < tm.ms) : s.setExpired st = true := by
  simp only [State.setExpired, setting, timer, late, decide_true, beq_self_eq_true, Bool.and_self]

theorem exec_setTimeout_running (running : s.setExpired st = false) : exec (.setTimeout st) s = .next s :=
  congrArg Host.Outcome.next (if_neg (Bool.eq_false_iff.mp running))

theorem exec_setTimeout_expired (expired : s.setExpired st = true) :
    exec (.setTimeout st) s = .next ((s.faultStation st).raise .setTimeout (.station st)) :=
  congrArg Host.Outcome.next (if_pos expired)

/-- R131: a station that enters FAULT loses its entry and the walk is made. -/
theorem faultStation_eq (s : State) (st : Station) : s.faultStation st = (stationFaulted s st).walk := rfl

theorem stationFaulted_station (s : State) (st : Station) : (stationFaulted s st).station st
    = { s.station st with state := .fault, order := none, served := none, timer := none, setTag := none } :=
  State.station_setStation_same s st _

theorem stationFaulted_decisions (s : State) (st : Station) : (stationFaulted s st).decisions
    = s.decisions.map fun d => if d.status = .servedBy st then ⟨d.mark, .unassigned⟩ else d := rfl

theorem faultStation_station (s : State) (st : Station) : (s.faultStation st).station st
    = { s.station st with state := .fault, order := none, served := none, timer := none, setTag := none } := by
  rw [faultStation_eq, walk_station (by rw [stationFaulted_station]; nofun), stationFaulted_station]

/-- R131: no entry is served by a station in FAULT, before the walk and behind it. -/
theorem faultStation_servedBy {d : Decision} (mem : d ∈ (s.faultStation st).decisions) : d.status ≠ .servedBy st := by
  intro served
  rw [faultStation_eq, walk_frame] at mem
  rcases walkList_servedBy served mem with before | idle
  · rw [stationFaulted_decisions] at before
    obtain ⟨c, -, rfl⟩ := List.mem_map.mp before
    split at served
    · cases served
    · next other => exact other served
  · have state := idleStation_idle idle
    rw [stationFaulted_station] at state
    cases state

theorem faultStation_marks (s : State) (st : Station) :
    (s.faultStation st).decisions.map (·.mark) = s.decisions.map (·.mark) := by
  rw [faultStation_eq, walk_frame]
  refine (walkList_marks _ _).trans ?_
  rw [stationFaulted_decisions, List.map_map]
  refine List.map_congr_left fun d _ => ?_
  by_cases served : d.status = .servedBy st <;> simp [served]

theorem faultStation_frame (s : State) (st : Station) : s.faultStation st = { s with
    stations := (s.faultStation st).stations, decisions := (s.faultStation st).decisions
    link := (s.faultStation st).link, errors := (s.faultStation st).errors, serial := (s.faultStation st).serial } := by
  rw [faultStation_eq, walk_frame]
  rfl

/-- Settles O40: a stand that enters FAULT without a deferred plan is alone touched, and the walk behind a station's fault
leaves that station, which is not IDLE, as it is. -/
theorem timersPutTheirUnitInFault : Obligations.TimersPutTheirUnitInFault := by
  refine fun s => ⟨fun k => exec_spliceTimeout_running, fun k tm splicing timer late => ?_,
    fun st => exec_setTimeout_running, fun st tm setting timer late => ?_⟩
  · obtain ⟨fault, stopped⟩ := enterFault_seq (s.raise .spliceTimeout (.stand k)) k
    have after := (Evolves.refl (s.raise .spliceTimeout (.stand k))).enterFault (k := k)
    refine ⟨_, exec_spliceTimeout_expired (spliceExpired_of splicing timer late), fault, stopped,
      after.status _ (raise_isIn _ _ _), fun none => ?_⟩
    have at_ := enterFault_at (s := s.raise .spliceTimeout (.stand k)) none
    exact ⟨(SpliceFrame.refl s).raise.trans at_.frame, at_.others⟩
  · have station := faultStation_station s st
    refine ⟨_, exec_setTimeout_expired (setExpired_of setting timer late), congrArg (·.state) station,
      congrArg (·.order) station, congrArg (·.served) station, congrArg (·.timer) station, congrArg (·.pattern) station,
      raise_isIn _ _ _, fun d => faultStation_servedBy, faultStation_marks s st, ?_, s.faultStation st, walk_walked _, rfl⟩
    rw [State.raise, faultStation_frame]

/-! ### The hand-offs at the end of a send (R179, R182) -/

/-- R150: no stretch joins the lag list where the point has not passed the slitter, or four stand in the list. -/
theorem lateExchange_early {x : Coord} (early : atOrAfter x (slitterCoord s) = true ∨ 4 ≤ s.knife.lag.length) :
    s.lateExchange (some x) = s := by
  refine if_neg fun late => ?_
  obtain ⟨past, room⟩ := Bool.and_eq_true_iff.mp late
  have room : s.knife.lag.length < 4 := of_decide_eq_true room
  have past : atOrAfter x (slitterCoord s) = false := by simpa [before] using past
  rcases early with ahead | full
  · rw [past] at ahead; cases ahead
  · omega

theorem lateExchange_late {x : Coord} (past : atOrAfter x (slitterCoord s) = false) (room : s.knife.lag.length < 4) :
    s.lateExchange (some x)
      = s.setKnife fun k => { k with lag := insertLag s.odometer ⟨x, slitterCoord s⟩ k.lag } := by
  refine if_pos ?_
  simp only [before, past, Config.lagDepth, room, Bool.not_false, decide_true, Bool.and_self]

/-- R133, R140: exchange sent of the station that the command engages, before the late-exchange test. -/
def exchangeTold (s : State) (e : Station) (tag : Nat) : State :=
  if (s.station e).state = .engaged ∧ (s.station e).exchangeTag = some tag then
    s.setStation e { s.station e with exchangeSent := some true } else s

theorem exchangeSent_eq (s : State) (e : Station) (x : Option Coord) (tag : Nat) :
    s.exchangeSent e x tag = (exchangeTold s e tag).lateExchange x := rfl

theorem exchangeTold_frame (s : State) (e : Station) (tag : Nat) :
    exchangeTold s e tag = { s with stations := (exchangeTold s e tag).stations } := by
  unfold exchangeTold
  split <;> rfl

/-- R150: what the late-exchange test adds to the knife counter's record. -/
theorem exchangeTold_late {e : Station} {y : Coord} {tag : Nat} (past : atOrAfter y (slitterCoord s) = false)
    (room : s.knife.lag.length < 4) : (exchangeTold s e tag).lateExchange (some y) = { exchangeTold s e tag with
      knife := { s.knife with lag := insertLag s.odometer ⟨y, slitterCoord s⟩ s.knife.lag } } := by
  have told := exchangeTold_frame s e tag
  rw [lateExchange_late (by rw [told]; exact past) (by rw [told]; exact room), State.setKnife, told]
  rfl

/-- R179: the hand-off of a command that has been sent. -/
def handedOff (s : State) : Command → State
  | .spliceGo k _ tag => s.goSent k tag
  | .slitterSet st _ tag => s.setSent st tag
  | .slitterExchange e _ x tag => s.exchangeSent e x tag
  | .bondSetpoint u v => s.setpointSent u v
  | .speedCap _ | .knifeSchedule _ _ _ | .stackChange _ _ _ _ => s

/-- R182: the row of the command in the place makes its hand-off and frees the place. -/
theorem exec_sentRow {x : Command} (place : s.link.place = some x) :
    exec (sentRow x) s = .next (handedOff s x).freePlace := by
  cases x
  all_goals
    refine congrArg Host.Outcome.next ?_
    rw [place]
    rfl

/-- R182: a row whose command is not in the place changes nothing (log entry 10). -/
theorem exec_unsentRow {c : Instr}
    (row : c ∈ [Instr.spliceGo, .speedCap, .knifeSchedule, .slitterSet, .slitterExchange, .stackChange, .bondSetpoint])
    (other : ∀ x, s.link.place = some x → sentRow x ≠ c) : exec c s = .next s := by
  simp only [List.mem_cons, List.not_mem_nil, or_false] at row
  rcases row with rfl | rfl | rfl | rfl | rfl | rfl | rfl
  all_goals
    refine congrArg Host.Outcome.next ?_
    split
    · next place => exact absurd rfl (other _ place)
    · rfl

/-- Settles O53: the row of the command in the place makes its hand-off; that of SLITTER_EXCHANGE is a told station and the
late-exchange test. -/
theorem sentCommandsMakeTheirHandOffs : Obligations.SentCommandsMakeTheirHandOffs := by
  refine fun s => ⟨fun _ _ _ => exec_sentRow, fun _ => exec_sentRow, fun _ _ _ => exec_sentRow, fun _ _ _ => exec_sentRow,
    fun e l x tag place => ?_, fun _ _ _ _ => exec_sentRow, fun _ _ => exec_sentRow, fun _ _ => exec_sentRow,
    fun _ => exec_unsentRow⟩
  have told := exchangeTold_frame s e tag
  have sent : exec .slitterExchange s = .next ((exchangeTold s e tag).lateExchange x).freePlace := by
    rw [← exchangeSent_eq]
    exact exec_sentRow place
  refine ⟨?_, ?_, ?_⟩
  · rintro rfl
    exact sent
  · rintro y rfl early
    rw [lateExchange_early (by rw [told]; exact early)] at sent
    exact sent
  · rintro y rfl past room
    rw [exchangeTold_late past room] at sent
    exact sent

end Sys2Proof.Machine
end

section
/-! PROOF. The position report of a slitter station (O41), and CLEAR STATION (O42). -/

namespace Sys2Proof.Machine

open Sys2Proof

variable {s : State} {st : Station} {measured : List Nat}

/-! ### The position report (R130, R131) -/

theorem closeTo_iff (tol m c : Nat) : closeTo tol m c = true ↔ m ≤ c + tol ∧ c ≤ m + tol := by
  simp only [closeTo, Bool.and_eq_true, decide_eq_true_iff]

theorem reportPasses_iff (tol : Nat) (measured commanded : List Nat) : reportPasses tol measured commanded = true
    ↔ measured.length = commanded.length ∧ ∀ q ∈ measured.zip commanded, q.1 ≤ q.2 + tol ∧ q.2 ≤ q.1 + tol := by
  simp only [reportPasses, Bool.and_eq_true, beq_iff_eq, List.all_eq_true, closeTo_iff]

theorem positionsAccepted_of (short : measured.length ≤ 20) (narrow : ∀ v ∈ measured, v ≤ 65535) :
    positionsAccepted measured = true := by
  simpa only [positionsAccepted, Bool.and_eq_true, decide_eq_true_iff, List.all_eq_true] using And.intro short narrow

theorem exec_setPositions (accepted : positionsAccepted measured = true) :
    exec (.setPositions st measured) s = .next (s.setPositions st measured) :=
  congrArg Host.Outcome.next (if_pos accepted)

theorem awaits_iff (x : SlitterStation) : x.awaits = true ↔ x.state = .setting ∧ ∃ tm, x.timer = some tm := by
  simp only [SlitterStation.awaits, Bool.and_eq_true, beq_iff_eq, Option.isSome_iff_exists]

/-- R130: a station that is not in SETTING, or whose set has not been sent, discards the report. -/
theorem setPositions_discarded (other : (s.station st).awaits = false) :
    s.setPositions st measured = s.raise .reportInvalid (.station st) :=
  if_neg (Bool.eq_false_iff.mp other)

/-- R130, R131: what a report does at a station that awaits it. -/
theorem setPositions_awaited {pat : Pattern} (awaits : (s.station st).awaits = true)
    (pattern : (s.station st).pattern = some pat) : s.setPositions st measured =
      if reportPasses (slitterTolerance s.config) measured pat.positions = true then
        s.setStation st { s.station st with state := .ready, timer := none }
      else if (s.station st).retry = 0 then
        (s.setStation st { s.station st with retry := 1, timer := none }).queueSet st pat
      else s.verifyFail st := by
  have commanded : (s.station st).pattern.getD ⟨[], []⟩ = pat := by rw [pattern]; rfl
  simp only [State.setPositions, awaits, if_true, commanded]

/-- R129, R130: a first failed report queues the set again. -/
theorem setAgain_room (pat : Pattern) (room : s.link.slitter.length < 8) :
    (s.setStation st { s.station st with retry := 1, timer := none }).queueSet st pat
      = { s.setStation st { s.station st with retry := 1, timer := none, setTag := some s.serial } with
          serial := s.serial + 1
          link := { s.link with slitter := s.link.slitter ++ [.slitterSet st pat s.serial] } } := by
  rw [queueSet_room _ _ _ (by rw [State.setStation_link]; exact room)]
  cases st <;> rfl

theorem verifyFail_frame (s : State) (st : Station) : s.verifyFail st = { s with
    stations := (s.verifyFail st).stations, decisions := (s.verifyFail st).decisions
    link := (s.verifyFail st).link, errors := (s.verifyFail st).errors, serial := (s.verifyFail st).serial } := by
  rw [State.verifyFail, State.raise, faultStation_frame]

/-- Settles O41: a report that is awaited passes, sets the station again or faults it. -/
theorem setPositionsVerifiesTheStation : Obligations.SetPositionsVerifiesTheStation := by
  intro s st measured short narrow passes
  rw [exec_setPositions (positionsAccepted_of short narrow)]
  refine ⟨fun other => ?_, fun pat tm setting timer pattern => ?_⟩
  · refine congrArg Host.Outcome.next (setPositions_discarded (Bool.eq_false_iff.mpr fun awaits => ?_))
    obtain ⟨setting, tm, timer⟩ := (awaits_iff _).mp awaits
    rcases other with state | unsent
    · exact state setting
    · rw [unsent] at timer; cases timer
  · have test : passes (pat.slits ++ pat.scores)
        ↔ reportPasses (slitterTolerance s.config) measured pat.positions = true := (reportPasses_iff ..).symm
    rw [setPositions_awaited ((awaits_iff _).mpr ⟨setting, tm, timer⟩) pattern, test]
    refine ⟨fun pass => ?_, fun fail first room => ?_, fun fail second => ?_⟩
    · rw [if_pos pass]
    · rw [if_neg fail, if_pos first, setAgain_room pat room]
    · rw [if_neg fail, if_neg second]
      have station := faultStation_station s st
      exact ⟨s.verifyFail st, rfl, congrArg (·.state) station, congrArg (·.order) station, congrArg (·.served) station,
        congrArg (·.timer) station, raise_isIn _ _ _, verifyFail_frame s st, s.faultStation st, walk_walked _, rfl⟩

/-! ### CLEAR STATION (R132) -/

/-- R132: a station that is not in FAULT refuses CLEAR STATION. -/
theorem answerClearStation_refused {b : List Byte} (len : b.length = 1) (station : stationOf (field b 0 1) = some st)
    (other : (s.station st).state ≠ .fault) : answerClearStation b s = .error .state := by
  simp only [answerClearStation, len, bne_self_eq_false, refuseIf_false, station, bne_iff_ne.mpr other, refuseIf_true]

theorem answerClearStation_done {b : List Byte} (len : b.length = 1) (station : stationOf (field b 0 1) = some st)
    (fault : (s.station st).state = .fault) :
    answerClearStation b s = done (s.clearStation st) ((s.clearStation st).stationByte st) := by
  simp only [answerClearStation, len, bne_self_eq_false, refuseIf_false, station, fault]

theorem exec_clearStation {b : List Byte} {a : Answer} (answer : answerClearStation b s = a) :
    exec (.clearStation b) s = .next (answered 0x40 s a) := answer ▸ rfl

/-- Settles O42: CLEAR STATION is the walk behind a station's return to IDLE, which does what Walked says. -/
theorem clearStationReturnsToStandby : Obligations.ClearStationReturnsToStandby :=
  fun _ s st len station => ⟨fun other => exec_clearStation (answerClearStation_refused len station other),
    fun fault => ⟨s.clearStation st, exec_clearStation (answerClearStation_done len station fault), walk_walked _⟩⟩

end Sys2Proof.Machine
end

section
/-! PROOF. The cut pulse (O44) and the place of the sheet that a matching cut ends (O45). -/

namespace Sys2Proof.Machine

open Sys2Proof

variable {s : State} {g : Grid} {mark n : Nat} {m next : ChangeMark} {o : Outgoing} {j : Judgment} {why : CullReason}
  {c a b : Coord}

/-! ### The test of a cut (R145) -/

/-- R145, R146: a cut that is not overdue is not missed. -/
theorem missOverdue_timely (grid : s.knife.grid = some g) (timely : 2 * sdist g.n c < g.sheet) (fuel : Nat) :
    State.missOverdue fuel c s = s := by
  have early : overdueAt g c = false := decide_eq_false (not_le.mpr timely)
  cases fuel with
  | zero => rfl
  | succ fuel => simp only [State.missOverdue, grid, early, Bool.false_eq_true, if_false]

/-- R145: a pulse before the overdue point of its nominal cut is tested against that cut. -/
theorem exec_timelyCut (high : s.inputs.cut = true) (owned : s.knife.owner ≠ .unassigned) (grid : s.knife.grid = some g)
    (timely : 2 * sdist g.n (knifeCoord s) < g.sheet) : exec .cutPulse s = .next (s.matchCut (knifeCoord s)) := by
  show Host.Outcome.next s.cutPeriod = _
  rw [State.cutPeriod, if_pos high, State.cutPulse, if_neg owned, missOverdue_timely grid timely]

section Match

variable (grid : s.knife.grid = some g)
include grid

theorem matchCut_short (short : 2 * sdist g.n c < -(g.sheet : Int)) :
    s.matchCut c = ({ s with knife := { s.knife with grid := some { g with spoiled := true } } } : State).raise
      .cutUnexpected (s.sheetObject g) := by
  simp only [State.matchCut, grid, shortOf, short, decide_true, if_true]

variable (full : -(g.sheet : Int) ≤ 2 * sdist g.n c)
include full

theorem matchCut_within (low : -(cutTolerance s.config : Int) ≤ sdist g.n c)
    (far : sdist g.n c ≤ cutTolerance s.config) :
    s.matchCut c = s.judge g (if g.spoiled then .deviating else .cut) false := by
  simp only [State.matchCut, grid, shortOf, not_lt.mpr full, within, low, far, decide_true, decide_false, Bool.and_self,
    Bool.false_eq_true, if_false, if_true]

theorem matchCut_outside
    (out : sdist g.n c < -(cutTolerance s.config : Int) ∨ (cutTolerance s.config : Int) < sdist g.n c) :
    s.matchCut c = s.judge g .deviating true := by
  have off : within c g.n (cutTolerance s.config) = false := by
    rw [within, Bool.and_eq_false_iff]
    exact out.imp (decide_eq_false <| not_le.mpr ·) (decide_eq_false <| not_le.mpr ·)
  simp only [State.matchCut, grid, shortOf, not_lt.mpr full, off, decide_false, Bool.false_eq_true, if_false]

end Match

/-! ### The reason of a cull (R148) -/

theorem culledBy_iff {f : Mark → Bool} : s.culledBy f a b = true ↔
    ∃ x ∈ s.marks, f x = true ∧ ∃ z, x.cullZone = some z ∧ overlaps a b z.1 z.2 = true := by
  simp only [State.culledBy, List.any_eq_true, Bool.and_eq_true]
  refine exists_congr fun x => and_congr_right fun _ => and_congr_right fun _ => ?_
  cases x.cullZone <;> simp

/-- R148: a sheet that would be good, had it been cut in time, is culled for deviation. -/
theorem cullReason_deviation (good : s.cullReason a b .cut = none) (off : j ≠ .cut) :
    s.cullReason a b j = some .deviation := by
  unfold State.cullReason at good ⊢
  split_ifs at good ⊢
  rfl

/-! ### A sheet of a segment (R148, R149) -/

/-- R28: a culled cut in the record of its order. -/
def culledRecord (why : CullReason) (r : Order) : Order :=
  { r with cullCuts := min 16777215 (r.cullCuts + 1), byReason := r.byReason.add why }

/-- R149: the sheet of the nominal cut g culled for its order, and the grid a cut further in its segment. -/
def sheetCulled (s : State) (g : Grid) (mark : Nat) (o : Outgoing) (why : CullReason) : State :=
  { s with knife := gridAt s g (.segment mark) o.cutLength, orders := rewriteAt o.order (culledRecord why) s.orders }

theorem stackTest_unfilled
    (room : ∀ r, s.findOrder n = some r → min 2000 (r.stackFill + 1) < r.fields.stackSize) :
    (s.updateOrder n goodRecord).stackTest n = s.updateOrder n goodRecord := by
  have charged : (s.updateOrder n goodRecord).findOrder n = (s.findOrder n).map goodRecord :=
    findOrder_updateOrder fun _ => by rfl
  cases found : s.findOrder n with
  | none => simp only [State.stackTest, charged, found, Option.map_none]
  | some r => exact stackTest_below (by rw [charged, found]; rfl) (room r found)

section Segment

variable (pos : g.pos = .segment mark) (found : s.findChange mark = some m) (outgoing : m.outgoing = some o)
include pos found outgoing

theorem sheetObject_segment : s.sheetObject g = .order o.order := by
  simp only [State.sheetObject, pos, found, Option.bind_some, outgoing]

theorem chargeSheet_culled (reason : s.cullReason (shiftBy g.n (-(g.sheet : Int))) g.n j = some why) :
    s.chargeSheet g j = s.updateOrder o.order (culledRecord why) := by
  simp only [State.chargeSheet, pos, found, Option.bind_some, outgoing, reason]
  rfl

theorem chargeSheet_good (clear : ClearSheet s g) :
    s.chargeSheet g .cut = (s.updateOrder o.order goodRecord).stackTest o.order := by
  simp only [State.chargeSheet, pos, found, Option.bind_some, outgoing, clearSheet_good clear]
  rfl

variable (inside : g.n ≠ m.p)
include inside

/-- R145, R148: within a segment a good sheet that does not fill the stack counts for its order. -/
theorem judge_good (clear : ClearSheet s g)
    (room : ∀ r, s.findOrder o.order = some r → min 2000 (r.stackFill + 1) < r.fields.stackSize) :
    s.judge g .cut false = { s with
      knife := gridAt s g (.segment mark) o.cutLength, orders := rewriteAt o.order goodRecord s.orders } := by
  show (s.chargeSheet g .cut).advanceGrid g = _
  rw [chargeSheet_good pos found outgoing clear, stackTest_unfilled room,
    advanceGrid_within pos (by exact found) outgoing inside]
  rfl

variable (reason : s.cullReason (shiftBy g.n (-(g.sheet : Int))) g.n j = some why)
include reason

theorem judge_culled : s.judge g j false = sheetCulled s g mark o why := by
  show (s.chargeSheet g j).advanceGrid g = _
  rw [chargeSheet_culled pos found outgoing reason, advanceGrid_within pos (by exact found) outgoing inside]
  rfl

/-- R145: a sheet judged with an error raises CUT_DEVIATION for its order. -/
theorem judge_culled_raised :
    s.judge g j true = (sheetCulled s g mark o why).raise .cutDeviation (.order o.order) := by
  show ((s.chargeSheet g j).raise .cutDeviation (s.sheetObject g)).advanceGrid g = _
  rw [chargeSheet_culled pos found outgoing reason, sheetObject_segment pos found outgoing,
    advanceGrid_within pos (by exact found) outgoing inside]
  rfl

end Segment

/-- Settles O44. -/
theorem cutPulseJudgesTheSheet : Obligations.CutPulseJudgesTheSheet := by
  intro s
  refine ⟨fun low => ?_, fun high free => ?_, fun g mark m o high owned grid pos found outgoing timely =>
    ⟨fun short => ?_, fun full inside whole clear => ⟨fun low far room => ?_, fun out => ?_⟩⟩⟩
  · show Host.Outcome.next s.cutPeriod = _
    rw [State.cutPeriod, if_neg (by simp [low])]
  · show Host.Outcome.next s.cutPeriod = _
    rw [State.cutPeriod, if_pos high, State.cutPulse, if_pos free]
  · rw [exec_timelyCut high owned grid timely, matchCut_short grid short, sheetObject_segment pos found outgoing]
  · rw [exec_timelyCut high owned grid timely, matchCut_within grid full low far, whole]
    exact congrArg _ (judge_good pos found outgoing inside clear room)
  · rw [exec_timelyCut high owned grid timely, matchCut_outside grid full out,
      judge_culled_raised pos found outgoing inside (cullReason_deviation (clearSheet_good clear) (by decide))]
    rfl

/-! ### The cut length in force (R143) -/

/-- R143: the incoming cut length of a mark is the outgoing one of the mark after it. -/
theorem inCut_eq (after : s.nextChange mark = some next) (outgoing : next.outgoing = some o) :
    s.inCut mark = o.cutLength := by
  simp only [State.inCut, after, ChangeMark.outCut, outgoing]

theorem cutAt_segment (found : s.findChange mark = some m) (outgoing : m.outgoing = some o) :
    s.cutAt (.segment mark) = o.cutLength := by
  simp only [State.cutAt, found, ChangeMark.outCut, outgoing]

theorem cutAt_openZone (found : s.findChange mark = some m) (openEnd : m.length = none)
    (outgoing : m.outgoing = some o) : s.cutAt (.zone mark) = o.cutLength := by
  simp only [State.cutAt, State.zoneCut, found, openEnd, Option.isNone_none, Bool.true_or, if_true, ChangeMark.outCut,
    outgoing]

theorem cutAt_closedZone (found : s.findChange mark = some m) (closed : m.length ≠ none) (passed : s.knife.split = []) :
    s.cutAt (.zone mark) = s.inCut mark := by
  simp only [State.cutAt, State.zoneCut, found, Option.isNone_eq_false_iff.mpr (Option.isSome_iff_ne_none.mpr closed),
    passed, List.any_nil, Bool.or_self, Bool.false_eq_true, if_false]

/-! ### The advance of the grid in a lead or zone (R143) -/

/-- R143, step 3: the entry of the split list at the nominal cut is removed. -/
def splitPassed (s : State) (g : Grid) : State :=
  s.setKnife fun k => { k with split := k.split.filter fun e => e.start != g.n }

theorem isVoid_iff (outgoing : m.outgoing = some o) : m.isVoid = true ↔ o.start = m.p := by
  simp only [ChangeMark.isVoid, outgoing, beq_iff_eq]

section Zone

variable (pos : g.pos = .zone mark ∨ g.pos = .lead mark)
include pos

theorem chargeSheet_waste : s.chargeSheet g j = s.chargeWaste mark := by
  rcases pos with pos | pos <;> simp only [State.chargeSheet, pos]

theorem gridStep1_zone : s.gridStep1 g = (s, g.pos) := by
  rcases pos with pos | pos <;> simp only [State.gridStep1, pos]

variable (found : s.findChange mark = some m)
include found

/-- R143: short of the zone's end the grid goes on in the zone. -/
theorem advanceGrid_zone (on : m.stop ≠ some g.n) :
    s.advanceGrid g = { s with knife := gridAt s g (.zone mark) ((splitPassed s g).cutAt (.zone mark)) } := by
  have two : s.gridStep2 g.n g.pos = (s, .zone mark) := by
    rcases pos with pos | pos <;> simp only [State.gridStep2, pos, found, on, if_false]
  simp only [State.advanceGrid, gridStep1_zone pos, two]
  rfl

/-- R143: at the zone's end the grid passes into the incoming segment, here one that is not void. -/
theorem advanceGrid_zoneEnd (ends : m.stop = some g.n) (after : s.nextChange mark = some next)
    (solid : next.isVoid = false) : s.advanceGrid g
      = { s with knife := gridAt s g (.segment next.uid) ((splitPassed s g).cutAt (.segment next.uid)) } := by
  have two : s.gridStep2 g.n g.pos = (s, .segment next.uid) := by
    rcases pos with pos | pos <;>
      simp only [State.gridStep2, pos, found, ends, if_true, after, solid, Bool.false_eq_true, if_false]
  simp only [State.advanceGrid, gridStep1_zone pos, two]
  rfl

end Zone

/-- R148: a mark with a sheet more of waste. -/
def wastedMark (m : ChangeMark) : ChangeMark := { m with waste := min 16777215 (m.waste + 1) }

/-- R145, R148: the sheet of a matching cut in a lead or zone is waste, and the grid advances. -/
theorem exec_wastedCut (cut : MatchingCut s g) (pos : g.pos = .zone mark ∨ g.pos = .lead mark) :
    exec .cutPulse s = .next ((s.updateChange mark wastedMark).advanceGrid g) := by
  rw [exec_matchingCut cut]
  exact congrArg (fun t => Host.Outcome.next (State.advanceGrid t g)) (chargeSheet_waste pos)

/-- Settles O45. -/
theorem sheetsAreChargedByPlace : Obligations.SheetsAreChargedByPlace := by
  intro s g mark m cut keyed found
  refine ⟨fun pos => ?_, fun pos inside o outgoing => ?_⟩
  · have run := exec_wastedCut cut pos
    have wasted : (s.updateChange mark wastedMark).findChange mark = some (wastedMark m) :=
      updateChange_find_self (fun _ => by rfl) found
    have after {next : ChangeMark} (next_ : s.nextChange mark = some next) :
        (s.updateChange mark wastedMark).nextChange mark = some next :=
      updateChange_nextChange keyed (fun _ => by rfl) next_
    refine ⟨fun on => ?_, fun ends next o next_ outgoing filled => ?_⟩
    · rw [advanceGrid_zone pos wasted on] at run
      refine ⟨_, run, fun openEnd o outgoing => cutAt_openZone (m := wastedMark m) wasted openEnd outgoing,
        fun closed passed next o next_ outgoing => ?_⟩
      have none : (splitPassed (s.updateChange mark wastedMark) g).knife.split = [] :=
        congrArg (List.filter fun e : SplitEntry => e.start != g.n) passed
      exact (cutAt_closedZone (m := wastedMark m) (by exact wasted) closed none).trans
        (inCut_eq (after next_) outgoing)
    · have solid : next.isVoid = false := Bool.eq_false_iff.mpr fun void => filled ((isVoid_iff outgoing).mp void)
      obtain ⟨mem, other⟩ := nextChange_other keyed next_
      have there : (s.updateChange mark wastedMark).findChange next.uid = some next :=
        (updateChange_find_other (fun _ => by rfl) other).trans (keyed.findChange mem)
      rw [advanceGrid_zoneEnd pos wasted ends (after next_) solid, cutAt_segment (by exact there) outgoing] at run
      exact run
  · have culled (why : CullReason) (reason : s.cullReason (shiftBy g.n (-(g.sheet : Int))) g.n
        (if g.spoiled then .deviating else .cut) = some why) :
        exec .cutPulse s = .next (sheetCulled s g mark o why) :=
      (exec_matchingCut cut).trans (congrArg _ (judge_culled pos found outgoing inside reason))
    have lagging : (∃ e ∈ s.knife.lag, overlaps (g.n - BitVec.ofNat 32 g.sheet) g.n e.start e.stop = true)
        ↔ (s.knife.lag.any fun e => overlaps (g.n - BitVec.ofNat 32 g.sheet) g.n e.start e.stop) = true :=
      List.any_eq_true.symm
    simp only [← culledBy_iff, lagging]
    simp only [State.cullReason, shiftBy_neg] at culled
    refine ⟨fun gap => culled .gap ?_, fun gap joint => culled .joint ?_, fun gap joint host => culled .host ?_,
      fun gap joint host lag => culled .change ?_, fun gap joint host lag spoiled => culled .deviation ?_⟩
    · rw [if_pos gap]
    · rw [if_neg gap, if_pos joint]
    · rw [if_neg gap, if_neg joint, if_pos host]
    · rw [if_neg gap, if_neg joint, if_neg host, if_pos lag]
    · rw [if_neg gap, if_neg joint, if_neg host, if_neg lag, spoiled]
      rfl

end Sys2Proof.Machine
end

section
/-! PROOF. The owner of the knife and the overdue cuts at a forward count (O47). -/

namespace Sys2Proof.Machine

open Sys2Proof

variable {s t : State} {g : Grid} {mark n : Nat} {m next : ChangeMark} {o : Outgoing}

/-! ### The knife events of a count (R142, R146) -/

theorem mem_countEvents_owner : CountEvent.owner ∈ countEvents s t ↔ t.ownerDue = true := by
  simp [countEvents]

theorem mem_countEvents_overdue : CountEvent.overdue ∈ countEvents s t ↔ t.cutOverdue = true := by
  simp [countEvents]

theorem advanced_orders (s : State) : (advanced s).orders = s.orders := by rw [advanced_frame]

theorem advanced_nextChange (s : State) (u : Nat) : (advanced s).nextChange u = s.nextChange u := by
  rw [State.nextChange, advanced_changes]; rfl

theorem advanced_inCut (s : State) (u : Nat) : (advanced s).inCut u = s.inCut u := by
  rw [State.inCut, advanced_nextChange]; rfl

theorem cutOverdue_iff : s.cutOverdue = true ↔
    s.knife.owner ≠ .unassigned ∧ ∃ g, s.knife.grid = some g ∧ (g.sheet : Int) ≤ 2 * sdist g.n (knifeCoord s) := by
  unfold State.cutOverdue
  cases s.knife.grid <;> simp [overdueAt]

/-! ### When the owner passes (R142) -/

/-- R142: the knife coordinate has reached the lead point of the line-start mark m. -/
def LeadReached (s : State) (m : ChangeMark) : Prop :=
  m.outgoing = none ∧ atOrAfter (knifeCoord s) (m.p - BitVec.ofNat 32 (s.inCut m.uid / 2)) = true

/-- R142: the test of a lead point at a count. -/
def leadTest (s : State) (m : ChangeMark) : Bool :=
  m.outgoing.isNone && reached (knifeCoord s) (shiftBy m.p (-((s.inCut m.uid / 2 : Nat) : Int)))

theorem leadTest_iff : leadTest s m = true ↔ LeadReached s m := by
  rw [leadTest, shiftBy_neg, Bool.and_eq_true, Option.isNone_iff_eq_none, reached, LeadReached]

theorem leadReached_eq (s : State) :
    s.leadReached = (s.changes.find? (leadTest s)).map fun m => (m, s.inCut m.uid) := rfl

theorem ownerDue_unassigned (free : s.knife.owner = .unassigned) :
    s.ownerDue = true ↔ ∃ m ∈ s.changes, LeadReached s m := by
  simp only [State.ownerDue, free, leadReached_eq, Option.isSome_map, List.find?_isSome, leadTest_iff]

theorem ownerDue_segment (owner : s.knife.owner = .segment mark) :
    s.ownerDue = true ↔ ∃ m, s.findChange mark = some m ∧ atOrAfter (knifeCoord s) m.p = true := by
  simp only [State.ownerDue, owner, Option.any_eq_true, reached]

theorem ownerDue_zone (owner : s.knife.owner = .zone mark) : s.ownerDue = false := by
  simp only [State.ownerDue, owner]

/-! ### What the passing does (R142, R143) -/

/-- R142: the first line-start mark of the table is the one whose lead point counts. -/
theorem leadReached_first {before after : List ChangeMark} (table : s.changes = before ++ m :: after)
    (later : ∀ x ∈ before, x.outgoing ≠ none) (lead : LeadReached s m) : s.leadReached = some (m, s.inCut m.uid) := by
  have passed : before.find? (leadTest s) = none :=
    List.find?_eq_none.mpr fun x mem due => later x mem (leadTest_iff.mp due).1
  rw [leadReached_eq, table, List.find?_append, passed, Option.none_or, List.find?_cons_of_pos (leadTest_iff.mpr lead),
    Option.map_some]

theorem passOwner_lead (free : s.knife.owner = .unassigned) (lead : s.leadReached = some (m, n)) :
    s.passOwner = s.setKnife fun k => { k with owner := .zone m.uid, grid := some ⟨.lead m.uid, m.p, n, false⟩ } := by
  simp only [State.passOwner, free, lead]

theorem passOwner_segment (owner : s.knife.owner = .segment mark) (due : s.ownerDue = true) :
    s.passOwner = s.setKnife fun k => { k with owner := .zone mark } := by
  obtain ⟨m, found, at_⟩ := (ownerDue_segment owner).mp due
  simp only [State.passOwner, owner, found, reached, at_, if_true]

theorem knifeCrossing_other (other : s.knife.owner ≠ .zone m.uid) : s.knifeCrossing m = s := if_neg other

theorem knifeCrossing_passes (owner : s.knife.owner = .zone m.uid) (after : s.nextChange m.uid = some next)
    (outgoing : next.outgoing = some o) : s.knifeCrossing m = s.setKnife fun k =>
      { k with owner := if o.start = next.p then .zone next.uid else .segment next.uid } := by
  simp only [State.knifeCrossing, owner, if_true, after, isVoid_iff outgoing]

/-- R14: a crossing of a CHANGE mark as the count's only event is taken by its block. -/
theorem exec_soleCrossing {c : Cross} (sole : SoleEvent s (.fire m.uid c))
    (found : s.findMark m.uid = some (.change m)) : exec .forwardCount s = .next ((advanced s).fireChange m c) := by
  obtain ⟨x, mem, uid, fires⟩ := mem_countEvents_fire.mp (soleEvent_mem sole)
  rw [advanced_marks] at mem
  obtain ⟨-, keyed, -⟩ := id sole
  obtain rfl : x = .change m := keyed.eq mem (findMark_mem found).1 uid
  rw [exec_forwardCount_sole sole, State.countEvent, advanced_findMark, found]
  exact congrArg _ (if_pos (List.contains_iff_mem.mpr fires))

/-- R142: the state in which a knife crossing finds the owner. -/
theorem fireChange_knife (s : State) (m : ChangeMark) :
    s.fireChange m .knife = (s.updateChange m.uid fun x => x.setCross .knife .done).knifeCrossing m := rfl

/-! ### The overdue cut (R146) -/

/-- R146: a missed sheet clear of culls is culled for deviation; the test ends where the cut after it is not overdue. -/
theorem overdueTest_culled (owned : s.knife.owner ≠ .unassigned) (grid : s.knife.grid = some g)
    (late : (g.sheet : Int) ≤ 2 * sdist g.n (knifeCoord s)) (pos : g.pos = .segment mark)
    (found : s.findChange mark = some m) (outgoing : m.outgoing = some o) (inside : g.n ≠ m.p) (clear : ClearSheet s g)
    (timely : 2 * sdist (plusMm g.n o.cutLength) (knifeCoord s) < o.cutLength) :
    s.overdueTest = (sheetCulled s g mark o .deviation).raise .cutDeviation (.order o.order) := by
  have due : overdueAt g (knifeCoord s) = true := decide_eq_true late
  have missed := judge_culled_raised (j := .missed) pos found outgoing inside
    (cullReason_deviation (clearSheet_good clear) (by decide))
  rw [State.overdueTest, if_neg owned]
  simp only [State.overdueFuel, grid, State.missOverdue, due, if_true, missed]
  exact missOverdue_timely (g := ⟨.segment mark, plusMm g.n o.cutLength, o.cutLength, false⟩) rfl timely _

/-- Settles O47. -/
theorem knifeOwnerAndOverdueCuts : Obligations.KnifeOwnerAndOverdueCuts := by
  intro s
  have knife := advanced_knife s
  have leads (m : ChangeMark) : LeadReached (advanced s) m ↔ m.outgoing = none
      ∧ atOrAfter (knifeCoord (advanced s)) (m.p - BitVec.ofNat 32 (s.inCut m.uid / 2)) = true := by
    rw [LeadReached, advanced_inCut]
  have overdue : CountEvent.overdue ∈ countEvents s (advanced s) ↔ s.knife.owner ≠ .unassigned
      ∧ ∃ g, s.knife.grid = some g ∧ (g.sheet : Int) ≤ 2 * sdist g.n (knifeCoord (advanced s)) := by
    rw [mem_countEvents_overdue, cutOverdue_iff, knife]
  refine ⟨fun free => ?_, fun m next o => inCut_eq, fun mark owner => ?_, fun mark owner => ?_, overdue,
    fun sole => ⟨fun free before m after table later out at_ => ?_, fun mark owner => ?_⟩,
    fun m sole found => ⟨fun other => ?_, fun owner next o after outgoing => ?_⟩,
    fun g mark m o sole grid pos found outgoing inside clear timely => ?_⟩
  · rw [mem_countEvents_owner, ownerDue_unassigned (by rw [knife, free]), advanced_changes]
    simp only [leads]
  · rw [mem_countEvents_owner, ownerDue_segment (by rw [knife, owner]), advanced_findChange]
  · rw [mem_countEvents_owner, ownerDue_zone (by rw [knife, owner])]
    exact Bool.false_ne_true
  · have lead := leadReached_first (by rw [advanced_changes, table]) later ((leads m).mpr ⟨out, at_⟩)
    rw [exec_forwardCount_sole sole, State.countEvent, passOwner_lead (by rw [knife, free]) lead, State.setKnife, knife,
      advanced_inCut]
  · have due := mem_countEvents_owner.mp (soleEvent_mem sole)
    rw [exec_forwardCount_sole sole, State.countEvent, passOwner_segment (by rw [knife, owner]) due, State.setKnife,
      knife]
  · rw [exec_soleCrossing sole found, fireChange_knife, knifeCrossing_other (by rwa [State.updateChange_knife, knife])]
  · obtain ⟨-, keyed, -⟩ := id sole
    have later := updateChange_nextChange (f := fun x => x.setCross .knife .done) (advanced_keyed keyed)
      (fun _ => by rfl) ((advanced_nextChange s m.uid).trans after)
    rw [exec_soleCrossing sole found, fireChange_knife,
      knifeCrossing_passes (by rw [State.updateChange_knife, knife, owner]) later outgoing, State.setKnife,
      State.updateChange_knife, knife]
  · obtain ⟨owned, x, grid', late⟩ := overdue.mp (soleEvent_mem sole)
    obtain rfl : g = x := Option.some.inj (grid.symm.trans grid')
    have still : ClearSheet (advanced s) g := by rwa [ClearSheet, advanced_marks, knife]
    refine ⟨late, ?_⟩
    rw [exec_forwardCount_sole sole, State.countEvent, overdueTest_culled (by rwa [knife]) (by rw [knife, grid]) late pos
      (by rw [advanced_findChange, found]) outgoing inside still timely, sheetCulled, advanced_orders, gridAt, knife]
    rfl

end Sys2Proof.Machine
end

section
/-! PROOF. What a queued setpoint leaves of the BOND class (R168, R180), and REFRESH BOND (O49). -/

namespace Sys2Proof.Machine

open Sys2Proof

variable {s t : State} {u w : BondUnit} {v x : Nat} {left rest : List BondUnit}

/-! ### The setpoints of a unit (R168, R180) -/

/-- R180: a setpoint replaces the setpoints of its own unit. -/
theorem any_replaces_bondSetpoint (s : State) (u : BondUnit) (v : Nat) :
    s.link.bond.any (Command.bondSetpoint u v).replaces = s.setpointQueued u := by
  refine congrArg s.link.bond.any (funext fun c => ?_)
  cases c with
  | bondSetpoint w x => exact BEq.comm
  | _ => rfl

/-- R180: the BOND class after a setpoint has joined it. -/
def State.bondAfter (s : State) (u : BondUnit) (v : Nat) : List Command :=
  if s.setpointQueued u then
    s.link.bond.map fun d => if (Command.bondSetpoint u v).replaces d then .bondSetpoint u v else d
  else s.link.bond ++ [.bondSetpoint u v]

/-- R180: a setpoint that replaces one or finds room touches the BOND class alone. -/
theorem queueSetpoint_eq (room : s.setpointQueued u = true ∨ s.link.bond.length < 8) (v : Nat) :
    s.queueSetpoint u v = s.setQueue .bond (s.bondAfter u v) := by
  have replaces : (s.link.queue .bond).any (Command.bondSetpoint u v).replaces = s.setpointQueued u :=
    any_replaces_bondSetpoint s u v
  unfold State.queueSetpoint State.enqueue State.bondAfter
  dsimp only [Command.linkClass]
  rw [replaces]
  by_cases queued : s.setpointQueued u = true
  · rw [if_pos queued, if_pos queued]; rfl
  · rw [if_neg queued, if_neg queued]
    exact if_pos (room.resolve_left queued)

theorem bondAfter_free (free : s.setpointQueued u = false) (v : Nat) :
    s.bondAfter u v = s.link.bond ++ [.bondSetpoint u v] := if_neg (by simp [free])

/-- R180: afterwards the new value is the only one of its unit that waits. -/
theorem mem_bondAfter_same : Command.bondSetpoint u x ∈ s.bondAfter u v ↔ x = v := by
  unfold State.bondAfter
  split
  · next queued =>
    obtain ⟨y, old⟩ := setpointQueued_iff.mp queued
    rw [List.mem_map]
    constructor
    · rintro ⟨d, -, eq⟩
      split at eq
      · cases eq; rfl
      · next kept =>
        subst eq
        exact absurd (beq_self_eq_true u) kept
    · rintro rfl
      exact ⟨_, old, if_pos (beq_self_eq_true u)⟩
  · next free =>
    have absent : Command.bondSetpoint u x ∉ s.link.bond := fun mem => free (setpointQueued_iff.mpr ⟨x, mem⟩)
    simp [absent]

/-- R180: what waits of another unit stays. -/
theorem mem_bondAfter_other (other : w ≠ u) :
    Command.bondSetpoint w x ∈ s.bondAfter u v ↔ Command.bondSetpoint w x ∈ s.link.bond := by
  have keep : (Command.bondSetpoint u v).replaces (.bondSetpoint w x) = false := beq_false_of_ne other.symm
  unfold State.bondAfter
  split
  · rw [List.mem_map]
    constructor
    · rintro ⟨d, mem, eq⟩
      split at eq
      · cases eq; exact absurd rfl other
      · exact eq ▸ mem
    · exact fun mem => ⟨_, mem, by rw [keep]; rfl⟩
  · simp [other]

theorem bondAfter_length : (s.bondAfter u v).length = s.link.bond.length + if s.setpointQueued u then 0 else 1 := by
  unfold State.bondAfter
  split <;> simp

theorem length_le_bondAfter : (s.bondAfter u v).length ≤ s.link.bond.length + 1 := by
  rw [bondAfter_length]
  split <;> omega

/-! ### REFRESH BOND (R169) -/

theorem mem_bondUnits (u : BondUnit) : u ∈ bondUnits := by
  cases u with
  | ph k => cases k <;> decide
  | glue g => cases g <;> decide

/-- R169: a unit is sent where it has a value now. -/
theorem mem_activeUnits : u ∈ s.activeUnits ↔ ∃ v, s.commanded u = some v := by
  rw [State.activeUnits, List.mem_filter, Option.isSome_iff_exists]
  exact and_iff_right (mem_bondUnits u)

theorem commanded_preheater {k : Stand} {a : WrapGrade} (active : (s.preheaters.get k).active = some a) :
    s.commanded (.ph k) = some (s.preheaters.get k).output := by simp [State.commanded, active]

theorem commanded_preheater_none {k : Stand} (idle : (s.preheaters.get k).active = none) :
    s.commanded (.ph k) = none := by simp [State.commanded, idle]

theorem commanded_glue {g : GlueUnit} {a : GlueGrade} (active : (s.glue.get g).active = some a) :
    s.commanded (.glue g) = some (s.glue.get g).gap := by simp [State.commanded, active]

theorem commanded_glue_none {g : GlueUnit} (idle : (s.glue.get g).active = none) :
    s.commanded (.glue g) = none := by simp [State.commanded, idle]

/-- R169, R180: a REFRESH BOND on its way from s, with the units still to be sent: each of them finds its room, those that
were sent wait with their value, and what waits of the others is as it was. -/
structure Refreshing (s : State) (left : List BondUnit) (t : State) : Prop where
  frame : t = { s with link := { s.link with bond := t.link.bond }, draws := t.draws }
  nodup : left.Nodup
  active : left ⊆ s.activeUnits
  room : t.link.bond.length + (left.filter fun u => !s.setpointQueued u).length ≤ 8
  sent : ∀ u v, s.commanded u = some v → u ∉ left → ∀ x, Command.bondSetpoint u x ∈ t.link.bond ↔ x = v
  kept : ∀ u, u ∈ left ∨ s.commanded u = none →
    ∀ x, Command.bondSetpoint u x ∈ t.link.bond ↔ Command.bondSetpoint u x ∈ s.link.bond

namespace Refreshing

theorem start (room : s.link.bond.length + (s.activeUnits.filter fun u => !s.setpointQueued u).length ≤ 8) :
    Refreshing s s.activeUnits s where
  frame := rfl
  nodup := (by decide : bondUnits.Nodup).filter _
  active := List.Subset.refl _
  room := room
  sent _ v value out := absurd (mem_activeUnits.mpr ⟨v, value⟩) out
  kept _ _ _ := Iff.rfl

theorem drawn (h : Refreshing s left t) : Refreshing s left t.drawn where
  frame := by rw [h.frame]; rfl
  nodup := h.nodup
  active := h.active
  room := h.room
  sent := h.sent
  kept := h.kept

theorem perm (h : Refreshing s left t) (same : left.Perm rest) : Refreshing s rest t where
  frame := h.frame
  nodup := same.nodup_iff.mp h.nodup
  active := fun _ mem => h.active (same.mem_iff.mpr mem)
  room := by rw [← (same.filter _).length_eq]; exact h.room
  sent u v value out := h.sent u v value fun mem => out (same.mem_iff.mp mem)
  kept u which := h.kept u (which.imp_left same.mem_iff.mpr)

/-- A unit still to be sent waits exactly where it waited at the start. -/
theorem queued_eq (h : Refreshing s left t) (mem : u ∈ left) : t.setpointQueued u = s.setpointQueued u := by
  rw [Bool.eq_iff_iff, setpointQueued_iff, setpointQueued_iff]
  exact exists_congr (h.kept u (.inl mem))

theorem commanded_eq (h : Refreshing s left t) (u : BondUnit) : t.commanded u = s.commanded u := by
  rw [h.frame]
  cases u <;> rfl

/-- R169: the next unit is sent. -/
theorem unit (h : Refreshing s (u :: rest) t) : Refreshing s rest (t.refreshUnit u) := by
  obtain ⟨fresh, nodup⟩ := List.nodup_cons.mp h.nodup
  obtain ⟨v, value⟩ := mem_activeUnits.mp (h.active List.mem_cons_self)
  have queued := h.queued_eq List.mem_cons_self
  have room := h.room
  have fits : t.setpointQueued u = true ∨ t.link.bond.length < 8 := by
    rw [queued]
    by_cases waits : s.setpointQueued u = true
    · exact .inl waits
    · rw [List.filter_cons_of_pos (by simp [waits]), List.length_cons] at room
      exact .inr (by omega)
  have step : t.refreshUnit u = t.setQueue .bond (t.bondAfter u v) := by
    rw [← queueSetpoint_eq fits]
    simp only [State.refreshUnit, h.commanded_eq u, value]
  have bond : (t.refreshUnit u).link.bond = t.bondAfter u v := by rw [step]; rfl
  refine ⟨?_, nodup, fun _ mem => h.active (List.mem_cons_of_mem u mem), ?_, fun w y val out x => ?_, fun w which x => ?_⟩
  · rw [step, h.frame]; rfl
  · rw [bond, bondAfter_length, queued]
    rw [List.filter_cons] at room
    by_cases waits : s.setpointQueued u = true
    · simpa [waits] using room
    · simp only [waits, Bool.not_false, if_true, List.length_cons, Bool.false_eq_true, if_false] at room ⊢
      omega
  · rw [bond]
    by_cases same : w = u
    · subst same
      obtain rfl : v = y := Option.some.inj (value.symm.trans val)
      exact mem_bondAfter_same
    · rw [mem_bondAfter_other same]
      exact h.sent w y val (by simp [same, out]) x
  · have other : w ≠ u := by
      rintro rfl
      exact which.elim fresh fun none => by rw [value] at none; cases none
    rw [bond, mem_bondAfter_other other]
    exact h.kept w (which.imp_left (List.mem_cons_of_mem u)) x

end Refreshing

/-- R169: at the end every unit with a value has been sent. -/
theorem refreshAll_refreshing
    (room : s.link.bond.length + (s.activeUnits.filter fun u => !s.setpointQueued u).length ≤ 8) :
    Refreshing s [] s.refreshAll :=
  takeEvents_induct (Refreshing s) (fun _ _ => Refreshing.drawn)
    (fun _ _ _ lt h => (h.perm (List.getElem_cons_eraseIdx_perm lt).symm).unit) (.start room)

/-- Settles O49. -/
theorem refreshBondQueuesEveryUnit : Obligations.RefreshBondQueuesEveryUnit := by
  refine fun s => ⟨fun b body => ?_, fun room => ⟨s.refreshAll, rfl, ?_⟩⟩
  · have test : (b.length != 0) = true := bne_iff_ne.mpr (mt List.length_eq_zero_iff.mp body)
    change Host.Outcome.next (answered 0x50 s (answerRefreshBond b s)) = _
    rw [answerRefreshBond, test, refuseIf_true, answered_error]
  · have h := refreshAll_refreshing room
    exact ⟨h.frame, fun k a active => h.sent _ _ (commanded_preheater active) List.not_mem_nil,
      fun g a active => h.sent _ _ (commanded_glue active) List.not_mem_nil,
      fun k v idle => h.kept _ (.inr (commanded_preheater_none idle)) v,
      fun g v idle => h.kept _ (.inr (commanded_glue_none idle)) v⟩

end Sys2Proof.Machine
end

section
/-! PROOF. Glue gaps, bumps and the switch of a bond unit: the start and the end of a bump (O50), a bond crossing (O51). -/

namespace Sys2Proof.Machine

open Sys2Proof

variable {s : State} {g u w : GlueUnit} {k : Stand} {c : GlueChannel} {m : ChangeMark} {j : JointMark} {n : Nat}
  {grade : Grade} {o : Order}

/-! ### The gap of a glue unit (R165) -/

theorem gapNow_idle (idle : c.active = none) : c.gapNow = c.gap := by rw [GlueChannel.gapNow, idle]

theorem gapNow_active {a : GlueGrade} (active : c.active = some a) :
    c.gapNow = if c.bumpEnd = none then a.values.base else min 1500 (a.values.base + a.values.bump) := by
  rw [GlueChannel.gapNow, active]
  cases c.bumpEnd <;> rfl

@[simp] theorem setGlue_get_same (s : State) (g : GlueUnit) (c : GlueChannel) : (s.setGlue g c).glue.get g = c :=
  PerGlue.get_set_same s.glue g c

theorem setGlue_get_other (s : State) (c : GlueChannel) (other : w ≠ g) :
    (s.setGlue g c).glue.get w = s.glue.get w := PerGlue.get_set_other s.glue c other

@[simp] theorem setGlue_setGlue (s : State) (g : GlueUnit) (c d : GlueChannel) :
    (s.setGlue g c).setGlue g d = s.setGlue g d := by cases g <;> rfl

theorem regap_setGlue_same (same : c.gapNow = c.gap) : (s.setGlue g c).regap g = s.setGlue g c :=
  if_pos (by rw [setGlue_get_same, same])

theorem regap_setGlue_differs (differs : c.gapNow ≠ c.gap) : (s.setGlue g c).regap g
    = (s.setGlue g { c with gap := c.gapNow }).queueSetpoint (.glue g) c.gapNow := by
  simp only [State.regap, setGlue_get_same, if_neg differs, setGlue_setGlue]

/-- R165: whether or not it has to be queued, the gap commanded is the one that the fields of the channel give. -/
theorem regap_setGlue_glue (s : State) (g : GlueUnit) (c : GlueChannel) :
    ((s.setGlue g c).regap g).glue = (s.setGlue g { c with gap := c.gapNow }).glue := by
  by_cases same : c.gapNow = c.gap
  · rw [regap_setGlue_same same, same]
  · rw [regap_setGlue_differs same, queueSetpoint_glue]

/-- R165, R180: a gap that differs joins the BOND class where it finds room. -/
theorem regap_setGlue_room (room : s.setpointQueued (.glue g) = true ∨ s.link.bond.length < 8)
    (differs : c.gapNow ≠ c.gap) : (s.setGlue g c).regap g
      = (s.setGlue g { c with gap := c.gapNow }).setQueue .bond (s.bondAfter (.glue g) c.gapNow) := by
  rw [regap_setGlue_differs differs]
  exact queueSetpoint_eq (s := s.setGlue g _) room _

theorem regap_setGlue_frame (s : State) (g : GlueUnit) (c : GlueChannel) : (s.setGlue g c).regap g =
    { s with glue := ((s.setGlue g c).regap g).glue, link := ((s.setGlue g c).regap g).link,
             errors := ((s.setGlue g c).regap g).errors } := by
  by_cases same : c.gapNow = c.gap
  · rw [regap_setGlue_same same]; rfl
  · rw [regap_setGlue_differs same, State.queueSetpoint, enqueue_frame]; rfl

/-! ### The start of a bump (R166) -/

/-- R14: a crossing of a mark as the count's only event. -/
theorem exec_soleFire {x : Mark} {cross : Cross} (sole : SoleEvent s (.fire x.uid cross))
    (found : s.findMark x.uid = some x) : exec .forwardCount s = .next ((advanced s).fire x cross) := by
  obtain ⟨y, mem, uid, fires⟩ := mem_countEvents_fire.mp (soleEvent_mem sole)
  rw [advanced_marks] at mem
  obtain ⟨-, keyed, -⟩ := id sole
  obtain rfl : y = x := keyed.eq mem (findMark_mem found).1 uid
  rw [exec_forwardCount_sole sole, State.countEvent, advanced_findMark, found]
  exact congrArg _ (if_pos (List.contains_iff_mem.mpr fires))

theorem advanced_link (s : State) : (advanced s).link = s.link := by rw [advanced_frame]
theorem advanced_errors (s : State) : (advanced s).errors = s.errors := by rw [advanced_frame]

theorem setpointQueued_of_link {t : State} (same : t.link = s.link) (x : BondUnit) :
    t.setpointQueued x = s.setpointQueued x := by rw [State.setpointQueued, same]; rfl

theorem bondAfter_of_link {t : State} (same : t.link = s.link) (x : BondUnit) (v : Nat) :
    t.bondAfter x v = s.bondAfter x v := by
  rw [State.bondAfter, State.bondAfter, setpointQueued_of_link same, same]

/-- R166: the channel of a unit whose bump ends at `ends`. -/
def GlueChannel.bumped (c : GlueChannel) (ends : Option Coord) : GlueChannel := { c with bumpEnd := ends }

/-- R166: the glue crossing of a JOINT mark, as the count's only event. -/
theorem exec_soleJoint (sole : SoleEvent s (.fire j.uid (.glue u))) (found : s.findMark j.uid = some (.joint j)) :
    exec .forwardCount s = .next ((((advanced s).jointCrossDone j.uid (.glue u)).setGlue u
      ((s.glue.get u).bumped (bumpAfter (s.glue.get u).bumpEnd (bumpLength s.config)
        (plusMm (s.odometer + 1#32) (bumpLength s.config))))).regap u) := by
  rw [exec_soleFire (x := .joint j) sole found]
  have glue : ((advanced s).jointCrossDone j.uid (.glue u)).glue = s.glue := advanced_glue s
  have config : ((advanced s).jointCrossDone j.uid (.glue u)).config = s.config := advanced_config s
  have odometer : ((advanced s).jointCrossDone j.uid (.glue u)).odometer = s.odometer + 1#32 := advanced_odometer s
  simp only [State.fire, State.jointAt, glue, config, odometer, GlueChannel.bumped]

/-! ### The end of a bump (R167) -/

theorem endBump_idle (idle : s.bumpDue u = false) : s.endBump u = s := if_neg (by simp [idle])

theorem endBump_due {e : Coord} (ends : (s.glue.get u).bumpEnd = some e) (now : reached s.odometer e = true) :
    s.endBump u = (s.setGlue u ((s.glue.get u).bumped none)).regap u := by
  have due : s.bumpDue u = true := by simp only [State.bumpDue, ends, now]
  exact if_pos due

/-- Settles O50. -/
theorem bumpRunsFromJointToItsEnd : Obligations.BumpRunsFromJointToItsEnd := by
  intro s u
  refine ⟨fun j sole found => ?_, fun idle => congrArg _ (endBump_idle idle),
    fun e ends now => ⟨fun same => ?_, fun a active differs room free => ?_⟩⟩
  · intro c b e ends
    have later : bumpAfter c.bumpEnd b e = ends := by
      simp only [ends, bumpAfter]
      cases c.bumpEnd with
      | none => rfl
      | some old => exact (apply_ite some _ _ _).symm
    refine ⟨_, exec_soleJoint sole found, ?_⟩
    rw [show bumpAfter (s.glue.get u).bumpEnd _ _ = ends from later]
    clear_value ends
    generalize done : (advanced s).jointCrossDone j.uid (.glue u) = v
    have glue : v.glue = s.glue := by rw [← done]; exact advanced_glue s
    have link : v.link = s.link := by rw [← done]; exact advanced_link s
    have errors : v.errors = s.errors := by rw [← done]; exact advanced_errors s
    have channel := congrArg (PerGlue.get · u) (regap_setGlue_glue v u ((s.glue.get u).bumped ends))
    rw [setGlue_get_same] at channel
    refine ⟨regap_setGlue_frame v u _, ?_, ?_, ?_, fun idle => ?_, fun a active => ?_, fun w other => ?_, fun same => ?_,
      fun differs room free => ?_⟩
    · rw [channel]; rfl
    · rw [channel]; rfl
    · rw [channel]; rfl
    · rw [channel]; exact gapNow_idle idle
    · rw [channel]; exact gapNow_active active
    · rw [regap_setGlue_glue, setGlue_get_other v _ other, glue]
    · rw [channel] at same
      rw [regap_setGlue_same same]
      exact ⟨link, errors⟩
    · rw [channel] at differs ⊢
      rw [regap_setGlue_room (.inr (by rwa [link])) differs, bondAfter_of_link link, bondAfter_free free]
      exact ⟨congrArg (Link.setQueue · .bond _) link, errors⟩
  · have gap : ((s.glue.get u).bumped none).gapNow = (s.glue.get u).gap := by
      cases active : (s.glue.get u).active with
      | none => exact gapNow_idle active
      | some a => exact (gapNow_active (c := (s.glue.get u).bumped none) active).trans (same a active)
    exact congrArg _ ((endBump_due ends now).trans (regap_setGlue_same gap))
  · have gap : ((s.glue.get u).bumped none).gapNow = a.values.base := gapNow_active active
    refine congrArg _ ((endBump_due ends now).trans ?_)
    rw [regap_setGlue_room (.inr room) (by rw [gap]; exact differs), gap, bondAfter_free free]
    rfl

/-! ### A unit switches at its crossing (R162, R168) -/

/-- R168: the first value joins the BOND class where none has been sent and none waits. -/
theorem firstValue_eq {x : BondUnit} (room : s.link.bond.length < 8) (last : Option Nat) (v : Nat) :
    s.firstValue x last v = { s with link :=
      if last = none ∧ s.setpointQueued x = false then { s.link with bond := s.link.bond ++ [.bondSetpoint x v] }
      else s.link } := by
  by_cases first : last = none ∧ s.setpointQueued x = false
  · obtain ⟨rfl, free⟩ := first
    rw [if_pos ⟨rfl, free⟩, State.firstValue, if_pos (by simp [free]), queueSetpoint_eq (.inr room), bondAfter_free free]
    rfl
  · rw [if_neg first]
    exact if_neg (by simpa using first)

theorem firstValue_queued {x : BondUnit} (queued : s.setpointQueued x = true) (last : Option Nat) (v : Nat) :
    s.firstValue x last v = s := if_neg (by simp [queued])

/-- R162: a preheater switches, and queues its output where that is its first value. -/
theorem switchPreheater_eq (room : s.link.bond.length < 8) (k : Stand) (grade : Grade) :
    s.switchPreheater k grade =
      { s.setPreheater k { s.preheaters.get k with active := some ⟨grade.fields.number, grade.fields.curves.get k⟩ } with
        link :=
          if (s.preheaters.get k).lastSent = none ∧ s.setpointQueued (.ph k) = false then
            { s.link with bond := s.link.bond ++ [.bondSetpoint (.ph k) (s.preheaters.get k).output] }
          else s.link } :=
  firstValue_eq (s := s.setPreheater k _) room _ _

/-- R162: the channel of a unit that has taken the values of a grade, its gap not yet recomputed. -/
def GlueChannel.taking (c : GlueChannel) (grade : Grade) (u : GlueUnit) : GlueChannel :=
  { c with active := some ⟨grade.fields.number, grade.fields.glue.get u⟩ }

theorem switchGlue_eq (s : State) (u : GlueUnit) (grade : Grade) : s.switchGlue u grade =
    ((s.setGlue u ((s.glue.get u).taking grade u)).regap u).firstValue (.glue u) (s.glue.get u).lastSent
      ((s.glue.get u).taking grade u).gapNow := by
  have gap : (((s.setGlue u ((s.glue.get u).taking grade u)).regap u).glue.get u).gap
      = ((s.glue.get u).taking grade u).gapNow := by rw [regap_setGlue_glue, setGlue_get_same]
  rw [← gap]
  rfl

/-- R165, R168: a gap that the new grade leaves as it was is queued where it is the first value. -/
theorem switchGlue_same (room : s.link.bond.length < 8)
    (same : ((s.glue.get u).taking grade u).gapNow = (s.glue.get u).gap) :
    s.switchGlue u grade = { s.setGlue u ((s.glue.get u).taking grade u) with
      link :=
        if (s.glue.get u).lastSent = none ∧ s.setpointQueued (.glue u) = false then
          { s.link with bond := s.link.bond ++ [.bondSetpoint (.glue u) (s.glue.get u).gap] }
        else s.link } := by
  rw [switchGlue_eq, regap_setGlue_same same, same]
  exact firstValue_eq (s := s.setGlue u _) room _ _

/-- R165, R168: a gap that the new grade changes is queued. -/
theorem switchGlue_differs (room : s.link.bond.length < 8)
    (differs : ((s.glue.get u).taking grade u).gapNow ≠ (s.glue.get u).gap) :
    s.switchGlue u grade =
      (s.setGlue u { (s.glue.get u).taking grade u with gap := ((s.glue.get u).taking grade u).gapNow }).setQueue .bond
        (s.bondAfter (.glue u) ((s.glue.get u).taking grade u).gapNow) := by
  rw [switchGlue_eq, regap_setGlue_room (.inr room) differs]
  exact firstValue_queued (setpointQueued_iff.mpr ⟨_, mem_bondAfter_same.mpr rfl⟩) _ _

/-! ### The bond crossing of a CHANGE mark (R14, R162) -/

theorem incomingGrade_eq (incoming : m.incoming = some n) (order : s.findOrder n = some o)
    (entry : s.findGrade o.fields.grade = some grade) : s.incomingGrade m = some grade := by
  simp only [State.incomingGrade, incoming, order, Option.bind_some, entry]

theorem advanced_incomingGrade (s : State) (m : ChangeMark) : (advanced s).incomingGrade m = s.incomingGrade m := by
  rw [advanced_frame]; rfl

theorem fireChange_ph (incoming : m.incoming = some n) (entry : s.incomingGrade m = some grade) (k : Stand) :
    s.fireChange m (.ph k) = (s.updateChange m.uid fun x => x.setCross (.ph k) .done).switchPreheater k grade := by
  simp only [State.fireChange, incoming, entry]

theorem fireChange_glue (incoming : m.incoming = some n) (entry : s.incomingGrade m = some grade) (u : GlueUnit) :
    s.fireChange m (.glue u) = (s.updateChange m.uid fun x => x.setCross (.glue u) .done).switchGlue u grade := by
  simp only [State.fireChange, incoming, entry]

/-- Settles O51. -/
theorem bondUnitsSwitchAtCrossings : Obligations.BondUnitsSwitchAtCrossings := by
  intro s m n o grade found incoming order entry room crossed sent
  have taken : (advanced s).incomingGrade m = some grade :=
    (advanced_incomingGrade s m).trans (incomingGrade_eq incoming order entry)
  have link (x : Cross) : (crossed x).link = s.link := advanced_link s
  have glue (x : Cross) : (crossed x).glue = s.glue := advanced_glue s
  have preheaters (x : Cross) : (crossed x).preheaters = s.preheaters := by
    change (advanced s).preheaters = _
    rw [advanced_frame]
  have fits (x : Cross) : (crossed x).link.bond.length < 8 := by rwa [link]
  refine ⟨fun k sole => ?_, fun u sole => ?_⟩
  · refine ⟨_, (exec_soleCrossing sole found).trans (congrArg _ (fireChange_ph incoming taken k)), ?_⟩
    change (crossed (.ph k)).switchPreheater k grade = _ ∧ _
    rw [switchPreheater_eq (fits _), setpointQueued_of_link (link _), link, preheaters]
    refine ⟨rfl, PerStand.get_set_same _ k _, fun i other => ?_, rfl⟩
    exact (PerStand.get_set_other _ _ other).trans (by rw [preheaters])
  · intro c v gap
    have now : (c.taking grade u).gapNow = gap := gapNow_active (c := c.taking grade u) rfl
    have channel : (crossed (.glue u)).glue.get u = c := by rw [glue]
    have free := setpointQueued_of_link (link (.glue u)) (.glue u)
    refine ⟨_, (exec_soleCrossing sole found).trans (congrArg _ (fireChange_glue incoming taken u)), ?_⟩
    change (crossed (.glue u)).switchGlue u grade = _ ∧ _
    have others (w : GlueUnit) (other : w ≠ u) (x : GlueChannel) :
        ((crossed (.glue u)).setGlue u x).glue.get w = s.glue.get w := by rw [setGlue_get_other _ _ other, glue]
    by_cases same : gap = c.gap
    · rw [switchGlue_same (fits _) (by rw [channel, now, same]), channel, free, link]
      refine ⟨rfl, (setGlue_get_same _ u _).trans ?_, fun w other => others w other _, fun out => ?_, fun waits _ => ?_,
        fun _ differs => absurd same differs⟩
      · rw [same]; rfl
      · simp only [same, out, ne_eq, not_true_eq_false, false_or, and_true]
        rfl
      · exact if_neg (by simp [waits])
    · rw [switchGlue_differs (fits _) (by rw [channel, now]; exact same), channel, now, bondAfter_of_link (link _)]
      refine ⟨rfl, setGlue_get_same _ u _, fun w other => others w other _, fun out => ?_, fun _ eq => absurd eq same,
        fun _ _ x => mem_bondAfter_same⟩
      rw [if_pos (.inl same), bondAfter_free out]
      exact congrArg (Link.setQueue · .bond _) (link (.glue u))

end Sys2Proof.Machine
end

section
/-! PROOF. The preheaters at a window close (O30): the wrap curve and its rounding (R163), the slew step of one preheater and
of all of them (R164). -/

namespace Sys2Proof.Machine

open Sys2Proof

variable {s t : State} {j k : Stand} {left rest : List Stand} {p q : Breakpoint} {c : Curve} {v : Nat}

/-! ### The wrap curve (R163) -/

/-- R163: the straight line between two breakpoints at ten-fold speed v, times the span between them. -/
def wrapLine (p q : Breakpoint) (v : Nat) : Int :=
  p.wrap * (10 * q.speed - 10 * p.speed) + (q.wrap - p.wrap) * (v - 10 * p.speed)

/-- R163: the wrap of a segment is its line rounded to the nearest, half-way upward. -/
theorem wrapBetween_rounds (ascends : p.speed < q.speed) (v : Nat) :
    let span : Int := 10 * q.speed - 10 * p.speed
    2 * wrapLine p q v - span < 2 * span * wrapBetween p q v
      ∧ 2 * span * wrapBetween p q v ≤ 2 * wrapLine p q v + span := by
  intro span
  have positive : 0 < 2 * span := by omega
  have rounded : wrapBetween p q v = (2 * wrapLine p q v + span) / (2 * span) := by
    have split : 2 * wrapLine p q v + span
        = 2 * ((q.wrap : Int) - p.wrap) * ((v : Int) - 10 * p.speed) + span + p.wrap * (2 * span) := by
      simp only [wrapLine, span]; ring
    rw [split, Int.add_mul_ediv_right _ _ positive.ne', add_comm]
    rfl
  have low := Int.lt_ediv_add_one_mul_self (2 * wrapLine p q v + span) positive
  have high := Int.ediv_mul_le (2 * wrapLine p q v + span) positive.ne'
  rw [← rounded] at low high
  constructor <;> linarith

/-- R163: between its breakpoints a segment stays between 0 and 100 %. -/
theorem wrapBetween_range (ascends : p.speed < q.speed) (first : p.wrap ≤ 1000) (last : q.wrap ≤ 1000)
    (after : 10 * p.speed ≤ v) (before : v ≤ 10 * q.speed) : 0 ≤ wrapBetween p q v ∧ wrapBetween p q v ≤ 1000 := by
  obtain ⟨low, high⟩ := wrapBetween_rounds ascends v
  have span : (0 : Int) < 10 * q.speed - 10 * p.speed := by omega
  have weights : wrapLine p q v = p.wrap * (10 * q.speed - v) + q.wrap * (v - 10 * p.speed) := by
    unfold wrapLine; ring
  have nonneg : 0 ≤ wrapLine p q v := by
    rw [weights]
    exact add_nonneg (mul_nonneg (by omega) (by omega)) (mul_nonneg (by omega) (by omega))
  have bounded : wrapLine p q v ≤ 1000 * (10 * q.speed - 10 * p.speed) := by
    rw [weights]
    nlinarith
  constructor
  · by_contra neg
    nlinarith
  · by_contra big
    nlinarith

/-- R163: a segment begins at the wrap of its first breakpoint. -/
theorem wrapBetween_start (ascends : p.speed < q.speed) : wrapBetween p q (10 * p.speed) = p.wrap := by
  have half : (10 * (q.speed : Int) - 10 * p.speed) / (2 * (10 * q.speed - 10 * p.speed)) = 0 :=
    Int.ediv_eq_zero_of_lt (by omega) (by omega)
  simp [wrapBetween, half]

/-- R48: a valid curve ascends, and its wraps lie within 0..1,000. -/
theorem Curve.valid_iff : c.valid = true ↔
    (∀ p ∈ [c.b0, c.b1, c.b2, c.b3], p.speed ≤ 450 ∧ p.wrap ≤ 1000)
      ∧ c.b0.speed < c.b1.speed ∧ c.b1.speed < c.b2.speed ∧ c.b2.speed < c.b3.speed := by
  simp [Curve.valid, inRange, and_assoc]

theorem Curve.target_first (valid : c.valid = true) (slow : v ≤ 10 * c.b0.speed) : c.target v = c.b0.wrap := by
  obtain ⟨ranges, -⟩ := Curve.valid_iff.mp valid
  have bound := (ranges c.b0 (by simp)).2
  rw [Curve.target, if_pos slow]
  omega

theorem Curve.target_last (valid : c.valid = true) (fast : 10 * c.b3.speed ≤ v) : c.target v = c.b3.wrap := by
  obtain ⟨ranges, up⟩ := Curve.valid_iff.mp valid
  have bound := (ranges c.b3 (by simp)).2
  rw [Curve.target, if_neg (by omega), if_pos fast]
  omega

/-- R163: between two breakpoints the target is the wrap of the segment. -/
theorem Curve.target_segment (valid : c.valid = true) (segment : (p, q) ∈ [(c.b0, c.b1), (c.b1, c.b2), (c.b2, c.b3)])
    (after : 10 * p.speed ≤ v) (before : v < 10 * q.speed) :
    p.speed < q.speed ∧ (c.target v : Int) = wrapBetween p q v := by
  obtain ⟨ranges, up0, up1, up2⟩ := Curve.valid_iff.mp valid
  simp only [List.mem_cons, Prod.mk.injEq, List.not_mem_nil, or_false] at segment ranges
  obtain ⟨rfl, rfl⟩ | ⟨rfl, rfl⟩ | ⟨rfl, rfl⟩ := segment
  · refine ⟨up0, ?_⟩
    by_cases at_ : v ≤ 10 * c.b0.speed
    · obtain rfl : v = 10 * c.b0.speed := by omega
      rw [Curve.target_first valid le_rfl, wrapBetween_start up0]
    · have range := wrapBetween_range up0 (ranges _ (by simp)).2 (ranges _ (by simp)).2 after before.le
      rw [Curve.target, if_neg at_, if_neg (by omega), if_pos before]
      omega
  · have range := wrapBetween_range up1 (ranges _ (by simp)).2 (ranges _ (by simp)).2 after before.le
    rw [Curve.target, if_neg (by omega), if_neg (by omega), if_neg (by omega), if_pos before]
    exact ⟨up1, by omega⟩
  · have range := wrapBetween_range up2 (ranges _ (by simp)).2 (ranges _ (by simp)).2 after before.le
    rw [Curve.target, if_neg (by omega), if_neg (by omega), if_neg (by omega), if_neg (by omega)]
    exact ⟨up2, by omega⟩

/-! ### The slew step of one preheater (R164) -/

/-- R164: a preheater after its slew step at a line speed. -/
def Preheater.slewed (x : Preheater) (speed slew : Nat) : Preheater :=
  match x.active with
  | none => x
  | some a => { x with
      target := some (a.curve.target speed)
      output := slewToward x.output (a.curve.target speed) slew }

theorem Preheater.slewed_idle {x : Preheater} (idle : x.active = none) (speed slew : Nat) : x.slewed speed slew = x := by
  rw [Preheater.slewed, idle]

theorem Preheater.slewed_active {x : Preheater} {a : WrapGrade} (active : x.active = some a) (speed slew : Nat) :
    x.slewed speed slew = { x with
      target := some (a.curve.target speed)
      output := slewToward x.output (a.curve.target speed) slew } := by
  rw [Preheater.slewed, active]

/-- The preheater k of s after its slew step at the speed and the slew of s. -/
def State.slewed (s : State) (k : Stand) : Preheater := (s.preheaters.get k).slewed s.speed (wrapSlew s.config)

theorem setPreheater_self (s : State) (k : Stand) : s.setPreheater k (s.preheaters.get k) = s := by cases k <;> rfl

/-- R164: a slew step takes the new target and output, and queues an output that has changed. -/
theorem slewStep_eq (s : State) (k : Stand) : s.slewStep k =
    if (s.slewed k).output = (s.preheaters.get k).output then s.setPreheater k (s.slewed k)
    else (s.setPreheater k (s.slewed k)).queueSetpoint (.ph k) (s.slewed k).output := by
  unfold State.slewStep State.slewed
  cases active : (s.preheaters.get k).active with
  | none =>
    rw [Preheater.slewed_idle active, if_pos rfl, setPreheater_self]
    simp only [active]
  | some a =>
    rw [Preheater.slewed_active active]
    simp only [active]

theorem slewStep_frame (s : State) (k : Stand) : s.slewStep k =
    { s.setPreheater k (s.slewed k) with link := (s.slewStep k).link, errors := (s.slewStep k).errors } := by
  rw [slewStep_eq]
  split
  · rfl
  · rw [State.queueSetpoint, enqueue_frame]

theorem slewStep_same (s : State) (k : Stand) : (s.slewStep k).preheaters.get k = s.slewed k := by
  rw [slewStep_frame]
  exact PerStand.get_set_same s.preheaters k _

theorem slewStep_other (s : State) (other : j ≠ k) : (s.slewStep k).preheaters.get j = s.preheaters.get j := by
  rw [slewStep_frame]
  exact PerStand.get_set_other s.preheaters _ other

/-- R164, R180: the BOND class after a slew step, where it has room. -/
theorem slewStep_bond (room : s.link.bond.length < 8) (k : Stand) : (s.slewStep k).link.bond =
    if (s.slewed k).output = (s.preheaters.get k).output then s.link.bond
    else s.bondAfter (.ph k) (s.slewed k).output := by
  rw [slewStep_eq, queueSetpoint_eq (s := s.setPreheater k _) (.inr room), apply_ite State.link, apply_ite Link.bond]
  rfl

/-! ### The slew steps together (R164) -/

/-- Neither the preheater of stand k nor what its slew step reads differs. -/
def PreheaterKept (k : Stand) (s t : State) : Prop :=
  t.preheaters.get k = s.preheaters.get k ∧ t.speed = s.speed ∧ t.config = s.config

theorem PreheaterKept.trans {u : State} (h : PreheaterKept k s t) (g : PreheaterKept k t u) : PreheaterKept k s u := by
  obtain ⟨preheater, speed, config⟩ := h
  obtain ⟨preheater', speed', config'⟩ := g
  exact ⟨preheater'.trans preheater, speed'.trans speed, config'.trans config⟩

theorem PreheaterKept.slewed (h : PreheaterKept k s t) : t.slewed k = s.slewed k := by
  obtain ⟨preheater, speed, config⟩ := h
  rw [State.slewed, preheater, speed, config]
  rfl

theorem slewStep_kept (other : k ≠ j) (s : State) : PreheaterKept k s (s.slewStep j) :=
  ⟨slewStep_other s other, by rw [slewStep_frame]; rfl, by rw [slewStep_frame]; rfl⟩

/-- R164: each preheater makes its one step at the speed and the slew before the steps. -/
theorem slewAll_preheater (s : State) (k : Stand) : s.slewAll.preheaters.get k = s.slewed k := by
  cases active : (s.preheaters.get k).active with
  | none =>
    have idle : PreheaterKept k s s.slewAll := by
      refine takeEvents_rel (R := PreheaterKept k) (fun _ => ⟨rfl, rfl, rfl⟩) (fun _ _ _ => .trans)
        (fun _ => ⟨rfl, rfl, rfl⟩) (fun j mem u => slewStep_kept ?_ u) s
      rintro rfl
      simp [active] at mem
    rw [idle.1, State.slewed, Preheater.slewed_idle active]
  | some a =>
    have mem : k ∈ Stand.all.filter fun k => (s.preheaters.get k).active.isSome :=
      List.mem_filter.mpr ⟨mem_standAll k, by rw [active]; rfl⟩
    obtain ⟨u, before, after, -⟩ := takeEvents_around (R := PreheaterKept k) (act := State.slewStep)
      (fun _ => ⟨rfl, rfl, rfl⟩) (fun _ _ _ => .trans) (fun _ => ⟨rfl, rfl, rfl⟩) (nodup_standAll.filter _) mem
      (fun j _ other u => slewStep_kept other.symm u) s
    exact after.trans ((slewStep_same u k).trans before.slewed)

/-- R164, R180: slew steps on their way from s, with the preheaters still to step: each of them finds room in the BOND class,
and an output that has changed waits there. -/
structure Slewing (s : State) (left : List Stand) (t : State) : Prop where
  nodup : left.Nodup
  room : t.link.bond.length + left.length ≤ 8
  before : ∀ k ∈ left, t.preheaters.get k = s.preheaters.get k
  queued : ∀ k, (t.preheaters.get k).output ≠ (s.preheaters.get k).output →
    Command.bondSetpoint (.ph k) (t.preheaters.get k).output ∈ t.link.bond

namespace Slewing

theorem perm (h : Slewing s left t) (same : left.Perm rest) : Slewing s rest t where
  nodup := same.nodup_iff.mp h.nodup
  room := by rw [← same.length_eq]; exact h.room
  before k mem := h.before k (same.mem_iff.mpr mem)
  queued := h.queued

/-- R164: the next preheater makes its step. -/
theorem step (h : Slewing s (k :: rest) t) : Slewing s rest (t.slewStep k) := by
  obtain ⟨fresh, nodup⟩ := List.nodup_cons.mp h.nodup
  have room := h.room
  rw [List.length_cons] at room
  have bond := slewStep_bond (s := t) (by omega) k
  refine ⟨nodup, ?_, fun j mem => ?_, fun j changed => ?_⟩
  · have := length_le_bondAfter (s := t) (u := .ph k) (v := (t.slewed k).output)
    rw [bond]
    split <;> omega
  · have other : j ≠ k := by rintro rfl; exact fresh mem
    rw [slewStep_other t other]
    exact h.before j (List.mem_cons_of_mem k mem)
  · by_cases same : j = k
    · subst same
      rw [slewStep_same] at changed ⊢
      rw [bond, if_neg (by rw [h.before j List.mem_cons_self]; exact changed)]
      exact mem_bondAfter_same.mpr rfl
    · rw [slewStep_other t same] at changed ⊢
      have waits := h.queued j changed
      rw [bond]
      split
      · exact waits
      · exact (mem_bondAfter_other fun eq => same (BondUnit.ph.inj eq)).mpr waits

end Slewing

/-- R164: where the BOND class has room for the five units, every output that has changed waits after the steps. -/
theorem slewAll_queued (room : s.link.bond.length ≤ 3)
    (changed : (s.slewAll.preheaters.get k).output ≠ (s.preheaters.get k).output) :
    Command.bondSetpoint (.ph k) (s.slewAll.preheaters.get k).output ∈ s.slewAll.link.bond := by
  have few : (Stand.all.filter fun k => (s.preheaters.get k).active.isSome).length ≤ 5 := List.length_filter_le _ _
  have taken := takeEvents_induct (act := State.slewStep) (Slewing s)
    (fun _ _ h => ⟨h.nodup, h.room, h.before, h.queued⟩)
    (fun _ _ _ lt h => (h.perm (List.getElem_cons_eraseIdx_perm lt).symm).step)
    (es := Stand.all.filter fun k => (s.preheaters.get k).active.isSome) (s := s)
    ⟨nodup_standAll.filter _, by omega, fun _ _ => rfl, fun _ differs => absurd rfl differs⟩
  exact taken.queued k changed

/-! ### The close before the slew steps (R3, R98) -/

theorem capAtClose_splice (s : State) : SpliceAt .l1 s s.capAtClose := by
  unfold State.capAtClose
  split
  · exact (SpliceAt.refl _ s).capRequest
  · exact SpliceAt.refl _ s

/-- R98, R109, R110: what a close brings about at the stands touches neither a preheater nor the BOND class. -/
theorem closeEvent_bond (e : CloseEvent) (s : State) :
    ((s.closeEvent e).preheaters, (s.closeEvent e).link.bond) = (s.preheaters, s.link.bond) := by
  cases e with
  | go j =>
    have h := WaitersOnly.goTest j s
    exact Prod.ext h.frame.preheaters (h.queues .bond (by decide))
  | cap =>
    have h := capAtClose_splice s
    exact Prod.ext h.frame.preheaters (h.queues .bond (by decide))
  | stale j =>
    rw [State.closeEvent, State.staleTest]
    repeat' split
    all_goals rfl

theorem staleAdvance_frame (s : State) (k : Stand) : s.staleAdvance k = { s with reels := (s.staleAdvance k).reels } := by
  unfold State.staleAdvance
  repeat' split
  all_goals rfl

theorem staleAdvanceAll_frame (s : State) : s.staleAdvanceAll = { s with reels := s.staleAdvanceAll.reels } := by
  have all (ks : List Stand) (s : State) :
      ks.foldl State.staleAdvance s = { s with reels := (ks.foldl State.staleAdvance s).reels } := by
    induction ks generalizing s with
    | nil => rfl
    | cons k ks ih => rw [List.foldl_cons, ih, staleAdvance_frame]
  unfold State.staleAdvanceAll
  split
  · rfl
  · exact all _ s

/-- R3: the state of a window close before the slew steps. -/
def State.closed (s : State) : State :=
  takeEvents State.closeEvent (closeEvents s.closeWindow.staleAdvanceAll) s.closeWindow.staleAdvanceAll

theorem windowClose_eq (s : State) : s.windowClose = s.closed.slewAll := rfl

theorem closed_bond (s : State) : (s.closed.preheaters, s.closed.link.bond) = (s.preheaters, s.link.bond) := by
  rw [State.closed, takeEvents_kept (fun s => (s.preheaters, s.link.bond)) (fun _ => rfl) closeEvent_bond,
    staleAdvanceAll_frame]
  rfl

theorem closed_evolves (s : State) : Evolves s.closeWindow s.closed :=
  (Evolves.refl _).staleAdvanceAll.takeEvents fun _ v => (Evolves.refl v).closeEvent

/-- R164: a preheater after a window close. -/
theorem windowClose_preheater (s : State) (k : Stand) : s.windowClose.preheaters.get k
    = (s.preheaters.get k).slewed (min 9999 (6 * s.delta)) (wrapSlew s.config) := by
  obtain ⟨preheaters, -⟩ := Prod.mk.inj (closed_bond s)
  rw [windowClose_eq, slewAll_preheater, State.slewed, preheaters, (closed_evolves s).speed, (closed_evolves s).config]
  rfl

/-- Settles O30. -/
theorem windowCloseSlewsThePreheaters : Obligations.WindowCloseSlewsThePreheaters := by
  intro s k
  refine ⟨s.windowClose, rfl, fun idle => ?_, fun a active => ?_, fun changed room => ?_, fun a active valid => ?_⟩
  · rw [windowClose_preheater, Preheater.slewed_idle idle]
  · rw [windowClose_preheater, Preheater.slewed_active active]
    rfl
  · obtain ⟨preheaters, bond⟩ := Prod.mk.inj (closed_bond s)
    rw [windowClose_eq] at changed ⊢
    exact slewAll_queued (by rwa [bond]) (by rwa [preheaters])
  · refine ⟨a.curve.target (min 9999 (6 * s.delta)), ?_, a.curve.target_le _, a.curve.target_first valid,
      a.curve.target_last valid, fun p q segment after before => ?_⟩
    · rw [windowClose_preheater, Preheater.slewed_active active]
    · obtain ⟨ascends, segment⟩ := a.curve.target_segment valid segment after before
      rw [segment]
      exact wrapBetween_rounds ascends _

end Sys2Proof.Machine
end

section
/-! PROOF. The arbiter and the frame of a command on LNK_TX (O52). -/

namespace Sys2Proof.Machine

open Sys2Proof

/-! ### The arbiter (R182) -/

section Arbiter

variable {l : Link} {c : LinkClass} {x : Command} {rest : List Command}

/-- R182: a class that is not empty has the turn where every class of a higher priority is empty. -/
theorem nextClass_eq_some (waits : l.queue c ≠ [])
    (first : ∀ d, linkClasses.idxOf d < linkClasses.idxOf c → l.queue d = []) : l.nextClass = some c := by
  have mem : c ∈ linkClasses := by cases c <;> decide
  refine List.find?_eq_some_iff_getElem.mpr
    ⟨by simpa using waits, linkClasses.idxOf c, List.idxOf_lt_length_iff.mpr mem, List.getElem_idxOf _, fun j before => ?_⟩
  have inside : j < linkClasses.length := before.trans_le List.idxOf_le_length
  have place : linkClasses.idxOf linkClasses[j] = j := List.Nodup.idxOf_getElem (by decide) j inside
  have empty : l.queue linkClasses[j] = [] := first _ (place.trans_lt before)
  simp [empty]

theorem nextClass_eq_none (empty : ∀ c, l.queue c = []) : l.nextClass = none :=
  List.find?_eq_none.mpr fun c _ => by simp [empty c]

theorem taken_head (free : l.place = none) (turn : l.nextClass = some c) (head : l.queue c = x :: rest) :
    l.taken = { l.setQueue c rest with place := some x } := by
  simp only [Link.taken, free, turn, head]

theorem taken_held (held : l.place.isSome = true) : l.taken = l := by
  obtain ⟨x, place⟩ := Option.isSome_iff_exists.mp held
  simp only [Link.taken, place]

theorem taken_empty (idle : l.nextClass = none) : l.taken = l := by
  rw [Link.taken, idle]
  split
  · next turn => cases turn
  · rfl

end Arbiter

theorem exec_arbiterTake {s : State} {l : Link} (taken : s.link.taken = l) :
    exec .arbiterTake s = .next { s with link := l } := taken ▸ rfl

/-! ### The bits of bytes on the link (R174) -/

theorem linkData_length (b : Byte) :
    (if Config.linkMsbFirst then bitsOfByte b else (bitsOfByte b).reverse).length = 8 := by
  split <;> rfl

theorem linkBits_length (b : Byte) : (linkBits b).length = 10 := by
  rw [linkBits, List.length_cons, List.length_append, linkData_length, List.length_singleton]

theorem bitsOfByte_getElem? (b : Byte) {j : Nat} (h : j < 8) : (bitsOfByte b)[j]? = some (b.getLsbD (7 - j)) := by
  have inside : j < (bitsOfByte b).length := h
  rw [← bitsOfByte_getD b h, List.getElem?_eq_getElem inside, List.getD_eq_getElem _ _ inside]

/-- R174: the data bits of a byte, in the order that Config gives. -/
theorem linkData_getElem? (b : Byte) {j : Nat} (h : j < 8) :
    (if Config.linkMsbFirst then bitsOfByte b else (bitsOfByte b).reverse)[j]?
      = some (b.getLsbD (if Config.linkMsbFirst then 7 - j else j)) := by
  split
  · exact bitsOfByte_getElem? b h
  · have mirror : 7 - (7 - j) = j := by omega
    rw [List.getElem?_reverse h, show (bitsOfByte b).length - 1 - j = 7 - j from rfl,
      bitsOfByte_getElem? b (by omega), mirror]

theorem linkBits_start (b : Byte) : (linkBits b)[0]? = some Config.linkStartLevel := rfl

theorem linkBits_data (b : Byte) {j : Nat} (h : j < 8) :
    (linkBits b)[1 + j]? = some (b.getLsbD (if Config.linkMsbFirst then 7 - j else j)) := by
  rw [linkBits, Nat.add_comm, List.getElem?_cons_succ, List.getElem?_append_left ((linkData_length b).symm ▸ h),
    linkData_getElem? b h]

theorem linkBits_stop (b : Byte) : (linkBits b)[9]? = some (!Config.linkStartLevel) := by
  rw [linkBits, List.getElem?_cons_succ, List.getElem?_append_right (linkData_length b).le, linkData_length]
  rfl

theorem linkBitsOf_length (bytes : List Byte) : (linkBitsOf bytes).length = 10 * bytes.length := by
  induction bytes with
  | nil => rfl
  | cons b bs ih =>
    rw [linkBitsOf, List.flatMap_cons, List.length_append, linkBits_length, ← linkBitsOf, ih, List.length_cons]
    omega

/-- R174: the bits of the i-th byte stand behind the ten bits of each byte before it. -/
theorem linkBitsOf_getElem? (bytes : List Byte) {i j : Nat} (hi : i < bytes.length) (hj : j < 10) :
    (linkBitsOf bytes)[10 * i + j]? = (linkBits (bytes.getD i 0#8))[j]? := by
  induction bytes generalizing i with
  | nil => cases hi
  | cons b bs ih =>
    have width := linkBits_length b
    rw [linkBitsOf, List.flatMap_cons, ← linkBitsOf]
    cases i with
    | zero => rw [Nat.mul_zero, Nat.zero_add, List.getElem?_append_left (width.symm ▸ hj), List.getD_cons_zero]
    | succ i =>
      have behind : 10 * (i + 1) + j - 10 = 10 * i + j := by omega
      rw [List.getElem?_append_right (by omega), width, behind, ih (Nat.lt_of_succ_lt_succ hi), List.getD_cons_succ]

/-- Settles O52. -/
theorem arbiterTakesByPriority : Obligations.ArbiterTakesByPriority := by
  refine fun s => ⟨fun c x rest free head first => ?_, fun bytes i inside => ?_, fun free => ?_, fun held => ?_,
    fun empty => ?_⟩
  · have turn : s.link.nextClass = some c := nextClass_eq_some (head ▸ List.cons_ne_nil x rest) first
    exact ⟨_, exec_arbiterTake (taken_head free turn head), rfl, rfl, Config.enumCode .commandKind (commandIndex x), rfl⟩
  · refine ⟨linkBitsOf_length bytes, ?_, fun j low => ?_, ?_⟩
    · exact (linkBitsOf_getElem? bytes inside (by decide)).trans (linkBits_start _)
    · rw [Nat.add_assoc, linkBitsOf_getElem? bytes inside (by omega), linkBits_data _ low]
    · rw [linkBitsOf_getElem? bytes inside (by decide), linkBits_stop]
  · simp only [State.lnkDeHigh, State.lnkTx, free, Option.isSome_none, and_self]
  · exact exec_arbiterTake (taken_held held)
  · exact exec_arbiterTake (taken_empty (nextClass_eq_none empty))

end Sys2Proof.Machine
end

section
/-! PROOF. The report receiver (O54): the bytes of a frame are taken in up to its last check byte, the tests of R177 on a
complete frame, and the pair at rest. -/

namespace Sys2Proof.Machine

open Sys2Proof

variable {s t : State}

/-! ### The bytes of a frame (R174) -/

theorem exec_malformedReport_bytes (s : State) (bytes : List Byte) :
    exec (.malformedReport (linkBitsOf bytes)) s = .next (s.receive (bytes.map some)) := by
  rw [exec, execMalformedReport, heardAtLnkRx_linkBitsOf]

/-- A state whose receiver waits is the one that it is after a reception. -/
theorem receiver_ended (waits : s.receiver = none) (r : Option Reception) :
    ({ ({ s with receiver := r } : State) with receiver := none } : State) = s := by
  cases s; cases waits; rfl

/-- A frame that is complete stays so with further bytes: its length byte has come. -/
theorem frameComplete_mono {a b : List Byte} (start : a <+: b) (complete : frameComplete a = true) :
    frameComplete b = true := by
  obtain ⟨more, rfl⟩ := start
  simp only [frameComplete, Bool.and_eq_true, decide_eq_true_iff, List.length_append] at complete ⊢
  obtain ⟨head, full⟩ := complete
  have same : byteAt (a ++ more) 2 = byteAt a 2 := by rw [byteAt, List.getD_append _ _ _ _ (by omega), byteAt]
  omega

theorem receiveByte_incomplete {bs : List Byte} {b : Byte} {n : Nat} (receives : s.receiver = some ⟨bs, n⟩)
    (incomplete : frameComplete (bs ++ [b]) = false) :
    s.receiveByte b = { s with receiver := some ⟨bs ++ [b], 0⟩ } := by
  simp only [State.receiveByte, receives, incomplete, Bool.false_eq_true, if_false]

theorem receiveByte_complete {bs : List Byte} {b : Byte} {n : Nat} (receives : s.receiver = some ⟨bs, n⟩)
    (complete : frameComplete (bs ++ [b]) = true) :
    s.receiveByte b = State.reportFrame { s with receiver := none } (bs ++ [b]) := by
  simp only [State.receiveByte, receives, complete, if_true]

/-- R174: the bytes behind a start delimiter are kept for as long as they make no complete frame. -/
theorem receive_incomplete (waits : s.receiver = none) (bs : List Byte) (incomplete : frameComplete bs = false) :
    s.receive ((Config.startDelimiter :: bs).map some) = { s with receiver := some ⟨bs, 0⟩ } := by
  induction bs using List.reverseRecOn with
  | nil => simp only [State.receive, List.map_cons, List.map_nil, List.foldl_cons, List.foldl_nil, State.receiveOne,
      State.receiveByte, waits, if_true]
  | append_singleton bs b ih =>
    have earlier : frameComplete bs = false :=
      Bool.eq_false_iff.mpr fun complete =>
        Bool.eq_false_iff.mp incomplete (frameComplete_mono ⟨[b], rfl⟩ complete)
    rw [← List.cons_append, List.map_append, receive_append, ih earlier]
    exact receiveByte_incomplete (s := { s with receiver := some ⟨bs, 0⟩ }) rfl incomplete

/-- R174: the byte that completes a frame hands it to the tests, and the receiver waits again. -/
theorem receive_complete (waits : s.receiver = none) {bs : List Byte} {b : Byte} (incomplete : frameComplete bs = false)
    (complete : frameComplete (bs ++ [b]) = true) :
    s.receive ((Config.startDelimiter :: (bs ++ [b])).map some) = s.reportFrame (bs ++ [b]) := by
  rw [← List.cons_append, List.map_append, receive_append, receive_incomplete waits bs incomplete]
  refine (receiveByte_complete (s := { s with receiver := some ⟨bs, 0⟩ }) rfl complete).trans ?_
  rw [receiver_ended waits]

section Frame

variable {f : LinkFrame} {check : List Byte}

/-- R174: without its last check byte a frame is incomplete. -/
theorem frameComplete_firstCheckByte (short : f.body.length < 256) (c : Byte) : frameComplete (f.checked ++ [c]) = false :=
  Bool.eq_false_iff.mpr fun complete => absurd ((frameComplete_iff f [c] short).mp complete) (by decide : ¬ 2 ≤ 1)

/-- R174: a part of a frame is incomplete. -/
theorem frameComplete_take (short : f.body.length < 256) (two : check.length = 2) {n : Nat}
    (part : n < (f.checked ++ check).length) : frameComplete ((f.checked ++ check).take n) = false := by
  obtain ⟨c, d, rfl⟩ := List.length_eq_two.mp two
  have split : f.checked ++ [c, d] = (f.checked ++ [c]) ++ [d] := by simp
  rw [split] at part ⊢
  have within : n ≤ (f.checked ++ [c]).length := by
    rw [List.length_append, List.length_singleton] at part
    exact Nat.le_of_lt_succ part
  rw [List.take_append_of_le_length within]
  exact Bool.eq_false_iff.mpr fun complete =>
    Bool.eq_false_iff.mp (frameComplete_firstCheckByte short c) (frameComplete_mono ⟨_, List.take_append_drop n _⟩ complete)

/-- R174: the bits of a whole frame bring it to the tests. -/
theorem exec_wholeFrame (waits : s.receiver = none) (short : f.body.length < 256) (two : check.length = 2) :
    exec (.malformedReport (linkBitsOf (Config.startDelimiter :: (f.checked ++ check)))) s
      = .next (s.reportFrame (f.checked ++ check)) := by
  have complete : frameComplete (f.checked ++ check) = true := (frameComplete_iff f check short).mpr two.ge
  obtain ⟨c, d, rfl⟩ := List.length_eq_two.mp two
  have split : f.checked ++ [c, d] = (f.checked ++ [c]) ++ [d] := by simp
  rw [exec_malformedReport_bytes]
  rw [split] at complete ⊢
  rw [receive_complete waits (frameComplete_firstCheckByte short c) complete]

/-! ### The tests of a complete frame (R177) -/

variable {src : Source} {k : ReportKind}

theorem frame_bytes_iff : f.bytes = f.checked ++ check ↔ check = bytesOf 2 (Config.frameCheck f.checked).toNat := by
  rw [LinkFrame.bytes, List.append_cancel_left_eq, eq_comm]

theorem testFrame_wrongCheck (short : f.body.length < 256)
    (wrong : check ≠ bytesOf 2 (Config.frameCheck f.checked).toNat) : testFrame (f.checked ++ check) = .error .none := by
  have other : f.bytes ≠ f.checked ++ check := fun same => wrong (frame_bytes_iff.mp same)
  simp only [testFrame, frameOf_checked f check short, if_pos other]

theorem testFrame_unknownSource (short : f.body.length < 256) (unknown : sourceOf f.address.toNat = none) :
    testFrame (f.checked ++ check) = .error .none := by
  simp only [testFrame, frameOf_checked f check short, unknown, ite_self]

/-- R177, log entry 48: a body above 48 bytes fails the length test of every kind. -/
theorem reportLengthOk_long {body : List Byte} (long : 48 < body.length) (k : ReportKind) :
    reportLengthOk k body = false := by
  have bound : decide (body.length ≤ Config.maxLinkBody) = false := decide_eq_false (Nat.not_le_of_lt long)
  unfold reportLengthOk
  rw [bound, Bool.false_and]

section RightCheck

variable (short : f.body.length < 256) (right : check = bytesOf 2 (Config.frameCheck f.checked).toNat)
  (source : sourceOf f.address.toNat = some src)

include short right source

theorem testFrame_unknownKind (unknown : reportKindOf f.kind = none) :
    testFrame (f.checked ++ check) = .error src.object := by
  simp only [testFrame, frameOf_checked f check short, frame_bytes_iff.mpr right, ne_eq, not_true_eq_false, if_false, source,
    unknown]

theorem testFrame_knownKind (kind : reportKindOf f.kind = some k) : testFrame (f.checked ++ check)
    = if src.sends k && reportLengthOk k f.body && reportRangesOk k f.body then .ok (src, k) else .error src.object := by
  simp only [testFrame, frameOf_checked f check short, frame_bytes_iff.mpr right, ne_eq, not_true_eq_false, if_false, source,
    kind]

/-- R177, log entry 48: a frame of a known source that fails a test of its kind, its length or its fields. -/
theorem testFrame_failed (fails : ∀ k, reportKindOf f.kind = some k → src.sends k = false ∨ 48 < f.body.length
      ∨ reportLengthOk k f.body = false ∨ reportRangesOk k f.body = false) :
    testFrame (f.checked ++ check) = .error src.object := by
  cases kind : reportKindOf f.kind with
  | none => exact testFrame_unknownKind short right source kind
  | some k =>
    rw [testFrame_knownKind short right source kind]
    refine if_neg fun passes => ?_
    simp only [Bool.and_eq_true] at passes
    obtain ⟨⟨sends, length⟩, ranges⟩ := passes
    rcases fails k kind with unsent | long | wrong | beyond
    · exact absurd sends (Bool.eq_false_iff.mp unsent)
    · exact absurd length (Bool.eq_false_iff.mp (reportLengthOk_long long k))
    · exact absurd length (Bool.eq_false_iff.mp wrong)
    · exact absurd ranges (Bool.eq_false_iff.mp beyond)

/-- R178: a frame that passes every test is handed on. -/
theorem reportFrame_passed (kind : reportKindOf f.kind = some k) (sends : src.sends k = true)
    (length : reportLengthOk k f.body = true) (ranges : reportRangesOk k f.body = true) :
    s.reportFrame (f.checked ++ check) = s.routeReport src k f.body := by
  have passed := testFrame_knownKind short right source kind
  rw [sends, length, ranges] at passed
  simp only [State.reportFrame, passed, Bool.and_self, if_true, frameOf_checked f check short]

end RightCheck

theorem reportFrame_error {bs : List Byte} {o : ErrorObject} (failed : testFrame bs = .error o) :
    s.reportFrame bs = s.raise .reportInvalid o := by
  simp only [State.reportFrame, failed, State.reportInvalid]

/-! ### The hand-on of a report (R176, R178) -/

/-- R176: two bytes hold no value above 65,535. -/
theorem field_two_le (body : List Byte) (off : Nat) : field body off 2 ≤ 65535 := by
  have width : ((body.drop off).take 2).length ≤ 2 := List.length_take_le 2 _
  have bound := (bigEndian_lt ((body.drop off).take 2)).trans_le (Nat.pow_le_pow_right (by decide) width)
  exact Nat.le_of_lt_succ bound

/-- R176: the range test of REEL_LOADED bounds the read id. -/
theorem reelLoaded_id_le {body : List Byte} (ranges : reportRangesOk .reelLoaded body = true) :
    field body 1 4 ≤ 99999999 := by
  simp only [reportRangesOk, Bool.and_eq_true, decide_eq_true_iff] at ranges
  obtain ⟨-, id⟩ := ranges
  exact id

/-- R176: the positions of a body that passes the range test are accepted. -/
theorem positionsAccepted_body {body : List Byte} (ranges : reportRangesOk .setPositions body = true) :
    positionsAccepted (positionsAt body 1 (byteAt body 0)) = true := by
  have few : byteAt body 0 ≤ 20 := of_decide_eq_true ranges
  refine positionsAccepted_of (by simpa only [positionsAt, List.length_map, List.length_range] using few) fun v mem => ?_
  obtain ⟨i, -, rfl⟩ := List.mem_map.mp mem
  exact field_two_le body _

/-- R175: a slitter station sends SET_POSITIONS alone, the stacker STACK_TAKEN alone. -/
theorem station_sends {x : Station} : ∀ {k : ReportKind}, (Source.station x).sends k = true → k = .setPositions
  | .setPositions, _ => rfl

theorem stacker_sends : ∀ {k : ReportKind}, Source.stacker.sends k = true → k = .stackTaken
  | .stackTaken, _ => rfl

/-- R176, R178: the report of a stand does what its row does. -/
theorem routeReport_stand {body : List Byte} {st : Stand} {p : Pos} (pos : posOf (byteAt body 0) = some p)
    (ranges : reportRangesOk k body = true) :
    (k = .reelLoaded → .next (s.routeReport (.stand st) k body) = exec (.reelLoaded st p (field body 1 4)) s)
    ∧ (k = .reelRemoved → .next (s.routeReport (.stand st) k body) = exec (.reelRemoved st p) s)
    ∧ (k = .diameter → .next (s.routeReport (.stand st) k body) = exec (.diameter st p (field body 1 2)) s) := by
  refine ⟨?_, ?_, ?_⟩
  · rintro rfl
    rw [exec_reelLoaded (reelLoaded_id_le ranges)]
    simp only [State.routeReport, pos]
  · rintro rfl
    simp only [State.routeReport, pos]
    rfl
  · rintro rfl
    rw [exec_diameter (field_two_le body 1)]
    simp only [State.routeReport, pos]

theorem routeReport_station {body : List Byte} {x : Station} (ranges : reportRangesOk .setPositions body = true) :
    .next (s.routeReport (.station x) .setPositions body)
      = exec (.setPositions x (positionsAt body 1 (byteAt body 0))) s :=
  (exec_setPositions (positionsAccepted_body ranges)).symm

end Frame

/-! ### The pair at rest (R174) -/

/-- R174: behind the bytes of one part of the levels, rest and the other part come as if they came by themselves. -/
theorem exec_malformedReport_pieces {a : List Byte} (first : exec (.malformedReport (linkBitsOf a)) s = .next t)
    (n : Nat) (b : List Bool) :
    exec (.malformedReport (linkBitsOf a ++ List.replicate n (!Config.linkStartLevel) ++ b)) s
      = exec (.malformedReport b) (t.receive (List.replicate n none)) := by
  rw [exec_malformedReport_bytes] at first
  cases first
  rw [exec, execMalformedReport, List.append_assoc, heardAtLnkRx_append, heardAtLnkRx_rest, receive_append, receive_append]
  rfl

/-- R177: a frame in reception that is ended is malformed. -/
theorem endReception_receiving {r : Reception} (receives : s.receiver = some r) :
    s.endReception = ({ s with receiver := none } : State).raise .reportInvalid .none := by
  simp only [State.endReception, receives, State.reportInvalid]

theorem endReception_waiting (waits : s.receiver = none) : s.endReception = s := by
  simp only [State.endReception, waits]

/-- Log entry 8: bytes without a start delimiter are passed over between two frames. -/
theorem receive_passedOver (waits : s.receiver = none) {bytes : List Byte} (without : Config.startDelimiter ∉ bytes) :
    s.receive (bytes.map some) = s := by
  induction bytes with
  | nil => rfl
  | cons b bs ih =>
    obtain ⟨other, without⟩ := List.ne_and_not_mem_of_not_mem_cons without
    have passed : s.receiveByte b = s := by simp only [State.receiveByte, waits, if_neg other.symm]
    rw [List.map_cons, State.receive, List.foldl_cons, State.receiveOne, passed]
    exact ih without

/-! ### Report rows with a field out of its range (log entry 34) -/

theorem exec_reelLoaded_beyond {k : Stand} {p : Pos} {id : Nat} (beyond : 99999999 < id) :
    exec (.reelLoaded k p id) s = .next (s.raise .reportInvalid (.stand k)) :=
  congrArg Host.Outcome.next (if_pos beyond)

theorem exec_setPositions_beyond {st : Station} {xs : List Nat} (beyond : 20 < xs.length ∨ ∃ x ∈ xs, 65535 < x) :
    exec (.setPositions st xs) s = .next (s.raise .reportInvalid (.station st)) := by
  refine congrArg Host.Outcome.next (if_neg fun accepted => ?_)
  simp only [positionsAccepted, Bool.and_eq_true, decide_eq_true_iff, List.all_eq_true] at accepted
  obtain ⟨few, narrow⟩ := accepted
  rcases beyond with many | ⟨x, mem, wide⟩
  · exact absurd few (Nat.not_le_of_lt many)
  · exact absurd (narrow x mem) (Nat.not_le_of_lt wide)

/-- Settles O54: a whole frame reaches the tests of R177, whose outcome is an error or the hand-on of its report; rest behind
a part of a frame is taken in before what follows. -/
theorem badReportsAreDiscarded : Obligations.BadReportsAreDiscarded := by
  refine ⟨fun s f check waits short two => ?_, fun s t a b n first => ?_, fun s => ⟨fun bytes waits without => ?_,
    fun r receives => ?_, fun waits => ?_, fun id k p beyond => exec_reelLoaded_beyond beyond,
    fun st xs beyond => exec_setPositions_beyond beyond⟩⟩
  · intro right arrives
    have tested : arrives = .next (s.reportFrame (f.checked ++ check)) := exec_wholeFrame waits short two
    rw [tested]
    refine ⟨fun bad => ?_, fun src intact source fails => ?_, fun src k intact source kind sends length ranges => ?_,
      fun n part => ?_⟩
    · rcases bad with wrong | unknown
      · rw [reportFrame_error (testFrame_wrongCheck short wrong)]
      · rw [reportFrame_error (testFrame_unknownSource short unknown)]
    · rw [reportFrame_error (testFrame_failed short intact source fails)]
    · rw [reportFrame_passed short intact source kind sends length ranges]
      refine ⟨?_, ?_, ?_⟩
      · rintro st p rfl pos
        exact routeReport_stand pos ranges
      · rintro x rfl
        cases station_sends sends
        exact routeReport_station ranges
      · rintro rfl
        cases stacker_sends sends
        rfl
    · rw [exec_malformedReport_bytes, receive_incomplete waits _ (frameComplete_take short two part)]
  · intro goesOnAs
    have goesOn : goesOnAs (t.receive (List.replicate n none)) := exec_malformedReport_pieces first n b
    refine ⟨fun quiet => ?_, fun r receives => ⟨fun within => ?_, fun rests beyond => ?_⟩⟩
    · rcases quiet with waits | rfl
      · rwa [receive_rest_waiting t n waits] at goesOn
      · exact goesOn
    · rwa [receive_rest_within n t r receives within] at goesOn
    · rwa [receive_rest_beyond n t r receives rests beyond, endReception_receiving receives] at goesOn
  · rw [exec_malformedReport_bytes, receive_passedOver waits without]
  · exact congrArg Host.Outcome.next (endReception_receiving receives)
  · exact congrArg Host.Outcome.next (endReception_waiting waits)

end Sys2Proof.Machine
end

section
/-! PROOF. The frames of requests: a frame reads back as its request (O3), and a frame that fails a test of R190 is refused
(O4). -/

namespace Sys2Proof.Machine

open Sys2Proof

/-! ### The table of kinds (R190, R192) -/

theorem requestOf_of_parts {i : Instr} {kind : Nat} {body : List Byte} (parts : requestParts i = some (kind, body)) :
    ∃ make, requestOf kind = some make ∧ make body = i := by
  cases i <;> cases parts <;> exact ⟨_, rfl, rfl⟩

theorem mem_requestKinds {kind : Nat} {make : List Byte → Instr} (row : requestOf kind = some make) :
    kind ∈ requestKinds := by
  unfold requestOf at row
  split at row
  case h_40 => cases row
  all_goals decide

/-- R192: every kind is one byte. -/
theorem requestKinds_lt : ∀ kind ∈ requestKinds, kind < 256 := by decide

/-- R190: a body of the length that its kind asks for is no longer than 124 bytes. -/
theorem body_length_le {i : Instr} {kind : Nat} {body : List Byte} (parts : requestParts i = some (kind, body))
    (ok : i.bodyLengthOk = true) : body.length ≤ maxBody := by
  unfold maxBody
  cases i <;> cases parts <;>
    simp only [Instr.bodyLengthOk, orderBodyLengthOk, Bool.and_eq_true, decide_eq_true_eq] at ok <;> omega

theorem parseFrame_requestFrame {i : Instr} {kind : Nat} {body : List Byte}
    (parts : requestParts i = some (kind, body)) (ok : i.bodyLengthOk = true) (extra : List Byte) :
    parseFrame (requestFrame kind body ++ extra) = some i := by
  obtain ⟨make, row, rfl⟩ := requestOf_of_parts parts
  have long : body.length ≤ 124 := body_length_le parts ok
  have len : (BitVec.ofNat 8 body.length).toNat = body.length := Nat.mod_eq_of_lt (by omega)
  have code : (BitVec.ofNat 8 kind).toNat = kind := Nat.mod_eq_of_lt (requestKinds_lt _ (mem_requestKinds row))
  have fits : body.length ≤ maxBody ∧ body.length ≤ (body ++ extra).length := ⟨long, by simp⟩
  simp only [requestFrame, List.cons_append, parseFrame, len, code, row, if_pos fits, List.take_left', ok, if_true]

/-! ### The end of an exchange (R189, R190) -/

theorem exec_exchange (bits : List Bool) (s : State) :
    exec (.requestFrameRefused bits) s = .next (s.exchangeEnds (bytesOfBits bits)) := rfl

/-- Log entry 7: a frame that passes the tests is taken as its request. -/
theorem exchangeEnds_parsed {frame : List Byte} {i : Instr} (parsed : parseFrame frame = some i) (s : State) :
    s.exchangeEnds frame = takeRequest i s := by
  cases frame with
  | nil => cases parsed
  | cons kind rest => simp only [State.exchangeEnds, parsed]

/-- Log entry 25: a frame that fails a test is refused under its own kind byte. -/
theorem exchangeEnds_refused {kind : Byte} {rest : List Byte} (fails : parseFrame (kind :: rest) = none) (s : State) :
    s.exchangeEnds (kind :: rest) = s.respond kind .format [] := by
  simp only [State.exchangeEnds, fails]

/-- Settles O3: the port reads the bytes of the frame off its bits, and the request off its bytes. -/
theorem requestFrameReadsBack : Obligations.RequestFrameReadsBack := by
  intro i kind body extra last s parts ok short
  have parsed := parseFrame_requestFrame parts ok extra
  refine ⟨parsed, ?_⟩
  rw [exec_exchange, bytesOfBits_bitsOfBytes _ _ short, exchangeEnds_parsed parsed,
    exec_request (Option.isSome_of_eq_some parts)]

/-! ### Bits and bytes (R189) -/

/-- Bits in groups of eight are the bits of bytes. -/
theorem exists_bytes_of_whole : ∀ bits : List Bool, bits.length % 8 = 0 → ∃ bs, bits = bitsOfBytes bs
  | [], _ => ⟨[], rfl⟩
  | [_], whole | [_, _], whole | [_, _, _], whole | [_, _, _, _], whole | [_, _, _, _, _], whole
  | [_, _, _, _, _, _], whole | [_, _, _, _, _, _, _], whole => by simp at whole
  | b7 :: b6 :: b5 :: b4 :: b3 :: b2 :: b1 :: b0 :: rest, whole => by
    obtain ⟨bs, rfl⟩ := exists_bytes_of_whole rest (by simp only [List.length_cons] at whole; omega)
    exact ⟨BitVec.ofBoolListBE [b7, b6, b5, b4, b3, b2, b1, b0] :: bs, by
      simp [bitsOfBytes, bitsOfByte, BitVec.ofBoolListBE]⟩

theorem getD_bitsOfByte (b : Byte) : ∀ n < 8, (bitsOfByte b).getD n false = b.getMsbD n
  | 0, _ | 1, _ | 2, _ | 3, _ | 4, _ | 5, _ | 6, _ | 7, _ => rfl
  | _ + 8, h => absurd h (by omega)

/-- R189: bit j of byte i is the one at edge 7 - j of that byte. -/
theorem getLsbD_byte {j : Nat} (inside : j < 8) : ∀ (bs : List Byte) (i : Nat), i < bs.length →
    (bs.getD i 0#8).getLsbD j = (bitsOfBytes bs).getD (8 * i + (7 - j)) false
  | b :: bs, 0, _ => by
    have first : (bitsOfBytes (b :: bs)).getD (8 * 0 + (7 - j)) false = (bitsOfByte b).getD (7 - j) false := by
      rw [bitsOfBytes, List.flatMap_cons, List.getD_append _ _ _ _ (by simp [bitsOfByte]; omega), Nat.mul_zero,
        Nat.zero_add]
    rw [first, getD_bitsOfByte b _ (by omega), BitVec.getMsbD_eq_getLsbD, show 8 - 1 - (7 - j) = j by omega,
      decide_eq_true (by omega), Bool.true_and]
    rfl
  | b :: bs, i + 1, h => by
    rw [show 8 * (i + 1) + (7 - j) = 8 * i + (7 - j) + 8 by omega]
    exact getLsbD_byte inside bs i (Nat.lt_of_succ_lt_succ h)

/-! ### Frames that fail a test (R190) -/

theorem parseFrame_fails {kind len : Byte} {rest : List Byte}
    (bad : 124 < len.toNat ∨ rest.length < len.toNat ∨ kind.toNat ∉ requestKinds
      ∨ (∃ make, requestOf kind.toNat = some make ∧ (make (rest.take len.toNat)).bodyLengthOk = false)) :
    parseFrame (kind :: len :: rest) = none := by
  rw [parseFrame]
  rcases bad with long | short | unknown | ⟨make, row, wrong⟩
  · exact if_neg fun fits => absurd fits.1 (Nat.not_le_of_lt long)
  · exact if_neg fun fits => absurd fits.2 (Nat.not_le_of_lt short)
  · have none : requestOf kind.toNat = none :=
      Option.eq_none_iff_forall_ne_some.mpr fun _ row => unknown (mem_requestKinds row)
    rw [none, ite_self]
  · rw [row]
    simp only [wrong, Bool.false_eq_true, if_false, ite_self]

/-- Settles O4: whole groups of eight bits are the bits of bytes, and what the bytes hold decides. -/
theorem badFramesAreRefusedWithFormat : Obligations.BadFramesAreRefusedWithFormat := by
  intro s last short
  have carried (bs : List Byte) : bytesOfBits (bitsOfBytes bs ++ last) = bs := bytesOfBits_bitsOfBytes bs last short
  have refused {kind : Byte} {rest : List Byte} (fails : parseFrame (kind :: rest) = none) :
      exec (.requestFrameRefused (bitsOfBytes (kind :: rest) ++ last)) s = .next (s.respond kind .format []) := by
    rw [exec_exchange, carried, exchangeEnds_refused fails]
  refine ⟨?_, fun bits whole => ?_, fun kind => ?_, fun kind len rest bad => ?_⟩
  · rw [exec_exchange, bytesOfBits_incomplete last short]; rfl
  · obtain ⟨bs, rfl⟩ := exists_bytes_of_whole bits whole
    have alone : bytesOfBits (bitsOfBytes bs) = bs := by
      simpa using bytesOfBits_bitsOfBytes bs [] (by decide)
    have count : (bitsOfBytes bs).length / 8 = bs.length := by rw [length_bitsOfBytes]; omega
    rw [exec_exchange, exec_exchange, carried, alone, count]
    exact ⟨rfl, rfl, fun i j inside bit => getLsbD_byte bit bs i inside⟩
  · exact refused (rest := []) rfl
  · exact refused (parseFrame_fails bad)

end Sys2Proof.Machine
end

section
/-! PROOF. A request that is not taken changes nothing but the pending response (O5). -/

namespace Sys2Proof.Machine

open Sys2Proof

/-! ### Answers that are taken (R191) -/

/-- The answer is a refusal, or the request is taken with OK or CLAMPED. -/
def Answer.Granted : Answer → Prop
  | .error _ => True
  | .ok r => r.status = .ok ∨ r.status = .clamped

namespace Answer

@[simp] theorem granted_error {st : Status} : Answer.Granted (.error st) := trivial

@[simp] theorem granted_done {s : State} {b : List Byte} : Answer.Granted (done s b) := Or.inl rfl

@[simp] theorem granted_refuseIf {test : Bool} {st : Status} {a : Answer} :
    Answer.Granted (refuseIf test st a) ↔ (test = false → Answer.Granted a) := by
  cases test <;> simp [refuseIf]

/-- R191: what is answered otherwise was refused, which writes the pending response alone. -/
theorem Granted.refused {a : Answer} (h : a.Granted) {k : Nat} {s : State} (notOk : (answered k s a).port.status ≠ .ok)
    (notClamped : (answered k s a).port.status ≠ .clamped) :
    answered k s a = s.respond (BitVec.ofNat 8 k) (answered k s a).port.status [] := by
  cases a with
  | error st => rfl
  | ok r => exact (h.elim notOk notClamped).elim

end Answer

/-! ### The requests -/

section Requests

variable {s : State} {b : List Byte}

theorem answerConfigure_granted : (answerConfigure b s).Granted := by
  have reply (ps : List ConfigPair) : (configReply s ps).status = .ok ∨ (configReply s ps).status = .clamped := by
    simp only [configReply]
    split <;> simp
  simp only [answerConfigure, Answer.granted_refuseIf]
  exact fun _ _ _ _ => reply _

theorem answerAmendOrder_granted : (answerAmendOrder b s).Granted := by
  have waiting (d : OrderDef) (o : Order) : (answerAmendWaiting d o s).Granted := by simp [answerAmendWaiting]
  have running (d : OrderDef) (o : Order) : (answerAmendRunning d o s).Granted := by simp [answerAmendRunning]
  simp only [answerAmendOrder, Answer.granted_refuseIf]
  intro _
  split
  · trivial
  · split
    · trivial
    · exact waiting _ _
    · exact waiting _ _
    · exact running _ _
    · exact running _ _

theorem answerScheduleOrder_granted : (answerScheduleOrder b s).Granted := by
  have placed (n place a : Nat) : (scheduleAt n place a s).Granted := Answer.granted_done
  simp only [answerScheduleOrder, Answer.granted_refuseIf]
  intro _ _
  split
  · trivial
  · rw [Answer.granted_refuseIf]
    intro _
    split
    · rw [Answer.granted_refuseIf]
      intro _
      split
      · trivial
      · exact Answer.granted_refuseIf.mpr fun _ => placed _ _ _
    · exact placed _ _ _

theorem answerCancelOrder_granted : (answerCancelOrder b s).Granted := by
  have running (n : Nat) (o : Order) : (answerCancelRunning n o s).Granted := by simp [answerCancelRunning]
  simp only [answerCancelOrder, Answer.granted_refuseIf]
  intro _
  split
  · trivial
  · split <;> first | exact running _ _ | simp

theorem answerReadGrade_granted : (answerReadGrade b s).Granted := by
  simp only [answerReadGrade, Answer.granted_refuseIf]
  intro _ _
  split
  · split <;> simp
  · simp

theorem answerAnnounceReel_granted : (answerAnnounceReel b s).Granted := by
  rw [answerAnnounceReel, Answer.granted_refuseIf]; intro _; split <;> simp

theorem answerWithdrawReel_granted : (answerWithdrawReel b s).Granted := by
  rw [answerWithdrawReel, Answer.granted_refuseIf]
  intro _
  split
  · trivial
  · rw [Answer.granted_refuseIf]; intro _; split <;> simp

theorem answerThreadReel_granted : (answerThreadReel b s).Granted := by
  rw [answerThreadReel, Answer.granted_refuseIf]
  intro _
  split
  · trivial
  · rw [Answer.granted_refuseIf]; intro _; split <;> simp

theorem answerUnthreadReel_granted : (answerUnthreadReel b s).Granted := by
  rw [answerUnthreadReel, Answer.granted_refuseIf]
  intro _
  split
  · trivial
  · split <;> simp

theorem answerUnscheduleOrder_granted : (answerUnscheduleOrder b s).Granted := by
  simp only [answerUnscheduleOrder, Answer.granted_refuseIf]; intro _; split <;> simp

theorem answerRushOrder_granted : (answerRushOrder b s).Granted := by
  simp only [answerRushOrder, Answer.granted_refuseIf]; intro _; split <;> simp

theorem answerRetireOrder_granted : (answerRetireOrder b s).Granted := by
  simp only [answerRetireOrder, Answer.granted_refuseIf]; intro _; split <;> simp

theorem answerReadOrder_granted : (answerReadOrder b s).Granted := by
  rw [answerReadOrder, Answer.granted_refuseIf]; intro _; split <;> simp

theorem answerAmendGrade_granted : (answerAmendGrade b s).Granted := by
  simp only [answerAmendGrade, Answer.granted_refuseIf]; intro _ _; split <;> simp

theorem answerRetireGrade_granted : (answerRetireGrade b s).Granted := by
  simp only [answerRetireGrade, Answer.granted_refuseIf]; intro _ _; split <;> simp

theorem answerReadReel_granted : (answerReadReel b s).Granted := by
  rw [answerReadReel, Answer.granted_refuseIf]; intro _; split <;> simp

theorem answerRequestSplice_granted : (answerRequestSplice b s).Granted := by
  rw [answerRequestSplice, Answer.granted_refuseIf]; intro _; split <;> simp

theorem answerClearStand_granted : (answerClearStand b s).Granted := by
  rw [answerClearStand, Answer.granted_refuseIf]; intro _; split <;> simp

theorem answerReadStand_granted : (answerReadStand b s).Granted := by
  rw [answerReadStand, Answer.granted_refuseIf]; intro _; split <;> simp

theorem answerClearStation_granted : (answerClearStation b s).Granted := by
  rw [answerClearStation, Answer.granted_refuseIf]; intro _; split <;> simp

theorem answerReadStationQueues_granted : (answerReadStationQueues b s).Granted := by
  rw [answerReadStationQueues, Answer.granted_refuseIf]; intro _; split <;> simp

end Requests

/-- R190, R191: every request is answered by its block, under its own kind. -/
theorem takeRequest_granted {i : Instr} {kind : Nat} {body : List Byte} (parts : requestParts i = some (kind, body))
    (s : State) : ∃ a : Answer, a.Granted ∧ takeRequest i s = answered kind s a := by
  cases i <;> cases parts <;> refine ⟨_, ?_, rfl⟩
  case configure => exact answerConfigure_granted
  case amendOrder => exact answerAmendOrder_granted
  case scheduleOrder => exact answerScheduleOrder_granted
  case unscheduleOrder => exact answerUnscheduleOrder_granted
  case rushOrder => exact answerRushOrder_granted
  case cancelOrder => exact answerCancelOrder_granted
  case retireOrder => exact answerRetireOrder_granted
  case readOrder => exact answerReadOrder_granted
  case amendGrade => exact answerAmendGrade_granted
  case retireGrade => exact answerRetireGrade_granted
  case readGrade => exact answerReadGrade_granted
  case announceReel => exact answerAnnounceReel_granted
  case withdrawReel => exact answerWithdrawReel_granted
  case threadReel => exact answerThreadReel_granted
  case unthreadReel => exact answerUnthreadReel_granted
  case readReel => exact answerReadReel_granted
  case requestSplice => exact answerRequestSplice_granted
  case clearStand => exact answerClearStand_granted
  case readStand => exact answerReadStand_granted
  case clearStation => exact answerClearStation_granted
  case readStationQueues => exact answerReadStationQueues_granted
  case null => simp [answerNull]
  case readLine => simp [answerReadLine]
  case readConfig => simp [answerReadConfig]
  case lineReset => simp [answerLineReset]
  case readErrors => simp [answerReadErrors]
  case setErrorPolicy => simp [answerSetErrorPolicy]
  case clearErrors => simp [answerClearErrors]
  case releaseHold => simp [answerReleaseHold]
  case collect => simp [answerCollect]
  case enterOrder => simp [answerEnterOrder]
  case readSequence => simp [answerReadSequence]
  case enterGrade => simp [answerEnterGrade]
  case placeCull => simp [answerPlaceCull]
  case readMarks => simp [answerReadMarks]
  case readSlitter => simp [answerReadSlitter]
  case readKnife => simp [answerReadKnife]
  case refreshBond => simp [answerRefreshBond]
  case readBond => simp [answerReadBond]

/-- Settles O5: every answer is a refusal or a request taken with OK or CLAMPED, and a refusal writes the response alone. -/
theorem refusedRequestChangesOnlyThePort : Obligations.RefusedRequestChangesOnlyThePort := by
  intro i kind body s parts
  obtain ⟨a, granted, answer⟩ := takeRequest_granted parts s
  exact ⟨answered kind s a, by rw [exec_request (Option.isSome_of_eq_some parts), answer], granted.refused⟩

end Sys2Proof.Machine
end

section
/-! PROOF. The error and attention unit: what a raise does (O9), SET ERROR POLICY (O10), CLEAR ERRORS (O11) and COLLECT
(O13). -/

namespace Sys2Proof.Machine

open Sys2Proof

/-! ### Sets of kinds (R192, R197) -/

/-- R197: the kind of a bit of a status set. -/
def kindAt : Nat → ErrorKind
  | 0 => .runOut | 1 => .spliceTimeout | 2 => .reelMismatch | 3 => .gradeGap | 4 => .diameterRange
  | 5 => .diameterStale | 6 => .queueDry | 7 => .lateChange | 8 => .changeAbandoned | 9 => .setTimeout
  | 10 => .verifyFail | 11 => .cutDeviation | 12 => .cutUnexpected | 13 => .markOverflow | 14 => .stackerLate
  | 15 => .reverseMotion | 16 => .linkOverrun | _ => .reportInvalid

theorem kindAt_number (k : ErrorKind) : kindAt (k.number - 1) = k := by cases k <;> rfl

theorem number_kindAt {i : Nat} (defined : i < 18) : (kindAt i).number - 1 = i := by
  interval_cases i <;> rfl

theorem number_lt (k : ErrorKind) : k.number - 1 < 18 := by cases k <;> decide

theorem number_inj {j k : ErrorKind} : j.number - 1 = k.number - 1 ↔ j = k :=
  ⟨fun same => by rw [← kindAt_number j, same, kindAt_number], fun same => by rw [same]⟩

theorem isIn_or (k : ErrorKind) (v w : BitVec 18) : k.isIn (v ||| w) = (k.isIn v || k.isIn w) :=
  BitVec.getLsbD_or

theorem isIn_and (k : ErrorKind) (v w : BitVec 18) : k.isIn (v &&& w) = (k.isIn v && k.isIn w) :=
  BitVec.getLsbD_and

theorem isIn_not (k : ErrorKind) (v : BitVec 18) : k.isIn (~~~v) = !k.isIn v := by
  simp [ErrorKind.isIn, number_lt]

/-- The bit of a kind is the set of that kind alone. -/
theorem isIn_bit (j k : ErrorKind) : j.isIn k.bit = (j == k) := by
  have bit : j.isIn k.bit = (decide (k.number - 1 < 18) && decide (k.number - 1 = j.number - 1)) :=
    BitVec.getLsbD_twoPow _ _
  rw [bit, decide_eq_true (number_lt k), Bool.true_and, decide_eq_decide.mpr (eq_comm.trans number_inj), beq_eq_decide]

/-- A set that is not empty holds a kind. -/
theorem set_ne_zero_iff {v : BitVec 18} : v ≠ 0#18 ↔ ∃ k : ErrorKind, k.isIn v = true := by
  constructor
  · intro some_
    by_contra none
    push Not at none
    refine some_ (BitVec.eq_of_getLsbD_eq fun i defined => ?_)
    have clear := none (kindAt i)
    rw [ErrorKind.isIn, number_kindAt defined] at clear
    simpa using clear
  · rintro ⟨k, set⟩ rfl
    simp [ErrorKind.isIn] at set

theorem isIn_unmasked (k : ErrorKind) (e : Errors) : k.isIn e.unmasked = (k.isIn e.status && !k.isIn e.mask) := by
  rw [Errors.unmasked, isIn_and, isIn_not]

/-- R204: a status that is set, unmasked and FATAL. -/
theorem fatalSet_iff {e : Errors} : e.fatalSet = true ↔
    ∃ k : ErrorKind, k.isIn e.status = true ∧ k.isIn e.mask = false ∧ k.isIn e.severity = true := by
  simp only [Errors.fatalSet, bne_iff_ne, set_ne_zero_iff, isIn_and, isIn_unmasked, Bool.and_eq_true,
    Bool.not_eq_true', and_assoc]

/-! ### A raise (R198, R199) -/

theorem raised_status (e : Errors) (k : ErrorKind) (o : ErrorObject) (odo : Coord) :
    (e.raised k o odo).status = e.status ||| k.bit := by
  rw [Errors.raised]; split <;> rfl

theorem raised_masked {e : Errors} {k : ErrorKind} (masked : k.isIn e.mask = true) (o : ErrorObject) (odo : Coord) :
    e.raised k o odo = { e with status := e.status ||| k.bit } := if_pos masked

theorem raised_unmasked {e : Errors} {k : ErrorKind} (unmasked : k.isIn e.mask = false) (o : ErrorObject) (odo : Coord) :
    e.raised k o odo = { e with
      status := e.status ||| k.bit
      first := some (FirstError.take e.first k o odo)
      hold := e.hold || k.isIn e.severity } :=
  if_neg (by rw [unmasked]; exact Bool.false_ne_true)

/-- Settles O9, by the mask of the kind. -/
theorem raiseFollowsMaskAndSeverity : Obligations.RaiseFollowsMaskAndSeverity := by
  intro s k o
  refine ⟨fun j => ?_, fun masked => ?_, fun unmasked => ?_⟩
  · rw [State.raise_errors, raised_status, isIn_or, isIn_bit]
  · rw [State.raise_errors, raised_status, State.raise, raised_masked masked]
  · rw [State.raise_errors, raised_status, State.raise, raised_unmasked unmasked]
    cases s.errors.first <;> rfl

/-! ### SET ERROR POLICY and CLEAR ERRORS (R200, R201) -/

section Policy

variable {s : State} {b : List Byte}

theorem answerSetErrorPolicy_short (len : b.length ≠ 6) : answerSetErrorPolicy b s = .error .format := by
  rw [answerSetErrorPolicy, bne_iff_ne.mpr len, refuseIf_true]

theorem answerSetErrorPolicy_eq (len : b.length = 6) : answerSetErrorPolicy b s =
    done { s with errors := s.errors.withPolicy (BitVec.ofNat 18 (field b 0 3)) (BitVec.ofNat 18 (field b 3 3)) } [] := by
  simp [answerSetErrorPolicy, len, readStatusSet]

theorem answerClearErrors_short (len : b.length ≠ 3) : answerClearErrors b s = .error .format := by
  rw [answerClearErrors, bne_iff_ne.mpr len, refuseIf_true]

theorem answerClearErrors_eq (len : b.length = 3) : answerClearErrors b s =
    done { s with errors := s.errors.cleared (BitVec.ofNat 18 (field b 0 3)) }
      (statusSet (s.errors.cleared (BitVec.ofNat 18 (field b 0 3))).status) := by
  simp [answerClearErrors, len, readStatusSet]

end Policy

/-- R200, R203: the line state under a new policy. -/
theorem withPolicy_hold {e : Errors} {mask severity : BitVec 18} : (e.withPolicy mask severity).hold = true ↔
    e.hold = true ∨ ∃ k : ErrorKind, k.isIn e.status = true ∧ k.isIn mask = false ∧ k.isIn severity = true := by
  rw [Errors.withPolicy, Bool.or_eq_true, fatalSet_iff]

/-- Settles O10: the test of the line state is that of R204 under the new policy. -/
theorem setErrorPolicyReplacesMasksAndSeverities : Obligations.SetErrorPolicyReplacesMasksAndSeverities := by
  intro b s
  refine ⟨fun len => ?_, fun len => ⟨_, ?_, withPolicy_hold⟩⟩
  · exact congrArg (fun a => Host.Outcome.next (answered 0x09 s a)) (answerSetErrorPolicy_short len)
  · exact congrArg (fun a => Host.Outcome.next (answered 0x09 s a)) (answerSetErrorPolicy_eq len)

theorem isIn_cleared (k : ErrorKind) (e : Errors) (named : BitVec 18) :
    k.isIn (e.cleared named).status = (k.isIn e.status && !k.isIn named) := by
  rw [Errors.cleared, isIn_and, isIn_not]

/-- R192: a status set reads back from its three bytes. -/
theorem field_statusSet (v : BitVec 18) : field (statusSet v) 0 3 = v.toNat :=
  field_bytesOf (v.isLt.trans (by decide))

/-- Settles O11. The answer's three bytes are the statuses left. -/
theorem clearErrorsClearsTheNamed : Obligations.ClearErrorsClearsTheNamed := by
  intro b s
  refine ⟨fun len => ?_, fun len => ⟨(s.errors.cleared (BitVec.ofNat 18 (field b 0 3))).status,
    (s.errors.cleared (BitVec.ofNat 18 (field b 0 3))).first, _, ?_, fun k => isIn_cleared k s.errors _, fun f held => ?_, fun free => ?_,
    bytesOf_length _ _, field_statusSet _⟩⟩
  · exact congrArg (fun a => Host.Outcome.next (answered 0x0A s a)) (answerClearErrors_short len)
  · exact congrArg (fun a => Host.Outcome.next (answered 0x0A s a)) (answerClearErrors_eq len)
  · simp only [Errors.cleared, held]
  · simp only [Errors.cleared, free]

/-! ### COLLECT (R206) -/

/-- R206: the order that COLLECT takes is one of the lowest slot. -/
theorem flaggedOrder_eq_argmin (s : State) : s.flaggedOrder = (s.orders.filter (·.attention)).argmin Order.slot := by
  refine congrArg (fun pick => List.foldl pick none (s.orders.filter (·.attention))) ?_
  funext best o
  cases best <;> rfl

theorem flaggedOrder_none {s : State} (quiet : ∀ o ∈ s.orders, o.attention = false) : s.flaggedOrder = none := by
  have empty : s.orders.filter (·.attention) = [] :=
    List.filter_eq_nil_iff.mpr fun o mem => by rw [quiet o mem]; exact Bool.false_ne_true
  rw [flaggedOrder_eq_argmin, empty, List.argmin_nil]

theorem flaggedOrder_least {s : State} {o : Order} (mem : o ∈ s.orders) (flagged : o.attention = true)
    (least : ∀ r ∈ s.orders, r.attention = true → r ≠ o → o.slot < r.slot) : s.flaggedOrder = some o := by
  have waits : o ∈ s.orders.filter (·.attention) := List.mem_filter.mpr ⟨mem, flagged⟩
  rw [flaggedOrder_eq_argmin]
  cases found : (s.orders.filter (·.attention)).argmin Order.slot with
  | none => rw [List.argmin_eq_none.mp found] at waits; cases waits
  | some r =>
    obtain ⟨inBook, attention⟩ := List.mem_filter.mp (List.argmin_mem found)
    have lowest : r.slot ≤ o.slot := List.le_of_mem_argmin waits found
    by_contra other
    exact absurd (least r inBook attention fun same => other (congrArg some same)) (Nat.not_lt_of_le lowest)

/-- R82: the reel slots before the one named, that slot, and those behind it. -/
theorem slotPlaces_split (k : Stand) (p : Pos) : ∃ after_,
    slotPlaces = slotPlaces.take (2 * k.idx + p.idx) ++ (k, p) :: after_ :=
  ⟨slotPlaces.drop (2 * k.idx + p.idx + 1), by cases k <;> cases p <;> rfl⟩

theorem slotPlaces_before (k : Stand) (p : Pos) :
    ∀ x ∈ slotPlaces.take (2 * k.idx + p.idx), 2 * x.1.idx + x.2.idx < 2 * k.idx + p.idx := by
  cases k <;> cases p <;> decide

theorem find_slotPlaces {f : Stand × Pos → Bool} {k : Stand} {p : Pos} (here : f (k, p) = true)
    (before_ : ∀ j q, 2 * j.idx + q.idx < 2 * k.idx + p.idx → f (j, q) = false) : slotPlaces.find? f = some (k, p) := by
  obtain ⟨after_, split⟩ := slotPlaces_split k p
  refine List.find?_eq_some_iff_append.mpr ⟨here, _, after_, split, fun x mem => ?_⟩
  rw [before_ x.1 x.2 (slotPlaces_before k p x mem)]; rfl

section Collect

variable {s : State}

theorem waitingItem_error (held : s.errors.unreported = true) : s.waitingItem = .error := if_pos held

theorem waitingItem_order {o : Order} (reported : s.errors.unreported = false) (found : s.flaggedOrder = some o) :
    s.waitingItem = .order o := by
  simp [State.waitingItem, reported, found]

theorem waitingItem_reel {k : Stand} {p : Pos} (reported : s.errors.unreported = false) (noOrder : s.flaggedOrder = none)
    (found : (slotPlaces.find? fun x => (s.slot x.1 x.2).attention) = some (k, p)) : s.waitingItem = .reel k p := by
  simp [State.waitingItem, reported, noOrder, found]

theorem waitingItem_nothing (reported : s.errors.unreported = false) (noOrder : s.flaggedOrder = none)
    (noReel : (slotPlaces.find? fun x => (s.slot x.1 x.2).attention) = none) : s.waitingItem = .nothing := by
  simp [State.waitingItem, reported, noOrder, noReel]

theorem exec_collect {w : Waiting} (waits : s.waitingItem = w) :
    exec (.collect []) s = .next ((s.clearWaiting w).respond 0x0C#8 .ok
      (byteOf (s.waitingRecord w).1 ++ statusSet s.errors.unmasked ++ (s.waitingRecord w).2)) := by
  subst waits; rfl

end Collect

/-- Settles O13: which item waits first, in the four cases of R206, and what COLLECT makes of it. -/
theorem collectTakesByPreference : Obligations.CollectTakesByPreference := by
  intro s
  refine ⟨fun f held unreported => ?_, fun reported o mem flagged least => ?_, fun reported noOrder k p flagged before_ => ?_,
    fun reported noOrder noReel => ?_⟩
  · have waits : s.errors.unreported = true := by rw [Errors.unreported, held]; exact unreported
    rw [exec_collect (waitingItem_error waits)]
    simp only [State.clearWaiting, State.waitingRecord, Errors.reported, held, Option.map_some]
  · exact exec_collect (waitingItem_order reported (flaggedOrder_least mem flagged least))
  · exact exec_collect (waitingItem_reel reported (flaggedOrder_none noOrder)
      (find_slotPlaces (f := fun x => (s.slot x.1 x.2).attention) flagged before_))
  · have noFlag : (slotPlaces.find? fun x => (s.slot x.1 x.2).attention) = none :=
      List.find?_eq_none.mpr fun x _ => by rw [noReel x.1 x.2]; exact Bool.false_ne_true
    rw [exec_collect (waitingItem_nothing reported (flaggedOrder_none noOrder) noFlag)]
    simp only [State.clearWaiting, State.waitingRecord, List.append_nil]

end Sys2Proof.Machine
end

section
/-! PROOF. READ LINE (O7): its 26 bytes as a row of items, and the line flags. -/

namespace Sys2Proof.Machine

open Sys2Proof

def lineWidths : List Nat := [4, 4, 2, 1, 1, 1, 1, 1, 1, 1, 1, 1, 4, 3]

/-- R196: the line flags, the first as bit 0. -/
def lineFlagList (s : State) : List Bool :=
  [s.stopped, s.reverseRun, s.errors.hold, s.stopReqLow, s.attnLow, s.errors.first.isSome, s.errors.unreported]

theorem lineFlags_eq (s : State) : s.lineFlags = flagsOf (lineFlagList s) := by
  simp only [State.lineFlags, lineFlagList, flagsOf]; omega

/-- R196: the number of the change state. -/
def changeCode (s : State) : Nat :=
  if s.changes.isEmpty then 0
  else if s.provisional.isSome then 1
  else if s.openRunOut.isSome then 2
  else (Config.enumCode .lineChange 0).toNat

theorem changeState_eq_pack (s : State) : s.changeState = pack [1] [changeCode s] := by
  unfold State.changeState changeCode
  split
  · exact byteOf_eq_pack 0
  · split
    · exact byteOf_eq_pack 1
    · split
      · exact byteOf_eq_pack 2
      · exact codeByte_eq_pack _ _

/-- R196: the items of READ LINE. -/
def lineItems (s : State) : List Nat :=
  [s.odometer.toNat, (knifeCoord s).toNat, s.speed, s.zeroWindows, flagsOf (lineFlagList s), 64 - s.orders.length,
    32 - s.grades.length, 48 - s.marks.length, s.runSeq.length, s.suspended.length, changeCode s,
    boolNat s.provisionalEnd.isSome, (s.provisionalEnd.map (·.toNat)).getD 0, s.errors.unmasked.toNat]

theorem exec_readLine (s : State) :
    exec (.readLine []) s = .next (s.respond 0x01#8 .ok (pack lineWidths (lineItems s))) := by
  have answer : answerReadLine [] s = done s (pack lineWidths (lineItems s)) := by
    simp only [answerReadLine, List.length_nil, bne_self_eq_false, refuseIf_false, changeState_eq_pack, optCoord_eq_pack,
      lineFlags_eq, statusSet, lineItems, lineWidths, byteOf, coordBytes, pack_cons, pack_nil, List.append_assoc,
      List.append_nil]
    rfl
  exact congrArg (fun a => Host.Outcome.next (answered 0x01 s a)) answer

/-! ### The change state (R196) -/

theorem changeCode_none {s : State} (empty : s.changes = []) : changeCode s = 0 := by simp [changeCode, empty]

theorem changeCode_provisional {s : State} (there : s.provisional.isSome) : changeCode s = 1 := by
  obtain ⟨⟨p, m⟩, found⟩ := Option.isSome_iff_exists.mp there
  obtain ⟨x, mem, change⟩ := provisional_hasMark found
  have some_ : s.changes ≠ [] := by
    intro empty
    cases x with
    | change c =>
      have listed : c ∈ s.changes := List.mem_filterMap.mpr ⟨_, mem, rfl⟩
      rw [empty] at listed
      cases listed
    | joint _ | gap _ | host _ => cases change
  simp [changeCode, some_, there]

theorem changeCode_runOut {s : State} (none : s.provisional = none) (open_ : ∃ m ∈ s.changes, m.state = .runOut) :
    changeCode s = 2 := by
  obtain ⟨m, mem, runOut⟩ := open_
  have found : s.openRunOut.isSome := List.find?_isSome.mpr ⟨m, mem, by rw [runOut]; rfl⟩
  simp [changeCode, List.ne_nil_of_mem mem, none, found]

theorem changeCode_lt (s : State) : changeCode s < 256 := by
  unfold changeCode
  split
  · decide
  · split
    · decide
    · split
      · decide
      · exact BitVec.isLt _

/-! ### The attention condition (R199, R205) -/

theorem unreported_iff {e : Errors} : e.unreported = true ↔ ∃ f, e.first = some f ∧ f.unreported = true := by
  unfold Errors.unreported
  cases e.first <;> simp

theorem mem_slotPlaces (k : Stand) (p : Pos) : (k, p) ∈ slotPlaces := by cases k <;> cases p <;> decide

/-- R205: what waits for the host. -/
theorem attnLow_iff {s : State} : s.attnLow = true ↔ (∃ o ∈ s.orders, o.attention = true)
    ∨ (∃ k p, (s.slot k p).attention = true)
    ∨ (∃ e : ErrorKind, e.isIn s.errors.status = true ∧ e.isIn s.errors.mask = false)
    ∨ ∃ f, s.errors.first = some f ∧ f.unreported = true := by
  have reels : (slotPlaces.any fun x => (s.slot x.1 x.2).attention) = true ↔ ∃ k p, (s.slot k p).attention = true := by
    rw [List.any_eq_true]
    exact ⟨fun ⟨x, _, flagged⟩ => ⟨x.1, x.2, flagged⟩, fun ⟨k, p, flagged⟩ => ⟨(k, p), mem_slotPlaces k p, flagged⟩⟩
  have statuses : (s.errors.unmasked != 0#18) = true ↔
      ∃ e : ErrorKind, e.isIn s.errors.status = true ∧ e.isIn s.errors.mask = false := by
    simp only [bne_iff_ne, set_ne_zero_iff, isIn_unmasked, Bool.and_eq_true, Bool.not_eq_true']
  simp only [State.attnLow, Bool.or_eq_true, List.any_eq_true, reels, statuses, unreported_iff, or_assoc]

/-! ### The 26 bytes -/

/-- Settles O7: the answer is a row of items of fixed widths, and each item reads back at the sum of the widths before it. -/
theorem readLineReportsTheLine : Obligations.ReadLineReportsTheLine := by
  intro s speed zero orders grades marks runSeq stack
  have full : (lineItems s).length = lineWidths.length := rfl
  have bit (i : Nat) : (field (pack lineWidths (lineItems s)) 11 1).testBit i = (lineFlagList s).getD i false :=
    (congrArg (·.testBit i) (field_item full 4 rfl rfl rfl (flagsOf_byte (by simp [lineFlagList])))).trans
      (flagsOf_testBit _ i)
  have change {n : Nat} (code : changeCode s = n) : field (pack lineWidths (lineItems s)) 17 1 = n :=
    (field_item full 10 rfl rfl rfl (changeCode_lt s)).trans code
  refine ⟨_, exec_readLine s, pack_length full, coordField_item full 0 rfl rfl rfl, coordField_item full 1 rfl rfl rfl,
    field_item full 2 rfl rfl rfl (by omega), field_item full 3 rfl rfl rfl (by omega), bit 0, bit 1, bit 2, bit 3,
    (Bool.eq_iff_iff.mp (bit 4)).trans attnLow_iff, bit 5, (Bool.eq_iff_iff.mp (bit 6)).trans unreported_iff,
    field_item full 5 rfl rfl rfl (by omega), field_item full 6 rfl rfl rfl (by omega),
    field_item full 7 rfl rfl rfl (by omega), field_item full 8 rfl rfl rfl (by omega),
    field_item full 9 rfl rfl rfl (by omega), fun none => change (changeCode_none none),
    fun there => change (changeCode_provisional there), fun none open_ => change (changeCode_runOut none open_),
    fun none => ?_, fun p there => ⟨?_, ?_⟩, fun e => ?_⟩
  · exact field_zero_items full 11 2 rfl rfl (by simp [lineItems, none, boolNat])
  · exact field_item full 11 rfl (by simp [lineItems, there, boolNat]) rfl (by decide)
  · exact coordField_item full 12 rfl (by simp [lineItems, there]) rfl
  · have unmasked : field (pack lineWidths (lineItems s)) 23 3 = s.errors.unmasked.toNat :=
      field_item full 13 rfl rfl rfl (s.errors.unmasked.isLt.trans (by decide))
    rw [unmasked, ← isIn_unmasked]
    rfl

end Sys2Proof.Machine
end

section
/-! PROOF. HOLD (O14): a command other than RELEASE HOLD and device reset leaves the line in HOLD. What evolves the state
keeps HOLD (Laws/Evolves.lean); what is left is the commands that write a table or the error unit by themselves. -/

namespace Sys2Proof.Machine

open Sys2Proof

/-- R203: the line is in HOLD. -/
def State.InHold (s : State) : Prop := s.errors.hold = true

namespace State.InHold

variable {s t : State} {b : List Byte}

theorem evolves (h : s.InHold) (e : Evolves s t) : t.InHold := e.hold h

theorem respond (h : s.InHold) {kind : Byte} {st : Status} {b : List Byte} : (s.respond kind st b).InHold := h

theorem answered (h : s.InHold) {a : Answer} {k : Nat} (g : a.Leaves State.InHold) :
    (Machine.answered k s a).InHold := by
  cases a with
  | error st => exact h.respond
  | ok r => exact State.InHold.respond (s := r.state) g

theorem answeredEvolves (h : s.InHold) {a : Answer} {k : Nat} (g : a.Leaves (Evolves s)) :
    (Machine.answered k s a).InHold := h.answered (g.imp fun _ => h.evolves)

theorem answeredRead (h : s.InHold) {a : Answer} {k : Nat} (g : a.Leaves (· = s)) :
    (Machine.answered k s a).InHold := h.answered (g.imp fun _ e => e ▸ h)

theorem setConfig (h : s.InHold) {c : List Int} : State.InHold { s with config := c } := h
theorem setOrders (h : s.InHold) {l : List Order} : State.InHold { s with orders := l } := h
theorem setGrades (h : s.InHold) {l : List Grade} : State.InHold { s with grades := l } := h
theorem setReceiver (h : s.InHold) {r : Option Reception} : State.InHold { s with receiver := r } := h
theorem setInputs (h : s.InHold) {x : InputLevels} : State.InHold { s with inputs := x } := h
theorem setKnife (h : s.InHold) {f : Knife → Knife} : (s.setKnife f).InHold := h
theorem setPostponed (h : s.InHold) {p : Option Postponed} : (s.setPostponed p).InHold := h

/-! ### The requests that write a table or the error unit -/

theorem answerConfigure (h : s.InHold) : (answerConfigure b s).Leaves State.InHold := by
  simp only [Machine.answerConfigure, Answer.leaves_refuseIf, Answer.leaves_ok]
  intro _ _ _ _
  exact h.setConfig.evolves ((Evolves.refl _).setDraws.takeEvents fun _ v => (Evolves.refl v).lowReelIfLow)

theorem answerEnterOrder (h : s.InHold) : (answerEnterOrder b s).Leaves State.InHold := by
  simp only [Machine.answerEnterOrder, Answer.leaves_refuseIf, Answer.leaves_done]
  exact fun _ _ _ _ _ _ => h.setOrders.evolves (Evolves.refl _).gradeRefUp

theorem answerRetireOrder (h : s.InHold) : (answerRetireOrder b s).Leaves State.InHold := by
  simp only [Machine.answerRetireOrder, Answer.leaves_refuseIf]
  intro _
  split
  · trivial
  · simp only [Answer.leaves_refuseIf, Answer.leaves_done]
    exact fun _ => h.setOrders.evolves ((Evolves.refl _).gradeRefDown.setPostponed).recheckAll

theorem answerEnterGrade (h : s.InHold) : (answerEnterGrade b s).Leaves State.InHold := by
  simp only [Machine.answerEnterGrade, Answer.leaves_refuseIf, Answer.leaves_done]
  exact fun _ _ _ _ => h

theorem answerRetireGrade (h : s.InHold) : (answerRetireGrade b s).Leaves State.InHold := by
  simp only [Machine.answerRetireGrade, Answer.leaves_refuseIf]
  intro _ _
  split
  · trivial
  · simp only [Answer.leaves_refuseIf, Answer.leaves_done]
    exact fun _ => h.setGrades.evolves (Evolves.refl _).recheckAll

/-- R200: a new policy can put the line in HOLD, and takes it out in no case. -/
theorem answerSetErrorPolicy (h : s.InHold) : (answerSetErrorPolicy b s).Leaves State.InHold :=
  Answer.leaves_refuseIf.mpr fun _ => Bool.or_eq_true_iff.mpr (Or.inl h)

theorem answerClearErrors (h : s.InHold) : (answerClearErrors b s).Leaves State.InHold :=
  Answer.leaves_refuseIf.mpr fun _ => h

theorem answerCollect (h : s.InHold) : (answerCollect b s).Leaves State.InHold := by
  refine Answer.leaves_refuseIf.mpr fun _ => ?_
  rw [Answer.leaves_done]
  cases s.waitingItem <;> exact h

/-- R203: a request other than RELEASE HOLD leaves the line in HOLD. -/
theorem takeRequest (h : s.InHold) (i : Instr) (other : ∀ b, i ≠ .releaseHold b) : (takeRequest i s).InHold := by
  cases i
  case releaseHold b => exact absurd rfl (other b)
  case null => exact h.answeredRead answerNull_leaves
  case readLine => exact h.answeredRead answerReadLine_leaves
  case configure => exact h.answered h.answerConfigure
  case readConfig => exact h.answeredRead answerReadConfig_leaves
  case lineReset => exact h.answeredEvolves answerLineReset_evolves
  case readErrors => exact h.answeredRead answerReadErrors_leaves
  case setErrorPolicy => exact h.answered h.answerSetErrorPolicy
  case clearErrors => exact h.answered h.answerClearErrors
  case collect => exact h.answered h.answerCollect
  case enterOrder => exact h.answered h.answerEnterOrder
  case amendOrder => exact h.answeredEvolves answerAmendOrder_evolves
  case scheduleOrder => exact h.answeredEvolves answerScheduleOrder_evolves
  case unscheduleOrder => exact h.answeredEvolves answerUnscheduleOrder_evolves
  case rushOrder => exact h.answeredEvolves answerRushOrder_evolves
  case cancelOrder => exact h.answeredEvolves answerCancelOrder_evolves
  case retireOrder => exact h.answered h.answerRetireOrder
  case readOrder => exact h.answeredRead answerReadOrder_leaves
  case readSequence => exact h.answeredRead answerReadSequence_leaves
  case enterGrade => exact h.answered h.answerEnterGrade
  case amendGrade => exact h.answeredEvolves answerAmendGrade_evolves
  case retireGrade => exact h.answered h.answerRetireGrade
  case readGrade => exact h.answeredRead answerReadGrade_leaves
  case placeCull => exact h.answeredEvolves answerPlaceCull_evolves
  case readMarks => exact h.answeredRead answerReadMarks_leaves
  case announceReel => exact h.answeredEvolves answerAnnounceReel_evolves
  case withdrawReel => exact h.answeredEvolves answerWithdrawReel_evolves
  case threadReel => exact h.answeredEvolves answerThreadReel_evolves
  case unthreadReel => exact h.answeredEvolves answerUnthreadReel_evolves
  case readReel => exact h.answeredRead answerReadReel_leaves
  case requestSplice => exact h.answeredEvolves answerRequestSplice_evolves
  case clearStand => exact h.answeredEvolves answerClearStand_evolves
  case readStand => exact h.answeredRead answerReadStand_leaves
  case clearStation => exact h.answeredEvolves answerClearStation_evolves
  case readSlitter => exact h.answeredRead answerReadSlitter_leaves
  case readKnife => exact h.answeredRead answerReadKnife_leaves
  case refreshBond => exact h.answeredEvolves answerRefreshBond_evolves
  case readBond => exact h.answeredRead answerReadBond_leaves
  case readStationQueues => exact h.answeredRead answerReadStationQueues_leaves
  all_goals exact h

/-! ### Reports and exchanges -/

theorem queueChange (h : s.InHold) {n k c : Nat} {f : Bool} : (s.queueChange n k c f).InHold :=
  (h.evolves (Evolves.refl s).enqueue).setKnife

theorem issuePostponed (h : s.InHold) : s.issuePostponed.InHold := by
  unfold State.issuePostponed
  dsimp only
  split
  · exact h
  · split
    · exact h.setPostponed.queueChange.evolves (Evolves.refl _).countPostponed
    · split
      · exact h.setPostponed.queueChange.evolves (Evolves.refl _).countPostponed.clearFill
      · exact h.setPostponed.queueChange

/-- R156: STACK_TAKEN, however many stack changes are outstanding. -/
theorem stackTaken (h : s.InHold) : s.stackTaken.InHold := by
  unfold State.stackTaken
  split
  · exact h.evolves (Evolves.refl s).raise
  · exact h.setKnife.issuePostponed

theorem routeReport (h : s.InHold) {src : Source} {k : ReportKind} {body : List Byte} :
    (s.routeReport src k body).InHold := by
  have same := Evolves.refl s
  unfold State.routeReport
  split
  · split <;> [exact h.evolves same.reelLoaded; exact h]
  · split <;> [exact h.evolves same.reelRemoved; exact h]
  · split <;> [exact h.evolves same.diameterReport; exact h]
  · exact h.evolves same.setPositions
  · exact h.stackTaken
  · exact h

theorem reportFrame (h : s.InHold) (bs : List Byte) : (s.reportFrame bs).InHold := by
  unfold State.reportFrame
  split
  · exact h.evolves (Evolves.refl s).raise
  · exact h.routeReport

theorem endReception (h : s.InHold) : s.endReception.InHold := by
  unfold State.endReception
  split
  · exact h.setReceiver.evolves (Evolves.refl _).raise
  · exact h

theorem receiveOne (h : s.InHold) (x : Option Byte) : (s.receiveOne x).InHold := by
  cases x with
  | some b =>
    simp only [State.receiveOne, State.receiveByte]
    split
    · split <;> exact h
    · split
      · exact h.setReceiver.reportFrame _
      · exact h
  | none =>
    simp only [State.receiveOne, State.receiveRest]
    split
    · exact h
    · split
      · exact h
      · exact h.endReception

theorem receive (h : s.InHold) (heard : List (Option Byte)) : (s.receive heard).InHold := by
  unfold State.receive
  induction heard generalizing s with
  | nil => exact h
  | cons x xs ih => exact ih (h.receiveOne x)

theorem exchangeEnds (h : s.InHold) (frame : List Byte) (other : ∀ b, parseFrame frame ≠ some (.releaseHold b)) :
    (s.exchangeEnds frame).InHold := by
  unfold State.exchangeEnds
  split
  · exact h
  · split
    · next i parsed => exact h.takeRequest i fun b is => other b (parsed.trans (congrArg some is))
    · exact h.respond

/-! ### The commands -/

theorem forwardCount (h : s.InHold) : s.forwardCount.InHold := by
  have advanced : s.advance.InHold := h
  exact advanced.evolves s.forwardCount_evolves

theorem reverseCount (h : s.InHold) : s.reverseCount.InHold := by
  unfold State.reverseCount
  split
  · exact h
  · have flagged : State.InHold { s with reverseRun := true } := h
    exact flagged.evolves (Evolves.refl _).raise

theorem windowClose (h : s.InHold) : s.windowClose.InHold := by
  have closed : s.closeWindow.InHold := h
  exact closed.evolves s.windowClose_evolves

theorem encoderPeriod (h : s.InHold) {dir : Bool} {act : State → State} (keeps : ∀ t : State, t.InHold → (act t).InHold) :
    (s.encoderPeriod dir act).InHold := by
  unfold State.encoderPeriod
  dsimp only
  split
  · exact h.setInputs
  · exact keeps _ h.setInputs

/-- A command that is no request, no device reset and no exchange leaves the line in HOLD. -/
theorem exec_internal (h : s.InHold) {c : Instr} (event : ¬ (requestParts c).isSome = true) (noReset : c ≠ .deviceReset)
    (noExchange : ∀ bits, c ≠ .requestFrameRefused bits) : ∃ t, exec c s = .next t ∧ t.InHold := by
  have same := Evolves.refl s
  cases c <;> first | exact absurd rfl event | refine ⟨_, rfl, ?_⟩
  case deviceReset => exact absurd rfl noReset
  case requestFrameRefused bits => exact absurd rfl (noExchange bits)
  case forwardCount => exact h.encoderPeriod fun _ => forwardCount
  case reverseCount => exact h.encoderPeriod fun _ => reverseCount
  case speedWindowClose => exact h.windowClose
  case lineStopped => split <;> exact h
  case cutPulse =>
    unfold State.cutPeriod
    split <;> [exact h.evolves same.cutPulse; exact h]
  case jointPulse =>
    unfold State.jointPeriod
    split <;> [exact h.evolves same.jointPulse; exact h]
  case reelLoaded => split <;> [exact h.evolves same.raise; exact h.evolves same.reelLoaded]
  case reelRemoved => exact h.evolves same.reelRemoved
  case diameter => split <;> [exact h.evolves same.raise; exact h.evolves same.diameterReport]
  case setPositions => split <;> [exact h.evolves same.setPositions; exact h.evolves same.raise]
  case stackTaken => exact h.stackTaken
  case malformedReport => exact h.receive _
  case reportFrameTimeout => exact h.endReception
  case spliceTimeout => exact h.evolves same.spliceTimeout
  case setTimeout => exact h.evolves same.setTimeout
  case diameterStale => exact h.evolves same.staleTest
  case runOut => exact h.evolves same.runOutIfEmpty
  case bumpEnd => exact h.evolves same.endBump
  case arbiterTake => exact h.evolves same.arbiterTake
  case spliceGo => split <;> [exact h.evolves same.goSent.freePlace; exact h]
  case speedCap => split <;> [exact h.evolves same.freePlace; exact h]
  case knifeSchedule => split <;> [exact h.evolves same.freePlace; exact h]
  case slitterSet => split <;> [exact h.evolves same.setSent.freePlace; exact h]
  case slitterExchange => split <;> [exact h.evolves same.exchangeSent.freePlace; exact h]
  case stackChange => split <;> [exact h.evolves same.freePlace; exact h]
  case bondSetpoint => split <;> [exact h.evolves same.setpointSent.freePlace; exact h]

end State.InHold

/-- Settles O14: a request, an exchange or another command, each of which leaves the line in HOLD but for those named. -/
theorem holdIsLeftOnlyByReleaseHold : Obligations.HoldIsLeftOnlyByReleaseHold := by
  intro c s t run hold released
  by_contra others
  push Not at others
  obtain ⟨noRelease, noReset, noFrame⟩ := others
  have kept : ∃ u, exec c s = .next u ∧ u.InHold := by
    by_cases request : (requestParts c).isSome = true
    · exact ⟨_, exec_request request s, State.InHold.takeRequest hold c noRelease⟩
    · by_cases exchange : ∃ bits, c = .requestFrameRefused bits
      · obtain ⟨bits, rfl⟩ := exchange
        exact ⟨_, rfl, State.InHold.exchangeEnds hold _ fun b => noFrame bits b rfl⟩
      · exact State.InHold.exec_internal hold request noReset fun bits is => exchange ⟨bits, is⟩
  obtain ⟨u, same, inHold⟩ := kept
  cases same.symm.trans run
  exact Bool.false_ne_true (released.symm.trans inHold)

end Sys2Proof.Machine
end

section
/-! PROOF. The step on a queue with a command in front (O1). -/

namespace Sys2Proof.Machine

open Sys2Proof

/-- Settles O1: the queue's front command selects `step`'s second arm, and writing the rest over the queue forgets that
command. -/
theorem stepRunsFrontCommand : Obligations.StepRunsFrontCommand := by
  intro c rest s
  rfl

end Sys2Proof.Machine
end
